-- ==== Sys2Proof/Word.lean ====
section
/-! DEFINITION. The word types of the device (spec 00_scope R7, R10; spec 02_one_time_line R35, R37). -/

namespace Sys2Proof

/-- One byte. -/
abbrev Byte := BitVec 8

/-- A 32-bit register or record word, little-endian in memory (R7). -/
abbrev Word := BitVec 32

/-- Device time: an unsigned count of ticks of 125 ps (R35). -/
abbrev T64 := BitVec 64

/-- Bits [31:0] of a T64 (R37). -/
abbrev T32 := BitVec 32

/-- A list of bytes, the first at the lowest address. -/
abbrev Bytes := List Byte

end Sys2Proof
end

