-- ==== Sys2Proof/Sections/Ports.lean ====
section
/-! DEFINITION. The content of the PORT and HEADGATE sections and of the parser templates (spec 05_sensor_ports, spec 06_headgates). F32 values are their bit patterns. -/

namespace Sys2Proof.Machine

open Sys2Proof

/-- ROW_SOURCE of a virtual channel (R124). -/
inductive RowSource where
  | ls | fsPeriod | trigPeriod (trig : Fin 16)
deriving DecidableEq, Repr, Inhabited

/-- CSI_CFG of one port (R120, R124): settings of virtual channel v at place v. -/
structure CsiCfg where
  cphy : Bool := false
  lanes : Nat := 4
  /-- Lane rate in Mbit/s, or symbol rate of a trio in Msym/s; D-PHY deskew (R120). R120 gives neither a default. DESIGN CHOICE, log entry 144. -/
  rate : Nat := 1500
  initialDeskew : Bool := true
  periodicDeskew : Bool := true
  rowSource : Vector RowSource 16 := Vector.replicate 16 .ls
  firstRow : Vector Int 16 := Vector.replicate 16 0
  rowPeriod : Vector Nat 16 := Vector.replicate 16 80000
deriving DecidableEq, Repr, Inhabited

/-- One Ethernet stream matcher (R128); an absent field stands for ANY. -/
structure EthMatch where
  vlan : Option (BitVec 12) := none
  etherType : BitVec 16
  src : Option Bytes := none
  dstPort : BitVec 16 := 0
  headgate : Fin 64
deriving DecidableEq, Repr, Inhabited

/-- ETH_CFG and ETH_MATCH of a sensor port (R125, R127, R128). -/
structure EthCfg where
  /-- 0 SGMII, 1 2500BASE-X, 2 USXGMII, 3 10GBASE-R. -/
  pcs : Nat
  /-- Mbit/s, 0 for AUTO. -/
  speed : Nat := 0
  /-- 2500BASE-X with Clause 37 auto-negotiation (R125). R125 gives no default. DESIGN CHOICE, log entry 144. -/
  clause37 : Bool := true
  mac : BitVec 48 := 0
  ip4 : Word := 0
  ip6 : BitVec 128 := 0
  matchers : List EthMatch := []
deriving DecidableEq, Repr, Inhabited

/-- A check read of INIT (R136). -/
structure SpiCheck where
  write : Bytes
  expect : Bytes
  mask : Bytes
deriving DecidableEq, Repr, Inhabited

/-- SPI_CFG (R135 to R138). -/
structure SpiCfg where
  mode3 : Bool := true
  sclkKhz : Nat := 10000
  misoDelay : Bool := false
  activeHigh : Bool := true
  init : List (Bytes × Nat) := []
  checks : List SpiCheck := []
  pref : Bytes := []
  length : Nat := 1
  /-- START_DELAY in ns. -/
  startDelay : Nat := 0
  poll : Bool := false
  /-- POLL_PERIOD in µs. -/
  pollPeriod : Nat := 1000
deriving DecidableEq, Repr, Inhabited

/-- ENC_CFG (R139, R141). -/
structure EncCfg where
  stepDir : Bool := false
  invert : Bool := false
  /-- MIN_PULSE in ns. -/
  minPulse : Nat := 40
  countsPerRev : Nat := 0
  indexTol : Nat := 2
deriving DecidableEq, Repr, Inhabited

/-- One CAN receive filter (R143): format 0 Classical, 1 FD, 2 XL. -/
structure CanFilter where
  format : Nat
  ext : Bool := false
  id : BitVec 29
  mask : BitVec 29
  sdt : Option (BitVec 8) := none
  vcid : Option (BitVec 8) := none
  headgate : Fin 64
deriving DecidableEq, Repr, Inhabited

/-- CAN_CFG and CAN_FILT of a channel (R142, R143). -/
structure CanCfg where
  active : Bool := false
  /-- Rates in kbit/s; 0 where unused. R142 gives the nominal rate no default. DESIGN CHOICE, log entry 144. -/
  nominal : Nat := 500
  fdRate : Nat := 0
  xlRate : Nat := 0
  filters : List CanFilter := []
deriving DecidableEq, Repr, Inhabited

/-- One step of a configuration script (R146). -/
inductive ScriptStep where
  | write (addr : BitVec 7) (data : Bytes)
  | readCheck (addr : BitVec 7) (reg expect mask : Bytes)
  | delay (us : Nat)
deriving DecidableEq, Repr, Inhabited

/-- A script and its dependents (R146). -/
structure Script where
  steps : List ScriptStep
  dependents : List (Fin 64)
deriving DecidableEq, Repr, Inhabited

/-- A dynamic address that the controller gives an I3C target (R145): by SETDASA to a static address, or by ENTDAA. -/
structure DynAddr where
  fromStatic : Option (BitVec 7) := none
  dynamic : BitVec 7
deriving DecidableEq, Repr, Inhabited

/-- CFGBUS and the script of one PORT section (R145, R146). -/
structure BusCfg where
  i3c : Bool := false
  /-- Rate of the bus in kHz, and of legacy I²C targets on an I3C bus (R145). R145 gives no default. DESIGN CHOICE, log entry 144. -/
  rateKhz : Nat := 400
  legacyKhz : Nat := 400
  dynamics : List DynAddr := []
  /-- STRETCH_TIMEOUT in ms. -/
  stretchTimeout : Nat := 25
  script : Script := ⟨[], []⟩
deriving DecidableEq, Repr, Inhabited

/-- The content of a PORT section by port kind (R117). -/
inductive PortCfg where
  | csi (c : CsiCfg)
  | eth (c : EthCfg)
  | spi (c : SpiCfg)
  | enc (c : EncCfg)
  | can (c : CanCfg)
  | bus (c : BusCfg)
deriving DecidableEq, Repr, Inhabited

/-- One extractor entry of a parser template (R131). -/
structure Extractor where
  version : Nat := 1
  dest : Nat
  type : Nat
  big : Bool := false
  scope : Nat := 0
  offset : Nat := 0
  scale : Word := 0x3F800000
  bias : Word := 0
  expect : Word := 0
deriving DecidableEq, Repr, Inhabited

/-- A parser template (R130). -/
structure Template where
  depth : Bool := false
  payloadLen : Nat
  blockCount : Nat := 1
  blockOffset0 : Nat := 0
  blockStride : Nat := 0
  channels : Nat
  channelOffset0 : Nat := 0
  channelStride : Nat := 0
  blockDt : Nat := 0
  channelDt : Nat := 0
  sensorTime : Bool := false
  pktLatency : Nat := 0
  /-- TIME_UNIT: 0 NS, 1 US, 2 FRAC32. -/
  timeUnit : Nat := 0
  timeAdj : Int := 0
  elev : List (BitVec 16) := []
  azCorr : List (BitVec 16) := []
  extractors : List Extractor
deriving DecidableEq, Repr, Inhabited

/-- Stream kinds (R150). -/
inductive HgKind where
  | points | depth | camera | scalar | edge
deriving DecidableEq, Repr, Inhabited

/-- Integrity profiles (R158). -/
inductive Profile where
  | none | crc8 | crc16 | crc32c
deriving DecidableEq, Repr, Inhabited

/-- Filters (R159). -/
inductive Filter where
  | none | despike | median3 | median5
deriving DecidableEq, Repr, Inhabited

/-- Roles of a field entry (R159). -/
inductive FieldRole where
  | value | counter | check
deriving DecidableEq, Repr, Inhabited

/-- One field entry of a SCALAR stream (R159); OUT: 6 Q15.16, 13 F32, 5 S32. -/
structure FieldEntry where
  type : Nat
  big : Bool := false
  offset : Nat
  scale : Word := 0x3F800000
  bias : Word := 0
  role : FieldRole := .value
  out : Nat := 6
  min : Word := 0xFF800000
  max : Word := 0x7F800000
  slewMax : Word := 0
  filter : Filter := .none
  spikeLimit : Word := 0x3F800000
deriving DecidableEq, Repr, Inhabited

/-- HG_CFG (R154 to R169). -/
structure HgCfg where
  kind : HgKind
  port : Nat
  selector : Nat := 0
  template : Nat := 0
  rows : Nat := 1
  /-- PKT_GAP in µs, TIMEOUT in ms. -/
  pktGap : Nat := 2000
  timeout : Nat := 150
  probation : Nat := 4
  crcStart : Nat := 0
  dataId : Bytes := []
  flumeBytes : Nat := 65536
  flumeLevel : Nat := 49152
  latency : Int := 0
  /-- STAMP_WINDOW and TIME_TOL in µs. -/
  stampWindow : Nat := 10000
  timeTol : Nat := 50
  /-- RANGE_MIN, RANGE_MAX as Q15.16. -/
  rangeMin : Int := 6554
  rangeMax : Int := 13107200
  profile : Profile := .none
  fields : List FieldEntry := []
  ctrBits : Nat := 0
  epochBits : Nat := 0
  maxGap : Nat := 16
  /-- REORDER in µs. -/
  reorder : Nat := 1000
  failMask : Nat := 8
  rearm : Bool := true
  recover : Nat := 64
  probConf : Nat := 128
  confStep : Nat := 32
  confRise : Nat := 4
deriving DecidableEq, Repr, Inhabited

/-- HG_CFG of a kind and port with every other field at its default; TIMEOUT and PROBATION depend on the kind (R169). -/
def HgCfg.ofKind (k : HgKind) (port : Nat) : HgCfg :=
  match k with
  | .scalar => { kind := k, port := port, timeout := 10, probation := 64 }
  | .edge => { kind := k, port := port, timeout := 0, probation := 0 }
  | _ => { kind := k, port := port }

end Sys2Proof.Machine
end

