-- ==== Sys2Proof/Blocks/Ports.lean ====
section
/-! DEFINITION. The state of the ports, the headgates and the data flumes (spec 05, 06, 20). -/

namespace Sys2Proof.Machine

open Sys2Proof

/-- An edge code (R140) with the full stamp of its edge. -/
structure EdgeCode where
  stamp : T64
  count : BitVec 24
  line : BitVec 2
  level : Bool
  fell : Bool
  glitch : Bool
  illegal : Bool
deriving DecidableEq, Repr

/-- A CSI-2 packet as the PHY delivers it (R120 to R123). -/
structure CsiPacket where
  /-- Packet header as received: 4 bytes on D-PHY; on C-PHY each copy of it with its check value. -/
  header : List Bytes
  payload : Bytes := []
  crc : BitVec 16 := 0
  /-- Stamp of its burst, its byte offset there, and whether it is the first Frame Start or Line Start of the burst. -/
  burst : T64
  offset : Nat := 0
  first : Bool := true
deriving DecidableEq, Repr

/-- A received CAN frame (R142, R143): format 0 Classical, 1 FD, 2 XL. -/
structure CanFrame where
  format : Nat
  ext : Bool
  id : BitVec 29
  remote : Bool := false
  sdt : BitVec 8 := 0
  vcid : BitVec 8 := 0
  data : Bytes
deriving DecidableEq, Repr

/-- How one transaction of a configuration script ended (R146). -/
inductive StepResult where
  | ok
  | nack
  | stretchTimeout
  | read (data : Bytes)
deriving DecidableEq, Repr

/-- What the port reads from a CSI-2 packet header (R120, R122): data type, virtual channel, and the word count or the number of a short packet. -/
structure CsiHeader where
  dt : BitVec 6
  vc : Fin 16
  wc : BitVec 16
deriving DecidableEq, Repr

/-- An edge on a line of an encoder channel whose code is still to be issued (R141): whether a pulse was removed before it, and whether it
is one of a pair whose first code has been issued as ILLEGAL. -/
structure EncEdge where
  line : BitVec 2
  level : Bool
  stamp : T64
  glitch : Bool := false
  illegal : Bool := false
deriving DecidableEq, Repr

/-- What a CSI-2 packet is to its headgate (R120, R124). -/
inductive CsiItem where
  | frameStart (no : BitVec 16)
  | frameEnd (no : BitVec 16)
  | row (row : Nat) (dt : BitVec 6) (vc : BitVec 4) (embedded : Bool) (bytes : Bytes)
deriving DecidableEq, Repr

/-- An item that a port hands to a headgate (R117). -/
inductive Item where
  | frame (stamp : T64) (payload : Bytes) (crcBad : Bool)
  | csi (stamp : T64) (it : CsiItem) (crcBad : Bool)
  | sample (stamp : T64) (bytes : Bytes)
  | can (stamp : T64) (bytes : Bytes)
  | edge (code : EdgeCode)
deriving DecidableEq, Repr

/-- Stream states, coded in this order (R165). -/
inductive HgSt where
  | off | waiting | probation | active | gap | timedOut | resync | masked
deriving DecidableEq, Repr

/-- Bodies of the records (R153). -/
inductive RecBody where
  | frameMark (no : BitVec 64) (b : T64)
  | point (az elev : BitVec 16) (range : Word) (intensity : BitVec 16) (channel ret sflags : BitVec 8) (sector : BitVec 9)
  | depthPixel (column row : BitVec 16) (depth : Word) (confidence : BitVec 16)
  | pixelRow (row : BitVec 16) (dt : BitVec 6) (vc : BitVec 4) (embedded : Bool) (payload : Bytes)
  | scalar (ctr : Word) (age : Word) (values : List Word)
  | edge (code : EdgeCode)
  | sweepEnd (covered : BitVec 360) (part : Bool) (no : BitVec 8)
  | frameEnd (rows : BitVec 16) (complete : Bool) (no : BitVec 16)
  | state (new old : HgSt) (reason : BitVec 8)
deriving DecidableEq, Repr

/-- A record (R151); TOV and TOO are held in full, as their holder rebuilds them (R152). -/
structure Rec where
  hg : Fin 64
  epoch : BitVec 4 := 0
  conf : BitVec 8 := 0
  held : Bool := false
  filtered : Bool := false
  probation : Bool := false
  last : Bool := false
  tov : T64
  too : T64 := 0
  itemNo : BitVec 16 := 0
  body : RecBody
deriving DecidableEq, Repr

/-- What a headgate has ready for its data flume, in write order: a record, a point with the turns by which AZ_CORR carries it; the end of a sweep or of a frame, which is completed when it is
written (R153, R164); and three marks that write nothing: a loss that breaks the run, the opening of a unit, and the end of what one item
writes (`last`; false for records that come from no item). -/
inductive OutRec where
  | data (r : Rec) (turn : Int := 0)
  | sweepEnd (r : Rec) (forced : Bool)
  | frameEnd (r : Rec)
  | runBreak
  | unitOpen
  | itemEnd (last : Bool)
deriving DecidableEq, Repr

/-- One item in the filter windows of a SCALAR stream (R159): converted values, TOV and counter. -/
structure ScalarItem where
  values : List Word
  tov : T64
  ctr : Word
deriving DecidableEq, Repr

/-- The current run of a POINTS stream (R164): unwrapped azimuths in 2⁻¹⁶ turn and the start of the sweep. -/
structure Run where
  lo : Int
  hi : Int
  last : Int
  base : Int
deriving DecidableEq, Repr

/-- The records of one frame written into a data flume, for the frame digest (R93). -/
structure FlumeLog where
  frame : BitVec 64
  bytes : Bytes
deriving DecidableEq, Repr

/-- One headgate and its data flume. -/
structure Headgate where
  /-- HG_CFG once installed, the template it names and the device time of installation. -/
  cfg : Option HgCfg := none
  templ : Option Template := none
  installedAt : T64 := 0
  /-- Items that its port has handed over, oldest first. -/
  inbox : List Item := []
  /-- HG_STATE: STATE, the state before GAP, active reasons and the latest one (R165). -/
  st : HgSt := .off
  before : HgSt := .off
  reasons : List (BitVec 8) := []
  reason : BitVec 8 := 0
  epoch : BitVec 4 := 0
  conf : BitVec 8 := 0
  failRun : BitVec 8 := 0
  recoverRun : Nat := 0
  /-- PROBATION units passed in a row, and whether the open unit holds a failure. -/
  probCount : Nat := 0
  probBad : Bool := false
  itemNo : BitVec 16 := 0
  /-- Accepted epoch and sequence reference (R160). -/
  accEpoch : Option Nat := none
  seqRef : Option Nat := none
  /-- Pin stamp of the last accepted item; none before the first. -/
  lastStamp : Option T64 := none
  /-- STREAM_ABSENT has been raised. -/
  absent : Bool := false
  /-- Filter windows, newest first, and the last accepted item (R159, R161). -/
  window : List ScalarItem := []
  lastItem : Option ScalarItem := none
  /-- POINTS: azimuth of the last block before the next item, unit open, unit start owed to a rejected wrap, SWEEP_NO. -/
  prevAz : Option (BitVec 16) := none
  unitOpen : Bool := false
  owedStart : Bool := false
  sweepNo : BitVec 8 := 0
  /-- DEPTH and CAMERA: FRAME value, base of the frame, rows accepted; the open unit is whole so far; rows are dropped until a Frame Start. -/
  frameNo : Option Int := none
  frameBase : T64 := 0
  rows : BitVec 16 := 0
  whole : Bool := false
  awaitFs : Bool := false
  /-- Records ready to be written, oldest first. -/
  out : List OutRec := []
  /-- Greatest TOV written (R163); LAST_TOV. -/
  lastTov : Option T64 := none
  /-- Run and coverage of the open sweep (R164), the TOV of the last record written of the unit, whether a record of it was lost,
  and how many of its rows were LATE. -/
  run : Option Run := none
  covered : BitVec 360 := 0
  unitTov : Option T64 := none
  unitLost : Bool := false
  lateRows : Nat := 0
  /-- The latest record written of the item and marks after it, whose LAST bit is not yet known (R151). -/
  tail : List Rec := []
  /-- Frame of the latest FRAME_MARK (R152). -/
  marked : Option (BitVec 64) := none
  /-- Data flume: records visible to the reader, occupancy in bytes and frees to apply (R480). -/
  flume : List Rec := []
  occ : Nat := 0
  freed : Nat := 0
  full : Bool := false
  overrun : Bool := false
  levelAt : Option T64 := none
  /-- A drop runs (R482): the item it drops. -/
  drop : Option (BitVec 16) := none
  ueFrame : Option (BitVec 64) := none
  /-- Digest logs and mask changes of the latest frames (R93). -/
  logs : List FlumeLog := []
  maskLog : List (T64 × Bool) := []
  /-- Counters of R510, in order. -/
  checkFail : Word := 0
  parseFail : Word := 0
  staleId : Word := 0
  repeats : Word := 0
  resyncDrop : Word := 0
  timeReject : Word := 0
  rangeFail : Word := 0
  slewFail : Word := 0
  late : Word := 0
  rangeDrop : Word := 0
  lost : Word := 0
  flumeOverrun : Word := 0
  flumeUe : Word := 0
  levelCross : Word := 0
  accepted : Word := 0
deriving DecidableEq, Repr

/-- State of a configuration bus, coded in this order (R148, R511). -/
inductive BusSt where
  | idle | recovering | stuck | dead
deriving DecidableEq, Repr

/-- State of a CAN channel, coded in this order (R511). -/
inductive CanSt where
  | active | passive | busOff
deriving DecidableEq, Repr

/-- One CSI-2 receiver. -/
structure CsiPort where
  cfg : Option CsiCfg := none
  /-- Lanes in sync. -/
  inSync : Bool := false
  /-- Stamp of the latest Line Start with its row, and of the latest Frame Start, per virtual channel. -/
  lineStart : Vector (Option (Nat × T64)) 16 := Vector.replicate 16 none
  frameStart : Vector (Option T64) 16 := Vector.replicate 16 none
  /-- Rows received since the latest Frame Start, per virtual channel. -/
  rowNo : Vector Nat 16 := Vector.replicate 16 0
  /-- ECC_CORR, ECC_FAIL, NO_LS and UNCLAIMED (R511). -/
  eccCorr : Word := 0
  eccFail : Word := 0
  noLs : Word := 0
  unclaimed : Word := 0
deriving DecidableEq, Repr

/-- One Ethernet port, sensor (R125) or vehicle (R452). -/
structure EthPort where
  cfg : Option EthCfg := none
  link : Bool := false
  /-- Speed that auto-negotiation gave, Mbit/s. -/
  speed : Nat := 0
  /-- Reply frames sent: ARP replies and Neighbor Advertisements (R127), and the transmit stamp of a sensor port's latest one (R40, R51). -/
  replies : Word := 0
  txStamp : T64 := 0
  /-- FCS_ERR, OVERSIZE, FRAG and UNCLAIMED (R511). -/
  fcsErr : Word := 0
  oversize : Word := 0
  frag : Word := 0
  unclaimed : Word := 0
deriving DecidableEq, Repr

/-- One SPI IMU host. -/
structure SpiPort where
  cfg : Option SpiCfg := none
  /-- INIT still to run; its result. -/
  initDue : Bool := false
  initOk : Bool := false
  initFailed : Bool := false
  /-- Stamp of the running burst and of the pending one, and the end of the chip-select gap that the pending one waits for (R137). -/
  running : Option T64 := none
  waiting : Option T64 := none
  gapEnd : T64 := 0
  /-- Latest poll instant (R138). -/
  polled : T64 := 0
  /-- DRDY_OVERRUN and BURSTS (R511). -/
  drdyOverrun : Word := 0
  bursts : Word := 0
deriving DecidableEq, Repr

/-- One encoder channel. -/
structure EncPort where
  cfg : Option EncCfg := none
  /-- Levels of A, B and Z before the first edge of `pend`: as sampled at the end of enrolment, then as the issued codes left them (R139). -/
  a : Bool := false
  b : Bool := false
  z : Bool := false
  /-- Position count before the first edge of `pend`, S24 (R139). -/
  count : BitVec 24 := 0
  /-- Edges whose codes are not yet issued, oldest first (R141). -/
  pend : List EncEdge := []
  /-- A pulse was removed after the last of them. -/
  glitched : Bool := false
  /-- Count at the latest rising edge of Z. -/
  zCount : Option (BitVec 24) := none
  /-- GLITCH, ENC_ILLEGAL, ENC_INDEX and EDGES (R511). -/
  glitch : Word := 0
  encIllegal : Word := 0
  encIndex : Word := 0
  edges : Word := 0
deriving DecidableEq, Repr

/-- One CAN channel (R142 to R144, R461). -/
structure CanPort where
  cfg : Option CanCfg := none
  /-- State and error counters of the channel; counters of R511. -/
  st : CanSt := .active
  tec : BitVec 8 := 0
  rec_ : BitVec 8 := 0
  framesRx : Word := 0
  errorFrames : Word := 0
  busOffs : Word := 0
  unclaimed : Word := 0
deriving DecidableEq, Repr

/-- One I3C/I²C controller. -/
structure BusPort where
  cfg : Option BusCfg := none
  /-- State of the bus (R148). -/
  st : BusSt := .idle
  /-- Scripts that wait or run, oldest first; the step of the first and the tries of that step (R146). -/
  scripts : List Script := []
  step : Nat := 0
  tries : Nat := 0
  stepAt : T64 := 0
  /-- Recovery attempts since STUCK was first entered (R148). -/
  retries : Nat := 0
  stuckAt : T64 := 0
  /-- SCL pulses of the latest recovery (R147). -/
  pulses : Nat := 0
  /-- Dynamic addresses given to I3C targets (R145). -/
  addresses : List (BitVec 7) := []
  /-- SCRIPT_FAIL, NACKS, STRETCH_TIMEOUT, RECOVERIES and IBI_NACK (R511). -/
  scriptFail : Bool := false
  nacks : Word := 0
  stretchTimeouts : Word := 0
  recoveries : Word := 0
  ibiNack : Word := 0
deriving DecidableEq, Repr

/-- Every port island (R117). -/
structure Ports where
  csi : Vector CsiPort 8 := Vector.replicate 8 {}
  eth : Vector EthPort 8 := Vector.replicate 8 {}
  spi : Vector SpiPort 4 := Vector.replicate 4 {}
  enc : Vector EncPort 8 := Vector.replicate 8 {}
  can : Vector CanPort 4 := Vector.replicate 4 {}
  bus : Vector BusPort 2 := Vector.replicate 2 {}
deriving DecidableEq, Repr

end Sys2Proof.Machine
end

