-- ==== Sys2Proof/Sections/Pose.lean ====
section
/-! DEFINITION. The content of the POSE section (spec 08 R194 to R196, R212). Rational fields hold the value in SI units. -/

namespace Sys2Proof.Machine

open Sys2Proof

/-- One encoder entry (R195). -/
structure PlEnc where
  headgate : Fin 64
  right : Bool
  /-- MPC in units of 2⁻³² m. -/
  mpc : Word
deriving DecidableEq, Repr, Inhabited

/-- One IMU entry (R196, R197). -/
structure PlImu where
  headgate : Fin 64
  yawField : Fin 8
  fwdField : Fin 8
  latField : Fin 8
  /-- Mounting yaw in 2⁻¹⁶ turn. -/
  yaw : BitVec 16
  /-- Lever arm, Q15.16 m. -/
  leverX : Word
  leverY : Word
  /-- IMU_PERIOD in µs. -/
  periodUs : Nat
deriving DecidableEq, Repr, Inhabited

/-- PL_CFG (R212). -/
structure PlCfg where
  encs : List PlEnc := []
  imus : List PlImu := []
  /-- LAG, WHEEL_PERIOD, WHEEL_WIN, STILL_TIME in µs. -/
  lag : Nat := 100
  track : Rat := 0
  wheelPeriod : Nat := 1000
  wheelWin : Nat := 2000
  stillTime : Nat := 50000
  slipV : Rat := 15 / 100
  slipOmega : Rat := 10 / 100
  slipCount : Nat := 3
  slipClear : Nat := 20
  encTol : Rat := 5 / 100
  encTolAbs : Rat := 2 / 100
  imuTolOmega : Rat := 5 / 100
  imuTolAcc : Rat := 5 / 10
  imuCount : Nat := 5
  /-- MASK_HOLD in ms, EXTRAP_MAX and COAST_MAX in ms, IMU_ONLY_MAX in ms. -/
  maskHold : Nat := 1000
  extrapMax : Nat := 20
  coastMax : Nat := 100
  imuOnlyMax : Nat := 1000
  /-- GYRO_NOISE, ACC_NOISE, BG_WALK, BA_WALK, SCALE_WALK, WHEEL_V_NOISE, WHEEL_W_NOISE and ZUPT_NOISE in F32: 10⁻⁴, 10⁻³, 10⁻⁵, 10⁻⁴, 10⁻⁵, 0.01, 0.02, 0.001. -/
  gyroF32 : Word := 0x38D1B717
  accF32 : Word := 0x3A83126F
  bgF32 : Word := 0x3727C5AC
  baF32 : Word := 0x38D1B717
  scaleF32 : Word := 0x3727C5AC
  wheelVF32 : Word := 0x3C23D70A
  wheelWF32 : Word := 0x3CA3D70A
  zuptF32 : Word := 0x3A83126F
deriving DecidableEq, Repr, Inhabited

end Sys2Proof.Machine
end

