-- ==== Sys2Proof/Blocks/Pose.lean ====
section
/-! DEFINITION. The state of the Pose Ladder (spec 08_pose_ladder). -/

namespace Sys2Proof.Machine

open Sys2Proof

/-- Modes of the Pose Ladder, coded in this order (R205, R206). -/
inductive PlMode where
  | init | full | slip | imuOnly | wheelOnly | coast | lost
deriving DecidableEq, Repr

/-- The pose record (R206); VERSION is 1 and the CRC is computed from the other bytes. -/
structure PoseRec where
  valid : Bool := false
  extrap : Bool := false
  still : Bool := false
  mode : PlMode := .init
  /-- 0 OK, 1 TOO_OLD, 2 TOO_NEW, 3 EVICTED. -/
  status : BitVec 2 := 0
  primary : BitVec 2 := 0
  encUsed : BitVec 8 := 0
  imuUsed : BitVec 4 := 0
  tov : T64 := 0
  x : BitVec 64 := 0
  y : BitVec 64 := 0
  heading : Word := 0
  v : Word := 0
  omega : Word := 0
  acc : Word := 0
  span : Word := 0
  sdV : BitVec 16 := 0
  sdOmega : BitVec 16 := 0
  sdRelPos : BitVec 16 := 0
  sdRelHead : BitVec 16 := 0
deriving DecidableEq, Repr, Inhabited

/-- One IMU entry's state (R203). -/
structure PlImuSt where
  /-- Stream state by its latest STATE record. -/
  st : HgSt := .waiting
  /-- Latest sample: TOV, yaw rate and forward acceleration at the reference point. -/
  sample : Option (T64 × Rat × Rat) := none
  /-- Bias estimates and bias covariance held when it was last primary. -/
  bias : Option (Rat × Rat) := none
  biasCov : Option (Rat × Rat × Rat) := none
  /-- Deviation count and instant of a mask (R203). -/
  dev : Nat := 0
  maskedAt : Option T64 := none
  /-- Yaw rates since the previous wheel update instant: sum and count. -/
  sum : Rat := 0
  count : Nat := 0
deriving DecidableEq, Repr

/-- One encoder entry's state (R201, R204). -/
structure PlEncSt where
  st : HgSt := .waiting
  /-- Legal edges of lines A and B, newest first. -/
  edges : List EdgeCode := []
  /-- Speed at the previous wheel update instant, no edge since then, frames of deviation, and instant of a mask (R201, R202, R204). -/
  prev : Rat := 0
  still : Bool := true
  dev : Nat := 0
  maskedAt : Option T64 := none
deriving DecidableEq, Repr

/-- An input of the estimator in TOV order (R200). -/
inductive PlInput where
  | enc (i : Nat) (code : EdgeCode)
  | imu (i : Nat) (omega acc : Rat)
  | state (isImu : Bool) (i : Nat) (st : HgSt)
deriving DecidableEq, Repr

/-- The Pose Ladder. -/
structure PoseLadder where
  cfg : PlCfg := {}
  installed : Bool := false
  /-- S1 has been entered: the first rung, in whole µs. -/
  start : Option Nat := none
  /-- The next rung to write, in whole µs; none before S1 entry. -/
  nextK : Option Nat := none
  /-- The ladder, newest rung first, at most 131,072 rungs (R199). -/
  ladder : List PoseRec := []
  /-- Records read from the flumes, in order of arrival. -/
  inbox : List Rec := []
  /-- Inputs not yet processed, with their TOV. -/
  inputs : List (T64 × PlInput) := []
  /-- IMU and encoder entries of the POSE section (R194). -/
  imus : Vector PlImuSt 4 := Vector.replicate 4 {}
  encs : Vector PlEncSt 8 := Vector.replicate 8 {}
  /-- Index of the primary IMU entry (R203). -/
  primary : Option (Fin 4) := none
  /-- Nominal state (R200): X, Y in L64 LSB, heading, and the rates, biases and scale factors. -/
  x : Int := 0
  y : Int := 0
  psi : Word := 0
  v : Rat := 0
  omega : Rat := 0
  a : Rat := 0
  bg : Rat := 0
  ba : Rat := 0
  sL : Rat := 0
  sR : Rat := 0
  /-- Covariance in scaled units (R200, R550), multiples of 2⁻¹⁶. -/
  p : List (List Rat) := []
  /-- Time of the state, of the latest primary sample, of the latest applied wheel update with its change of v_w per second and its ω_w. -/
  at_ : T64 := 0
  lastPrimary : Option T64 := none
  wheelRef : Option (T64 × Rat × Rat) := none
  /-- Mean wheel speed of the update before; mode and the runs of R202 and R205; still; channels used. -/
  prevVw : Rat := 0
  mode : PlMode := .init
  slipRun : Nat := 0
  clearCount : BitVec 8 := 0
  still : Bool := false
  encUsed : BitVec 8 := 0
  /-- Start of the continuous time in SLIP and IMU_ONLY, and of COAST. -/
  imuOnlyAt : Option T64 := none
  coastAt : Option T64 := none
  /-- A lockstep mismatch has stopped all delivery (R192). -/
  dead : Bool := false
  /-- Latest live record (R211) and the answers that left each query port last, oldest first (R207, R209). -/
  live : PoseRec := {}
  answers : Vector (List PoseRec) 8 := Vector.replicate 8 []
  /-- Queries of each port whose head is not visible yet, oldest first: target time, as-of time and device time of issue (R207). -/
  waiting : Vector (List (T64 × T64 × T64)) 8 := Vector.replicate 8 []
  /-- Times of the records that a fault on their way to a consumer makes fail their CRC (R206): set from outside. -/
  badCrc : List T64 := []
  /-- The rung for which PL_RUNG_LATE has been raised (R420). -/
  lateK : Option Nat := none
  /-- PL_BEHIND, PL_SAT, PL_EVICTED, IMU_REJECT, ENC_REJECT (R512). -/
  behind : Word := 0
  sat : Word := 0
  evicted : Word := 0
  imuReject : Word := 0
  encReject : Word := 0
deriving DecidableEq, Repr

end Sys2Proof.Machine
end

