-- ==== Sys2Proof/Blocks/Memory.lean ====
section
/-! DEFINITION. The Cistern, the TE local buffers and LPDDR5X (spec 20_memory_and_flumes R467 to R478). -/

namespace Sys2Proof.Machine

open Sys2Proof

/-- KIND of a region of LPDDR5X (R474). -/
inductive DramKind where
  | general | slots | capture
deriving DecidableEq, Repr, Inhabited

/-- MEM_CFG.REGION[r] (R474), in bytes. -/
structure DramRegion where
  kind : DramKind
  base : Nat
  bytes : Nat
deriving DecidableEq, Repr, Inhabited

/-- MEM_CFG (R474): RATE in MT/s, CAPACITY in GB for each interface, SCRUB_PERIOD in hours. -/
structure MemCfg where
  rate : Nat := 8533
  capacity : Nat := 2
  if1 : Bool := true
  scrubPeriod : Nat := 4
  regions : List DramRegion := []
deriving DecidableEq, Repr, Inhabited

/-- An addressed memory: LOCAL is the local buffer of one engine (R276), CISTERN and LPDDR5X are shared. -/
inductive Space where
  | cistern
  | loc (t : Fin 4)
  | dram
deriving DecidableEq, Repr, Inhabited

/-- A place in memory: space and byte address. -/
structure Place where
  space : Space
  addr : Nat
deriving DecidableEq, Repr, Inhabited

/-- The places of a tensor that is double-buffered by frame parity (R267). -/
structure ParityPlace where
  even : Place := ⟨.cistern, 0⟩
  odd : Place := ⟨.cistern, 0⟩
deriving DecidableEq, Repr, Inhabited

/-- The ports that address a Cistern bank, in the order of R468: TE0 to TE3, PCU, PAU, Tracker, QSA, Weir, output assembly, BCC, observation. -/
abbrev CisternPort := Fin 12

/-- One request of a port: a read of `len` bytes or a write of `data`. -/
structure CisternReq where
  port : CisternPort
  addr : Nat
  len : Nat
  data : Option Bytes
deriving DecidableEq, Repr

/-- What the ECC decoder finds (R470, R472, R473). -/
inductive EccFind where
  | clean | corrected | uncorrectable
deriving DecidableEq, Repr

/-- The addressed memories. Each list holds address and byte pairs in rising order of address; an unlisted address reads 0. -/
structure Memory where
  /-- Cistern, local buffers and LPDDR5X (R467, R276, R474). -/
  cistern : List Host.Cell := []
  local_ : Vector (List Host.Cell) 4 := Vector.replicate 4 []
  dram : List Host.Cell := []
  /-- Poisoned 8-byte words, by address / 8, of the Cistern and of LPDDR5X (R472, R473, R476). -/
  cisternBad : List Nat := []
  dramBad : List Nat := []
  /-- MEM_CFG. -/
  cfg : MemCfg := {}
  /-- Cistern regions that the installed sections name (R469): base and bytes. -/
  regions : List (Nat × Nat) := []
  /-- Port served last by each bank (R468). -/
  served : Vector CisternPort 64 := Vector.replicate 64 11
  /-- Data of the latest read that each port received. -/
  readData : Vector Bytes 12 := Vector.replicate 12 []
  /-- Next line of each bank's patrol scrub, and when it was read (R471). -/
  scrubLine : Vector (BitVec 15) 64 := Vector.replicate 64 0
  scrubAt : Vector T64 64 := Vector.replicate 64 0
  /-- Next byte address of the LPDDR5X patrol scrub, and when the one before was read (R476). -/
  dramScrub : Nat := 0
  dramScrubAt : T64 := 0
  /-- LPDDR5X: trained, failed attempts, training given up (R476). -/
  trained : Bool := false
  trainFails : Nat := 0
  /-- CISTERN_CE, CISTERN_UE and CISTERN_UE_FREE (R518). -/
  cisternCe : Word := 0
  cisternUe : Word := 0
  cisternUeFree : Word := 0
  /-- Whole passes of the scrubs (R518). -/
  cisternScrubs : Word := 0
  dramScrubs : Word := 0
  /-- DRAM_CE and DRAM_UE. -/
  dramCe : Word := 0
  dramUe : Word := 0
deriving DecidableEq, Repr

end Sys2Proof.Machine
end

