-- ==== Sys2Proof/Blocks/Qsa.lean ====
section
/-! DEFINITION. The QP Solver Array (spec 15_qp_solver_array). -/

namespace Sys2Proof.Machine

open Sys2Proof

/-- An output row (R377): terms of variable index and coefficient, and the parameter that offsets it. -/
structure OutRow where
  terms : List (Nat × Word) := []
  offset : Option Nat := none
deriving DecidableEq, Repr, Inhabited

/-- A resident structure (R360). -/
structure QpStruct where
  version : Nat := 1
  n : Nat
  me : Nat
  mi : Nat
  /-- Patterns as (row, column) pairs, H in its upper triangle. -/
  hPat : List (Nat × Nat)
  aPat : List (Nat × Nat)
  cPat : List (Nat × Nat)
  nParam : Nat
  order : List Nat
  base : List Word
  outDt : Nat := 100
  rows : List OutRow := []
  /-- KK, KL, KF and KW as the header gives them. -/
  kk : Nat := 0
  kl : Nat := 0
  kf : Nat := 0
  kw : Nat := 0
deriving DecidableEq, Repr, Inhabited

/-- SOURCE of a live term (R371). -/
inductive LiveSrc where
  | v | omega | acc
deriving DecidableEq, Repr

/-- QSA_CFG (R383). Times in µs; thresholds in F32. -/
structure QsaCfg where
  assembly : Bool := false
  candidates : Nat := 64
  iterMax : Nat := 25
  epsP : Word := 0x3727C5AC
  epsD : Word := 0x3727C5AC
  epsG : Word := 0x358637BD
  divLimit : Word := 0x53800000
  tauExp : Nat := 20
  deltaExp : Nat := 14
  refineMax : Nat := 3
  refineTol : Word := 0x35800000
  lead : Nat := 1000
  vMax : Rat := 3 / 2
  kappaMax : Rat := 2
  stopDecel : Rat := 1 / 2
  alignLane : Fin 64 := 63
  live : List (Nat × LiveSrc × Word) := []
  feedBase : Nat := 0
  feedBytes : Nat := 1048576
  resultBase : Nat := 0
  workBase : Nat := 0
  structBase : Nat := 0
  structs : Vector (Option QpStruct) 8 := Vector.replicate 8 none
deriving DecidableEq, Repr, Inhabited

/-- STATUS of a solve (R367), coded in this order. -/
inductive SolveStatus where
  | converged | maxIter | diverged | nonconvex | numeric | badInput | aborted | notRun
deriving DecidableEq, Repr

/-- A solve result (R369). -/
structure SolveResult where
  status : SolveStatus := .notRun
  iter : Nat := 0
  tiny : Bool := false
  zero : Bool := false
  refineFail : Bool := false
  inertia : Bool := false
  flags : BitVec 8 := 0
  pivots : Nat := 0
  firstPivot : Nat := 255
  maxRefine : Nat := 0
  objective : Word := 0
  resP : Word := 0
  resD : Word := 0
  mu : Word := 0
  x : List Word := []
  y : List Word := []
  z : List Word := []
deriving DecidableEq, Repr

/-- The motion command (R379). -/
structure MotionCmd where
  valid : Bool := false
  stop : Bool := false
  noFeed : Bool := false
  lane : BitVec 6 := 0
  stage : BitVec 2 := 0
  cls : BitVec 3 := 0
  pair : BitVec 4 := 0
  batch : Word := 0
  tov : T64 := 0
  aoc : Word := 0
  frame : Word := 0
  eligible : BitVec 7 := 0
  objective : Word := 0
  /-- SPEED and CURV of the eight steps. -/
  steps : List (Word × Word) := List.replicate 8 (0, 0)
  digest : Bytes := List.replicate 16 0
  /-- BN of the feed frame, which the Guard uses as a basis time (R400); none where no feed frame exists. It is no field of the record. -/
  feedB : Option T64 := none
deriving DecidableEq, Repr

/-- The QP that the PAU sends (R235): variables, H, g and the bounds of each, in F32. -/
structure AlignQp where
  n : Nat
  h : List (List Word)
  g : List Word
  lo : List Word
  hi : List Word
deriving DecidableEq, Repr

/-- The QSA. -/
structure Qsa where
  cfg : QsaCfg := {}
  installed : Bool := false
  /-- Results of the latest batch, lane by lane, and of the latest alignment solve (R369). -/
  results : Vector SolveResult 64 := Vector.replicate 64 {}
  alignResult : SolveResult := {}
  /-- Count of the latest batch. -/
  batch : Word := 0
  /-- The motion command in force, and whether one has been written (R379). -/
  cmd : MotionCmd := {}
  written : Bool := false
  /-- Counters of R514, in order. -/
  badDelta : Word := 0
  clamp : Word := 0
  noFeasible : Word := 0
  numeric : Word := 0
  feedBad : Word := 0
deriving DecidableEq, Repr

end Sys2Proof.Machine
end

