-- ==== Sys2Proof/Sections/Pau.lean ====
section
/-! DEFINITION. The sensor geometry of the CHANNEL_B section and the content of the PAU section (spec 09 R215 to R217, R228 to R239). -/

namespace Sys2Proof.Machine

open Sys2Proof

/-- An extrinsic (R215): angles in 2⁻³² turn, translation in Q15.16 m. -/
structure Extrinsic where
  roll : Word := 0
  pitch : Word := 0
  yaw : Word := 0
  x : Word := 0
  y : Word := 0
  z : Word := 0
deriving DecidableEq, Repr, Inhabited

/-- What a range sensor and a camera share (R216, R217): DT_NOM in ticks, bounds in mrad, mm and µs. -/
structure Geometry where
  hg : Fin 64
  ext : Extrinsic := {}
  dtNom : Int := 0
  rotBound : Rat := 17453293 / 1000000
  transBound : Rat := 20
  dtBound : Rat := 1000
deriving DecidableEq, Repr, Inhabited

/-- PAU_RS[s] (R216). -/
structure RsCfg where
  geo : Geometry
  /-- ASOF in µs. -/
  asof : Nat := 0
  /-- PIPE; none takes the default, s mod 4. -/
  pipe : Option (Fin 4) := none
  cams : List (Fin 16) := []
  fx : Word := 0x3F800000
  fy : Word := 0x3F800000
  cx : Word := 0
  cy : Word := 0
  radial : Bool := false
deriving DecidableEq, Repr, Inhabited

/-- PAU_CAM[c] (R217); the image height is the ROWS of its headgate. -/
structure CamCfg where
  geo : Geometry
  fx : Word
  fy : Word
  cx : Word
  cy : Word
  k1 : Word := 0
  k2 : Word := 0
  k3 : Word := 0
  p1 : Word := 0
  p2 : Word := 0
  /-- EXP_FIELD of EMBEDDED: offset, type, byte order, SCALE and BIAS of R131. -/
  embedded : Option (Nat × Nat × Bool × Word × Word) := none
  /-- EXPOSURE in µs, MAX_DT in ms. -/
  exposure : Nat := 5000
  maxDt : Nat := 10
  zcell : Nat := 4
deriving DecidableEq, Repr, Inhabited

/-- PAU_CFG (R228 to R239); lengths in metres, angles in mrad, alignment translations in mm, times in µs. -/
structure PauCfg where
  cams : Vector (Option CamCfg) 16 := Vector.replicate 16 none
  /-- The section restates a PAU_RS field (R216). -/
  restates : Bool := false
  pending : Nat := 262144
  zTolAbs : Rat := 1 / 10
  zTolRel : Rat := 2 / 100
  edgeJump : Rat := 3 / 10
  search : Nat := 4
  outlierPx : Rat := 3
  gRef : Rat := 256
  planeVoxel : Rat := 1 / 4
  planeMin : Nat := 8
  planarity : Rat := 5 / 100
  outlierM : Rat := 1 / 10
  /-- ANCHOR and ALIGN_SET: range sensor s is s, camera c is 8 + c. -/
  anchor : Fin 24 := 0
  alignSet : List (Fin 24) := []
  alignFrames : Nat := 64
  damp : Rat := 1 / 10
  minInfo : Rat := 1 / 100
  pushMin : Word := 0x38D1B717
  convRot : Rat := 87266 / 1000000
  convTrans : Rat := 1 / 2
  convDt : Rat := 5
  misCount : Nat := 2
  /-- MIS_HOLD in seconds. -/
  misHold : Nat := 10
  misLimit : Nat := 3
  stepRot : Rat := 872665 / 1000000
  stepTrans : Rat := 2
  stepDt : Rat := 20
deriving DecidableEq, Repr, Inhabited

/-- The pipe of range sensor s (R216). -/
def RsCfg.pipeOf (c : RsCfg) (s : Fin 8) : Fin 4 :=
  match c.pipe with | some p => p | none => ⟨s.val % 4, Nat.mod_lt _ (by decide)⟩

end Sys2Proof.Machine
end

