-- ==== Sys2Proof/Blocks/Pau.lean ====
section
/-! DEFINITION. The state of the Projection and Alignment Unit (spec 09_projection_and_alignment). -/

namespace Sys2Proof.Machine

open Sys2Proof

/-- The refinement of one sensor from its nominal values (R234): mrad, mm and µs. -/
structure Deviation where
  roll : Rat := 0
  pitch : Rat := 0
  yaw : Rat := 0
  x : Rat := 0
  y : Rat := 0
  z : Rat := 0
  dt : Rat := 0
deriving DecidableEq, Repr, Inhabited

/-- An extrinsic set (R223). -/
structure ExtSet where
  seq : Word := 0
  dev : Vector Deviation 24 := Vector.replicate 24 {}
deriving DecidableEq, Repr

/-- States of a sensor's alignment (R237), coded in this order (R238). -/
inductive AlignSt where
  | nominal | converging | converged | misaligned | held | fixed
deriving DecidableEq, Repr

/-- One sensor's alignment (R237, R238). -/
structure AlignEntry where
  st : AlignSt := .nominal
  masks : Nat := 0
  steps : BitVec 16 := 0
  /-- Consecutive applied steps within tolerance, and consecutive pushed steps. -/
  calm : Nat := 0
  pushed : Nat := 0
  /-- Parameters return to nominal in the next set; instant of a MISALIGNED mask; SD_ROT, SD_TRANS and RESIDUALS (R238). -/
  resetDue : Bool := false
  maskedAt : Option T64 := none
  sdRot : BitVec 16 := 0
  sdTrans : BitVec 16 := 0
  residuals : BitVec 16 := 0
deriving DecidableEq, Repr

/-- A record in the queue of a compensation pipe: its sensor, and whether it has waited for a pose (R222, R224). -/
structure PipeItem where
  r : Rec
  sensor : Fin 8
  waited : Bool := false
deriving DecidableEq, Repr

/-- What the pipe has computed of a point (R221, R230). Azimuth and channel order the edge scan (R232). -/
structure Core where
  frame : BitVec 64
  sensor : Fin 8
  hg : Fin 64
  sector : BitVec 9
  extrap : Bool
  depth : Bool
  probation : Bool
  conf : BitVec 8
  tov : T64
  /-- t' = TOV + DT (R220). -/
  at_ : T64
  x : Word
  y : Word
  z : Word
  range : Word
  intensity : BitVec 16
  sflags : BitVec 8
  channel : BitVec 8
  line : Nat
  along : Nat
  /-- Displacement and turn from the reference pose to the pose answer, and its V and ω (R221). -/
  dx : Int
  dy : Int
  dpsi : Word
  v : Word
  omega : Word
deriving DecidableEq, Repr

/-- A projection that fell into an image (R227). -/
structure Projection where
  /-- u and v of the last projection in F32. -/
  u : Word
  v : Word
  col : Nat
  row : Nat
  p0 : BitVec 16
  p1 : BitVec 16
  dtCam : BitVec 16
  cz : Word
  bits : Nat
  /-- The point in the vehicle frame at the row's pose, and that pose's V and ω. -/
  px : Word
  py : Word
  bpsi : Word
  bv : Word
  bomega : Word
deriving DecidableEq, Repr

/-- What is known of a camera slot; `visible` once the close pass has judged occlusion (R229). -/
inductive SlotSt where
  | waiting
  /-- OUT, with DT_CAM of the last row that was tried (R227). -/
  | out (dtCam : BitVec 16)
  | missing
  | projected (p : Projection)
  | visible (p : Projection)
  | occluded (p : Projection)
deriving DecidableEq, Repr

/-- A point in the decoration path, in the flume order of its headgate. -/
structure Point where
  core : Core
  slots : List (Fin 16 × SlotSt)
deriving DecidableEq, Repr

/-- One image of a camera (R225 to R228). -/
structure Image where
  cam : Fin 16
  /-- Frame of row 0 and rows: number, TOV, data type and payload. -/
  frame : Option (BitVec 64) := none
  rows : List (Nat × T64 × BitVec 6 × Bytes) := []
  /-- Embedded rows written before row 0. -/
  embedded : List Bytes := []
  /-- Its FRAME_END has been read. -/
  ended : Bool := false
deriving DecidableEq, Repr

/-- The frame's points as the close pass hands them to the PCU, in assembly order (R229, R247). -/
structure Handed where
  frame : BitVec 64
  points : List Point
deriving DecidableEq, Repr

/-- Something that Channel B's input takes: a compensated core or a forwarded record (R224, R479). -/
inductive CbIn where
  | hit (c : Core)
  | mark (r : Rec) (sensor : Fin 8)
deriving DecidableEq, Repr

/-- A closed window's problem (R235): parameters as (sensor, component), the bound constraints, and its frame. -/
structure AlignWork where
  frame : BitVec 64
  params : List (Fin 24 × Fin 7)
  qp : AlignQp
  /-- The result, once the QSA has solved it. -/
  solved : Option SolveResult := none
  /-- Per parameter: is its lower, its upper inequality a bound constraint. -/
  bounds : List (Bool × Bool)
deriving DecidableEq, Repr

/-- The PAU. -/
structure Pau where
  /-- PAU_RS, PAU_CAM and PAU settings of the image (R216, R217, R228 to R239). -/
  rs : Vector (Option RsCfg) 8 := Vector.replicate 8 none
  cfg : PauCfg := {}
  installed : Bool := false
  /-- Reference pose of the latest frames, newest first; none for a frame without one (R219, R222). -/
  refs : List (BitVec 64 × Option PoseRec) := []
  /-- Sets with the first frame each governs, newest first (R223, R236). -/
  sets : List (BitVec 64 × ExtSet) := [(0, {})]
  /-- Queues of the four compensation pipes (R220, R224). -/
  pipes : Vector (List PipeItem) 4 := Vector.replicate 4 []
  /-- Items one of whose pose answers carried MODE LOST (R482). -/
  lostItem : List (Fin 64 × BitVec 16) := []
  /-- Points of the frames not yet handed over. -/
  points : List Point := []
  /-- Images of the cameras in the store (R225 to R228). -/
  images : List Image := []
  /-- Camera streams MASKED (R228), by headgate. -/
  masked : BitVec 64 := 0
  /-- Latest SWEEP_END and FRAME_END records of each range sensor, newest first (R253). -/
  marks : Vector (List Rec) 8 := Vector.replicate 8 []
  /-- States of the headgates at the close of the latest frames, newest first (R253). -/
  closeSt : List (BitVec 64 × Vector HgSt 64) := []
  /-- Frames whose close has been signalled and whose close pass is to run (R245). -/
  closing : List (BitVec 64) := []
  /-- The latest frame whose close pass has run. -/
  closed : Option (BitVec 64) := none
  /-- Hand-over store by frame parity (R267, R269). -/
  handed : Vector (Option Handed) 2 := Vector.replicate 2 none
  /-- Normal matrix and vector in units of 2⁻²⁴, and residuals per sensor, of the open window (R234). -/
  h : List (List Int) := []
  g : List Int := []
  counts : Vector Nat 24 := Vector.replicate 24 0
  /-- The problem of the latest closed window (R235). -/
  work : Option AlignWork := none
  /-- Alignment of each range sensor and camera (R237, R238). -/
  entries : Vector AlignEntry 24 := Vector.replicate 24 {}
  /-- Counters of R512, in order. -/
  sat : Word := 0
  noPose : Word := 0
  poseWait : Word := 0
  expFallback : Word := 0
  decorOverrun : Word := 0
  alignSteps : Word := 0
  alignFails : Word := 0
deriving DecidableEq, Repr

end Sys2Proof.Machine
end

