-- ==== Sys2Proof/Sections/Guard.lean ====
section
/-! DEFINITION. The content of the CHANNEL_B, GUARD, SAFETY and QANAT sections (spec 16 R391, R404; spec 17 R427; spec 18 R444). Lengths are in millimetres or centimetres and speeds in mm/s, as each field says. -/

namespace Sys2Proof.Machine

open Sys2Proof

/-- CB_CFG (R391); a field without a default starts at 0. -/
structure CbCfg where
  /-- CELL in cm. -/
  cell : Nat := 20
  size : Nat := 256
  /-- Z_LO, Z_HI in mm. -/
  zLo : Int := 50
  zHi : Int := 2200
  /-- HOLD, SEEN_AGE in ms. -/
  hold : Nat := 500
  seenAge : Nat := 200
  /-- CLR_MARGIN, CLEAR_MAX in mm. -/
  clrMargin : Nat := 300
  clearMax : Nat := 8000
  kbins : Nat := 17
  /-- KAPPA_SPAN in thousandths of 1/m. -/
  kappaSpan : Nat := 2000
  /-- FRONT, REAR, HALF_WIDTH, SIDE_MARGIN in mm. -/
  front : Nat := 0
  rear : Nat := 0
  halfWidth : Nat := 0
  sideMargin : Nat := 100
  /-- TABLE_PERIOD in µs. -/
  tablePeriod : Nat := 500
  /-- D_STEP in mm. -/
  dStep : Nat := 25
  /-- SPEED_TABLE[0–255], mm/s. -/
  speedTable : List Nat := []
deriving DecidableEq, Repr, Inhabited

/-- GUARD_CFG and WEIR_CFG (R404). -/
structure GuardCfg where
  vCap : Nat := 1500
  vRevCap : Nat := 300
  s2Cap : Nat := 800
  kWidth : Nat := 2
  /-- CMD_MAX_AGE, A_MAX_AGE in ms. -/
  cmdMaxAge : Nat := 20
  aMaxAge : Nat := 60
  sumSize : Nat := 64
  sumBase : Nat := 0
  /-- ENV_EXTRA, MARGIN in mm. -/
  envExtra : Nat := 500
  cellMin : Nat := 1
  margin : Nat := 500
  c2Count : Nat := 3
  clearFrames : Nat := 4
deriving DecidableEq, Repr, Inhabited

/-- SAFE_CFG (R404, R427) and the class table of R406. -/
structure SafeCfg where
  reducedCap : Nat := 300
  degradedCap : Nat := 500
  timingC2 : Nat := 3
  c2Rearm : Bool := false
  c2Clear : Nat := 50
  c2RearmMax : Nat := 3
  /-- ST_OFFSET in µs. -/
  stOffset : Nat := 1000
  classTable : BitVec 16384 := 0
deriving DecidableEq, Repr, Inhabited

/-- QANAT_CFG (R444). -/
structure QanatCfg where
  twin : Bool := true
  /-- LINK_TIMEOUT, ALIVE_TIMEOUT in µs. -/
  linkTimeout : Nat := 8
  aliveTimeout : Nat := 4
  /-- WITNESS_TIMEOUT in ms. -/
  witnessTimeout : Nat := 30
  /-- XC_SKEW in µs. -/
  xcSkew : Nat := 10
  xcWait : Nat := 2
  xcMiss : Nat := 4
  xcFail : Nat := 2
  xcGridBits : Nat := 16
  xcFreeMm : Nat := 150
  xcTracks : Bool := true
  xcTrackCm : Nat := 50
  xcTrackDiff : Nat := 2
deriving DecidableEq, Repr, Inhabited

end Sys2Proof.Machine
end

