-- ==== Sys2Proof/Blocks/Guard.lean ====
section
/-! DEFINITION. The state of Channel B, the Weir and the Guard Engine (spec 16_guard_channel_b_and_weir). -/

namespace Sys2Proof.Machine

open Sys2Proof

/-- LAST_HIT and LAST_SEEN of a cell (R385): milliseconds modulo 65,536, or NEVER = 0xFFFF. -/
structure CellTimes where
  hit : BitVec 16 := 0xFFFF
  seen : BitVec 16 := 0xFFFF
deriving DecidableEq, Repr, Inhabited

/-- The occupancy grid: the cell times by storage place (i mod SIZE) × SIZE + (j mod SIZE), in rising order; an unlisted cell
holds NEVER twice. -/
structure Grid where
  cells : List (Nat × CellTimes) := []
  /-- Cell on which the window is centred. -/
  ci : Int := 0
  cj : Int := 0
deriving DecidableEq, Repr, Inhabited

/-- What Channel B keeps of one sensor sector in the current sweep (R387): h² (none without a hit) and T_σ. -/
structure SectorAcc where
  sector : Nat
  h2 : Option Nat
  tov : T64
deriving DecidableEq, Repr

/-- The stopping-distance table (R390). -/
structure StopTable where
  valid : Bool := false
  kbins : Nat := 0
  t : T64 := 0
  x : BitVec 64 := 0
  y : BitVec 64 := 0
  heading : Word := 0
  /-- FREE_F and FREE_R of each bin, mm. -/
  entries : List (Nat × Nat) := []
deriving DecidableEq, Repr, Inhabited

/-- The grid at a frame boundary (R388, R450). -/
structure GridSnap where
  frame : BitVec 64
  t : T64
  grid : Grid
deriving DecidableEq, Repr

/-- Channel B (R384 to R390). -/
structure ChannelB where
  cfg : CbCfg := {}
  installed : Bool := false
  /-- Cores and forwarded records at the input crossing, oldest first. -/
  input : List CbIn := []
  /-- The occupancy grid (R385). -/
  grid : Grid := {}
  /-- Next storage place of the scrub. -/
  scrubAt : Nat := 0
  /-- Current sweep of each range sensor, and its stream's state by the forwarded STATE records. -/
  sweep : Vector (List SectorAcc) 8 := Vector.replicate 8 []
  streams : Vector HgSt 8 := Vector.replicate 8 .off
  /-- The table in computation, computed from its start instant. -/
  building : Option StopTable := none
  /-- Start instant of the latest table found later than 150 µs (R420), and the latest start skipped (R390). -/
  lateAt : Option T64 := none
  skipAt : Option T64 := none
  /-- The table in the Guard Engine's double buffer. -/
  table : StopTable := {}
  /-- The latest tables swapped, newest first (R442). -/
  recent : List StopTable := []
  /-- The grid at the latest frame boundaries, newest first. -/
  snaps : List GridSnap := []
  /-- Counters of R515, in order. -/
  sat : Word := 0
  out : Word := 0
  tableLate : Word := 0
  ecc : Word := 0
  tables : Word := 0
deriving DecidableEq, Repr

/-- Verdicts of the Weir (R394), coded in this order (R515). -/
inductive Verdict where
  | agree | mismatch | conflict | noSummary
deriving DecidableEq, Repr, Inhabited

/-- The free-space summary as the Weir swaps it to the Guard (R393). -/
structure Summary where
  valid : Bool := false
  frame : Word := 0
  bn : T64 := 0
  x : BitVec 64 := 0
  y : BitVec 64 := 0
  heading : Word := 0
  /-- FREE_F[i] and FREE_R[i], mm. -/
  free : List (Nat × Nat) := []
deriving DecidableEq, Repr, Inhabited

/-- The Weir. -/
structure Weir where
  /-- Latest verdict, none before the first. -/
  verdict : Option Verdict := none
  /-- HOLD and the runs of R395. -/
  hold : Bool := false
  conflictRun : BitVec 8 := 0
  clearRun : BitVec 8 := 0
  /-- DATA of the latest verdict's event. -/
  data : Word := 0
  /-- Summary in the Guard's double buffer. -/
  summary : Summary := {}
  /-- Verdict given since the latest frame boundary (R409). -/
  given : Option Verdict := none
  /-- Frame whose verdict is the latest. -/
  frame : Option (BitVec 64) := none
deriving DecidableEq, Repr

/-- LIMIT of a guard word (R400), coded in this order. -/
inductive Limit where
  | table | summary | cap | degradedCap | noPose | noTable | invalid
deriving DecidableEq, Repr

/-- The guard word (R400); VERSION is 1 and AUX is computed from the word of its rotation. -/
structure GuardWord where
  valid : Bool := false
  crossChecked : Bool := false
  stage : BitVec 2 := 0
  cls : BitVec 3 := 0
  pair : BitVec 4 := 0
  limit : Limit := .table
  cmdUsed : Bool := false
  aUsed : Bool := false
  hold : Bool := false
  k : BitVec 64 := 0
  vFwd : BitVec 16 := 0
  vRev : BitVec 16 := 0
  kappaLo : BitVec 16 := 0
  kappaHi : BitVec 16 := 0
  aoc : BitVec 16 := 0
  heading : BitVec 16 := 0
  x : Word := 0
  y : Word := 0
  aux : Word := 0
  map : Bytes := List.replicate 16 0
  digest : Bytes := List.replicate 16 0
deriving DecidableEq, Repr, Inhabited

/-- A frame on GP0 or GP1 (R402): its 40 bytes. -/
structure PortFrame where
  start : T64
  bytes : Bytes
deriving DecidableEq, Repr

/-- The inputs of the Guard Engine as they stood at a Gₖ (R29): the copies that were complete before it. -/
structure GuardCopies where
  table : StopTable := {}
  summary : Summary := {}
  verdict : Option Verdict := none
  weirHold : Bool := false
  cmd : MotionCmd := {}
  written : Bool := false
  pair : BitVec 4 := 0
  crossChecked : Bool := false
  latchA : Bool := false
  latchB : Bool := false
  latchC2 : Bool := false
  stage : BitVec 2 := 0
deriving DecidableEq, Repr, Inhabited

/-- The Guard Engine. -/
structure Guard where
  /-- GUARD settings of the image. -/
  cfg : GuardCfg := {}
  /-- Latest guard word, none before the first. -/
  word : Option GuardWord := none
  /-- MAP, DIGEST and K of the word that opened the current rotation of ten (R401). -/
  rotMap : Bytes := List.replicate 16 0
  rotDigest : Bytes := List.replicate 16 0
  rotK : BitVec 64 := 0
  /-- The word is the fallback frame's (R399). -/
  fallback : Bool := false
  /-- Device time of the latest latch. -/
  latched : Option T64 := none
  /-- The copies of the inputs that were complete before a Gₖ after which an input has changed, and that Gₖ (R29). -/
  copies : GuardCopies := {}
  copyAt : Option T64 := none
  /-- The live record that a lockstep mismatch of the Pose Ladder after a Gₖ has replaced, and that Gₖ (R29). -/
  liveKept : Option (T64 × PoseRec) := none
  /-- The motion command latched by the Guard, and the bin of its latest choice (R394). -/
  cmd : MotionCmd := {}
  bin : Nat := 0
  /-- Latest frame sent on GP0 and GP1 (R402). -/
  sent : Vector (Option PortFrame) 2 := Vector.replicate 2 none
  /-- Earliest basis time of the latest word (R400). -/
  basis : T64 := 0
  /-- Frame whose digest the word carries. -/
  frame : Option (BitVec 64) := none
deriving DecidableEq, Repr

end Sys2Proof.Machine
end

