-- ==== Sys2Proof/Blocks/Pcu.lean ====
section
/-! DEFINITION. The content of the PCU section and the state of the Point Cloud Unit (spec 10_point_cloud_unit). Coordinates and sizes are Q15.16. -/

namespace Sys2Proof.Machine

open Sys2Proof

/-- VOX[g] (R254). -/
structure VoxCfg where
  enable : Bool
  x0 : Int := -1048576
  y0 : Int := -1048576
  z0 : Int := -131072
  sx : Nat := 3277
  sy : Nat := 3277
  sz : Nat := 393216
  nx : Nat := 640
  ny : Nat := 640
  nz : Nat := 1
  maxPts : Nat := 32
  maxVoxels : Nat := 65536
deriving DecidableEq, Repr, Inhabited

/-- Source of a sampling pass (R257). -/
inductive FpsSrc where
  | frame
  | voxel (g : Fin 2)
  | pass (q : Fin 4)
deriving DecidableEq, Repr, Inhabited

/-- FPS[p] (R257). -/
structure FpsCfg where
  enable : Bool := false
  src : FpsSrc := .frame
  k : Nat := 4096
  xy : Bool := false
  first : Bool := false
deriving DecidableEq, Repr, Inhabited

/-- A site list (R259, R263). -/
inductive SiteSrc where
  | grid (g : Fin 2)
  | out (j : Fin 8)
deriving DecidableEq, Repr, Inhabited

/-- RB[i] (R259). -/
structure RbCfg where
  enable : Bool := false
  src : SiteSrc := .grid 0
  regular : Bool := false
  kx : Nat := 3
  ky : Nat := 3
  kz : Nat := 1
  sx : Nat := 1
  sy : Nat := 1
  sz : Nat := 1
  maxOut : Nat := 65536
deriving DecidableEq, Repr, Inhabited

/-- BEV.FMT (R263). -/
inductive BevFmt where
  | s8 | e4m3 | h16 | b16 | f32
deriving DecidableEq, Repr, Inhabited

/-- Bytes of an element. -/
def BevFmt.bytes : BevFmt → Nat
  | .s8 | .e4m3 => 1
  | .h16 | .b16 => 2
  | .f32 => 4

/-- BEV (R263). -/
structure BevCfg where
  enable : Bool := true
  h : Nat := 640
  w : Nat := 640
  cell : Nat := 3277
  x0 : Int := -1048576
  y0 : Int := -1048576
  src : SiteSrc := .grid 0
  cFeat : Nat := 64
  fmt : BevFmt := .s8
deriving DecidableEq, Repr, Inhabited

/-- PCU_CFG and the tensor bases (R245 to R263, R272). -/
structure PcuCfg where
  /-- CLOSE_DELAY in µs. -/
  closeDelay : Nat := 2000
  /-- CROP_XY, Z_MIN, Z_MAX, POINT_CAP and the format of PT_FEAT (R248, R250, R252). -/
  cropXy : Nat := 4194304
  zMin : Int := -131072
  zMax : Int := 262144
  pointCap : Nat := 1048576
  featF32 : Bool := false
  /-- VOX, FPS, RB and BEV. -/
  vox : Vector VoxCfg 2 := #v[{ enable := true }, { enable := false }]
  fps : Vector FpsCfg 4 := Vector.replicate 4 {}
  rb : Vector RbCfg 8 := Vector.replicate 8 {}
  bev : BevCfg := {}
  /-- Bases of the tensors, by frame parity (R252, R256, R258, R261, R265, R270). -/
  ptRec : ParityPlace := {}
  ptFeat : ParityPlace := {}
  cover : ParityPlace := {}
  doneRec : ParityPlace := {}
  voxCoord : Vector ParityPlace 2 := Vector.replicate 2 {}
  voxCount : Vector ParityPlace 2 := Vector.replicate 2 {}
  voxGather : Vector ParityPlace 2 := Vector.replicate 2 {}
  fpsIdx : Vector ParityPlace 4 := Vector.replicate 4 {}
  fpsXyz : Vector ParityPlace 4 := Vector.replicate 4 {}
  rbAt : Vector ParityPlace 8 := Vector.replicate 8 {}
  outCoord : Vector ParityPlace 8 := Vector.replicate 8 {}
  bevIdx : ParityPlace := {}
  bevBuf : ParityPlace := {}
deriving DecidableEq, Repr, Inhabited

/-- A PCU section with the first frame it governs and the clear list of each BEV buffer (R266, R268). -/
structure PcuSection where
  first : BitVec 64
  cfg : PcuCfg
  clear : Vector (List Nat) 2 := Vector.replicate 2 []
deriving DecidableEq, Repr

/-- The completion record (R270). -/
structure PcuDone where
  done : Bool := false
  aborted : Bool := false
  anyPartial : Bool := false
  step : Nat := 0
  frame : BitVec 64 := 0
  nIn : Nat := 0
  cropDrop : Nat := 0
  capDrop : Nat := 0
  n : Nat := 0
  v0 : Nat := 0
  v1 : Nat := 0
  voxOut : Nat := 0
  voxPtDrop : Nat := 0
  voxSiteDrop : Nat := 0
  rbSiteDrop : Nat := 0
  bevOut : Nat := 0
  fpsShort : BitVec 4 := 0
deriving DecidableEq, Repr

/-- The PCU. -/
structure Pcu where
  /-- Sections in force, newest first. -/
  sections : List PcuSection := []
  /-- Completion record of the latest frame, none before the first. -/
  last : Option PcuDone := none
  /-- Totals since reset, in the order of R512. -/
  nIn : Word := 0
  cropDrop : Word := 0
  capDrop : Word := 0
  voxOut : Word := 0
  voxPtDrop : Word := 0
  voxSiteDrop : Word := 0
  rbSiteDrop : Word := 0
  bevOut : Word := 0
  fpsShort : Word := 0
  aborted : Word := 0
deriving DecidableEq, Repr

end Sys2Proof.Machine
end

