-- ==== Sys2Proof/Blocks/Safety.lean ====
section
/-! DEFINITION. The state of the Spillway, the supervisors and the self-tests (spec 17_safety). -/

namespace Sys2Proof.Machine

open Sys2Proof

/-- The device safety state (R409), coded in this order (R516). -/
inductive SafetySt where
  | normal | degraded | safe
deriving DecidableEq, Repr

/-- The supervisor pair (R423), coded in this order (R516). -/
inductive SupPair where
  | both | checking | one
deriving DecidableEq, Repr

/-- One supervisor (R422): lost, its latest kick, its latest heartbeat (SEQ and class digest) and self-check result, and its own copy of the timing
supervision, the class state and the self-test results. -/
structure Supervisor where
  lost : Bool := false
  kickAt : T64 := 0
  beat : Option (BitVec 48 × Word) := none
  beatAt : T64 := 0
  check : Option Bool := none
  /-- The frames in which each entry has had a timing miss, of the latest 256 (R419). -/
  missed : List (Fin 256 × BitVec 64) := []
  /-- The safety state, and the slice and result of the latest self-test. -/
  st : SafetySt := .normal
  test : Option (BitVec 11 × Bool) := none
deriving DecidableEq, Repr, Inhabited

/-- Spillway, supervisors and self-tests. -/
structure Safety where
  cfg : SafeCfg := {}
  st : SafetySt := .normal
  /-- C3 latches of paths A and B and the C2 latch (R415). -/
  latchA : Bool := false
  latchB : Bool := false
  latchC2 : Bool := false
  /-- SAFE_OK_A and SAFE_OK_B have been raised by S1 entry (R111). -/
  raised : Bool := false
  /-- Instant of the latest C3 collection and of the latest C2 collection. -/
  c3At : Option T64 := none
  c2At : Option T64 := none
  /-- Releases of the C2 state since reset, and consecutive frames with AGREE and no C2 event (R409). -/
  releases : BitVec 3 := 0
  clear : Nat := 0
  /-- A release waits for the next Gₖ. -/
  releaseDue : Bool := false
  /-- Supervisors SSA (0) and SSB (1), and their pair state (R422, R423). -/
  sup : Vector Supervisor 2 := Vector.replicate 2 {}
  pair : SupPair := .both
  /-- Consecutive heartbeats of each supervisor whose digest differs from the other's at equal SEQ (R423). -/
  differ : Vector Nat 2 := Vector.replicate 2 0
  /-- Both watchdogs have expired (R418). -/
  supsLost : Bool := false
  /-- Slice of the latest frame, its result and the frame in which it ran (R424). -/
  slice : BitVec 11 := 0
  slicePass : Bool := false
  sliceFrame : Option (BitVec 64) := none
  /-- Counters of R516. -/
  selftestFail : Word := 0
  skip : Word := 0
  /-- SAFE_OK_STUCK has been raised for SAFE_OK_A (0) and SAFE_OK_B (1) (R417). -/
  okStuck : Vector Bool 2 := Vector.replicate 2 false
deriving DecidableEq, Repr

end Sys2Proof.Machine
end

