-- ==== Sys2Proof/Blocks/Te.lean ====
section
/-! DEFINITION. The state of the four Tensor Engines, the model slots and track memory's settings (spec 11, 12, 13). -/

namespace Sys2Proof.Machine

open Sys2Proof

/-- TE_CFG[t] (R187, R278, R484). -/
structure TeCfg where
  /-- PHASE is GENERATION. -/
  gen : Bool := false
  /-- Staging region (R327), flags that raise an event (R187) and levels of the command flumes (R484). -/
  stagingBytes : Nat := 0
  flagEvent : BitVec 5 := 3
  qLevel : Vector Nat 4 := Vector.replicate 4 0
deriving DecidableEq, Repr, Inhabited

/-- TE_CFG of an engine that no TE section sets: FRAME for TE0 to TE2, GENERATION with 2 MB of staging for TE3 (R278). -/
def TeCfg.default (t : Fin 4) : TeCfg := if t = 3 then { gen := true, stagingBytes := 2097152 } else {}

/-- KV_CFG (R326). -/
structure KvCfg where
  heads : Nat := 8
  hdim : Nat := 64
  e4m3 : Bool := true
  regionBase : Nat := 0
  regionBytes : Nat := 0
  stageSlots : Nat := 16
  opsBase : Nat := 0
  stepMs : Nat := 250
  head0 : Vector Nat 4 := Vector.replicate 4 0
  headsOf : Vector Nat 4 := Vector.replicate 4 8
deriving DecidableEq, Repr, Inhabited

/-- A launch entry (R281). -/
structure LaunchEntry where
  entry : BitVec 8
  launch : BitVec 4
  frame : Word
  list : Word
deriving DecidableEq, Repr

/-- A running chain: its launch entry, the next list, and whether it ends at the next list boundary (R280, R284). -/
structure Chain where
  launch : LaunchEntry
  next : Word
  ending : Bool := false
deriving DecidableEq, Repr

/-- STATUS of a list (R323). -/
inductive ListStatus where
  | complete | stopped | goldenFail
deriving DecidableEq, Repr

/-- The command list in progress. -/
structure ListRun where
  queue : Fin 4
  launch : LaunchEntry
  /-- Cistern offset of the header. -/
  addr : Nat
  /-- Commands run. -/
  ran : Nat := 0
  /-- Flags, INDEX_RANGE count (R323). -/
  flags : BitVec 8 := 0
  indexRange : Nat := 0
  /-- Golden digest G (R321). -/
  golden : Bytes := List.replicate 32 0
  status : ListStatus := .complete
  /-- Device time of the list's start and of the latest completed command. -/
  startAt : T64
  cmdAt : T64
deriving DecidableEq, Repr

/-- One model slot (R291). -/
structure SlotEntry where
  space : Space
  base : Nat
  length : Nat
  digest : Bytes
deriving DecidableEq, Repr

/-- One engine. -/
structure Te where
  cfg : TeCfg := {}
  /-- Command flumes, oldest entry first, at most 16 (R281, R484). -/
  flume : Vector (List LaunchEntry) 4 := Vector.replicate 4 []
  /-- OVERRUN of each command flume and the time of its latest CMD_FLUME_LEVEL. -/
  overrun : Vector Bool 4 := Vector.replicate 4 false
  levelAt : Vector (Option T64) 4 := Vector.replicate 4 none
  /-- Running chain of each queue and the list in progress (R280, R282). -/
  chain : Vector (Option Chain) 4 := Vector.replicate 4 none
  run : Option ListRun := none
  /-- TE_QFLAGS, LISTS and FLUSHES of each queue (R513). -/
  qflags : Vector (BitVec 8) 4 := Vector.replicate 4 0
  lists : Vector Word 4 := Vector.replicate 4 0
  flushes : Vector Word 4 := Vector.replicate 4 0
  /-- Counters of R513, in order. -/
  tensorClamp : Word := 0
  indexRange : Word := 0
  kvNoPage : Word := 0
  syncTimeout : Word := 0
  rbMismatch : Word := 0
  goldenFail : Word := 0
  localCe : Word := 0
deriving DecidableEq, Repr

/-- The four engines with what they share. -/
structure Tes where
  /-- The engines, and the 64 model slots (R291). -/
  te : Vector Te 4 := Vector.ofFn fun t => { cfg := TeCfg.default t }
  slots : Vector (Option SlotEntry) 64 := Vector.replicate 64 none
deriving DecidableEq, Repr

end Sys2Proof.Machine
end

