-- ==== Sys2Proof/Blocks/Tracker.lean ====
section
/-! DEFINITION. The Tracker and its track memory (spec 13_track_memory_and_attention, 14_tracker). -/

namespace Sys2Proof.Machine

open Sys2Proof

/-- Base of a tensor in the Cistern with the bytes added in odd frames (R286). -/
structure ParityBase where
  base : Nat := 0
  odd : Nat := 0
deriving DecidableEq, Repr, Inhabited

/-- TRK_CFG (R356) and the tensor bases of the TRACKER section (R342, R354). Real-valued fields are F32. -/
structure TrkCfg where
  capacity : Nat := 256
  /-- TOV_OFFSET in µs; P/2 when the section leaves it out. -/
  tovOffset : Option Nat := none
  /-- The other settings, in the order of R356. -/
  gate : Word := 0x415CCCCD
  classGate : Bool := true
  wGeo : Word := 0x3F800000
  wHead : Word := 0
  missCost : Word := 0x41100000
  birthScore : Word := 0x3F000000
  birthConf : Nat := 64
  confirmHits : Nat := 3
  tentMiss : Nat := 1
  coastMax : Nat := 25
  confHit : Nat := 16
  confMiss : Nat := 16
  maskDrop : Nat := 32
  supportFrames : Nat := 10
  accNoise : Word := 0x40000000
  initSdV : Word := 0x3FC00000
  /-- Bases of the tensors. -/
  detCount : ParityBase := {}
  det : ParityBase := {}
  detSupport : ParityBase := {}
  ac : ParityBase := {}
  acTid : ParityBase := {}
  trkCount : ParityBase := {}
  trk : ParityBase := {}
  trkTid : ParityBase := {}
deriving DecidableEq, Repr, Inhabited

/-- STATE of a track (R354). -/
inductive TrackSt where
  | tentative | confirmed | coasting | retired
deriving DecidableEq, Repr

/-- One track: state and covariance in F32, in the reference frame of its frame (R344, R350). -/
structure Track where
  slot : Nat
  gen : BitVec 6
  st : TrackSt
  x : Word
  y : Word
  vx : Word
  vy : Word
  /-- 4 × 4 covariance, row by row. -/
  p : List Word
  /-- Confidence, HITS and MISSES (R351, R353); length, width, heading and class of the latest detection (R350). -/
  conf : Nat
  hits : Nat
  misses : Nat
  length : Word
  width : Word
  heading : Word
  cls : Word
  /-- Support masks of matched frames, newest first (R352). -/
  masks : List (BitVec 64 × BitVec 24)
  /-- Matched in this frame; its support is masked in whole (R352). -/
  matched : Bool
  orphaned : Bool
  /-- Matched detection and quantised cost. -/
  det : Option Nat
  cost : Nat
  /-- Frames since birth. -/
  age : Nat
deriving DecidableEq, Repr

/-- A track memory entry (R330). -/
structure TrackMem where
  id : BitVec 16 := 0
  live : Bool := false
  staged : Bool := false
  base : Word := 0
  next : Word := 0
  /-- PAGE0 to PAGE3. -/
  pages : Vector (Option (BitVec 16)) 4 := Vector.replicate 4 none
  /-- Staging slot and tokens appended. -/
  slot : Option (BitVec 8) := none
  appended : Word := 0
deriving DecidableEq, Repr

/-- What the tracks of a frame are to the next one: the frame, its track time and reference pose, the tracks, the generations and the builds. -/
structure TrackKeep where
  frame : Option (BitVec 64) := none
  tov : T64 := 0
  ref : Option PoseRec := none
  tracks : List Track := []
  gens : Vector (Option (BitVec 6)) 512 := Vector.replicate 512 none
  s3Built : Bool := false
  built : Option (BitVec 64) := none
deriving DecidableEq, Repr

/-- The Tracker. -/
structure Tracker where
  cfg : TrkCfg := {}
  installed : Bool := false
  /-- The latest frame that published tracks, its track time and the tracks, in ascending slot, the retired ones among them (R354). -/
  frame : Option (BitVec 64) := none
  tov : T64 := 0
  tracks : List Track := []
  /-- Reference pose of that frame (R344), and what was in force before its task, for an abort (R355). -/
  ref : Option PoseRec := none
  kept : TrackKeep := {}
  /-- Generation of the latest birth in each slot (R349). -/
  gens : Vector (Option (BitVec 6)) 512 := Vector.replicate 512 none
  /-- Track memory entries; slots from CAPACITY up stay at their reset value. -/
  mem : Vector TrackMem 1024 := Vector.replicate 1024 {}
  /-- A memory build has run in S3; frame of the latest complete memory build (R339, R355). -/
  s3Built : Bool := false
  built : Option (BitVec 64) := none
  /-- Stream confidences at the close of the latest frame, by headgate, 0 where masked (R352). -/
  closeConf : Vector (BitVec 8) 64 := Vector.replicate 64 0
  /-- STEPS of the latest assignment (R347). -/
  steps : Nat := 0
  /-- Counters of R514, in order. -/
  detInvalid : Word := 0
  staleId : Word := 0
  trackFull : Word := 0
  assignBudget : Word := 0
  kvReclaim : Word := 0
  detClamp : Word := 0
  historyResets : Word := 0
deriving DecidableEq, Repr

end Sys2Proof.Machine
end

