-- ==== Sys2Proof/Sections/Time.lean ====
section
/-! DEFINITION. The content of the Timebase, island and Sluice sections of the image (spec 02_one_time_line R45 to R66; spec 03 R77, R85, R92). -/

namespace Sys2Proof.Machine

open Sys2Proof

/-- One PTP domain of the vehicle ports (R49, R66). -/
structure DomCfg where
  enabled : Bool := true
  domainNumber : BitVec 7 := 0
  onP6 : Bool := true
  onP7 : Bool := true
  gptp : Bool := true
deriving DecidableEq, Repr, Inhabited

/-- Transport of PTP messages (R49). -/
inductive PtpTransport where
  | layer2 | udp4 | udp6
deriving DecidableEq, Repr, Inhabited

/-- PTP service of one sensor port (R49, R66). R49 lets a port take either profile and gives no default: it is the IEEE 1588-2019 default profile.
DESIGN CHOICE, log entry 170. -/
structure SensorPtpCfg where
  transport : PtpTransport := .udp4
  peerToPeer : Bool := false
  oneStep : Bool := false
  logSync : Int := -3
  gptp : Bool := false
deriving DecidableEq, Repr, Inhabited

/-- One trigger output (R62); SPACING 0 stands for its default P/2. -/
structure TrigCfg where
  en : Bool := false
  offset : Nat := 0
  count : Nat := 1
  spacing : Nat := 0
  widthUs : Nat := 10
  div : Nat := 1
  activeHigh : Bool := true
deriving DecidableEq, Repr, Inhabited

/-- The TB_CFG and TB_TRIG fields (R45 to R66). -/
structure TbCfg where
  servo : Bool := true
  incr : BitVec 48 := 0x002000000000
  /-- SERVO_BW in hundredths of a hertz: 5, 10, 20, 50 or 100. -/
  servoBw : Nat := 10
  slewMaxPpm : Nat := 10
  domA : DomCfg := {}
  domB : DomCfg := { domainNumber := 1 }
  sensorDomain : BitVec 7 := 0
  sensorPort : Vector SensorPtpCfg 6 := Vector.replicate 6 {}
  preferredB : Bool := false
  holdExt : Bool := false
  peerSource : Bool := false
  lockNs : Nat := 50
  lockCount : Nat := 16
  unlockNs : Nat := 500
  syncTimeout : Nat := 3
  announceTimeout : Nat := 3
  switchSlewUs : Nat := 10
  /-- MAP_GUARD in milliseconds: 100 to 10,000. -/
  mapGuardMs : Nat := 2000
  holdLimitS : Nat := 60
  freeEpoch : BitVec 48 := 0
  framePeriodMs : Nat := 20
  anchorDevice : Bool := false
  framePhaseUs : Nat := 0
  /-- ASYM_IN[p] and ASYM_OUT[p] for P0 to P7, in ticks (R51). -/
  asymIn : Vector Int 8 := Vector.replicate 8 0
  asymOut : Vector Int 8 := Vector.replicate 8 0
  qanatAsym : Int := 0
  ppsWidthUs : Nat := 100000
  trig : Vector TrigCfg 16 := Vector.replicate 16 {}
deriving DecidableEq, Repr, Inhabited

/-- The ISL_CFG fields (R85, R92). -/
structure IslCfg where
  replay : Bool := false
  /-- CAPTURE_MASK: bit h enables the stream of headgate h. -/
  captureMask : BitVec 64 := 0
  /-- CAPTURE_SIZE in bytes; 0 disables capture. -/
  captureSize : Nat := 0
deriving DecidableEq, Repr, Inhabited

/-- The SLUICE_CFG field IRQ_MASK (R77): bit c selects event code c. -/
structure SluiceCfg where
  irqMask : BitVec 4096 := 0
deriving DecidableEq, Repr, Inhabited

/-- One entry of the schedule table (R79). -/
structure SchedEntry where
  version : BitVec 4 := 1
  target : BitVec 8 := 0
  pred : BitVec 9 := 511
  golden : Bool := false
  start : BitVec 18 := 0
  window : BitVec 18 := 100
  minRt : BitVec 18 := 0
  maxRt : BitVec 18 := 0
  deadline : BitVec 18 := 0
  list : Word := 0
  repeats : BitVec 4 := 0
  spacing : BitVec 18 := 0
deriving DecidableEq, Repr, Inhabited

end Sys2Proof.Machine
end

