-- ==== Sys2Proof/Blocks/Time.lean ====
section
/-! DEFINITION. The state of the Timebase and of the frame grid (spec 02_one_time_line), with its values at reset. -/

namespace Sys2Proof.Machine

open Sys2Proof

/-- State of a PTP source (R53), coded as in R507. -/
inductive SrcState where
  | off | listening | acquiring | locked
deriving DecidableEq, Repr

/-- State of the time map (R47, R54), coded in this order. -/
inductive MapState where
  | free | locked | slewing | holdover | settling
deriving DecidableEq, Repr

/-- The sources of R53 and R65. -/
inductive Src where
  | a | b | peer
deriving DecidableEq, Repr

/-- The time map record (R47); VERSION is fixed at 1. -/
structure TimeMap where
  sec : BitVec 48 := 0
  ns : BitVec 30 := 0
  sub : BitVec 3 := 0
  domain : BitVec 2 := 0
  state : MapState := .free
  ratePpb : BitVec 16 := 0
  mapSeq : BitVec 16 := 0
deriving DecidableEq, Repr

/-- Grandmaster attributes that an Announce carries (R50). -/
structure GmAttrs where
  identity : BitVec 64 := 0
  clockClass : BitVec 8 := 248
  accuracy : BitVec 8 := 0
  variance : BitVec 16 := 0
  priority1 : BitVec 8 := 0
  priority2 : BitVec 8 := 0
  timeSource : BitVec 8 := 0
deriving DecidableEq, Repr

/-- The estimator of one source (R45): phase in ticks, frequency as a pure ratio. -/
structure Estimator where
  phase : Rat := 0
  freq : Rat := 0
  updated : T64 := 0
deriving DecidableEq, Repr

/-- One PTP source (R53). -/
structure Source where
  /-- State of R53; reset OFF until the Timebase section enables the source. -/
  st : SrcState := .off
  /-- An Announce has been received since LISTENING was entered. -/
  announced : Bool := false
  /-- Recorded grandmaster identity and attributes. -/
  gm : GmAttrs := { clockClass := 0 }
  /-- Estimator, from the first measured offset. -/
  est : Option Estimator := none
  /-- Run of syncs within LOCK_NS. -/
  lockRun : Nat := 0
  /-- Run of syncs beyond UNLOCK_NS. -/
  unlockRun : Nat := 0
  /-- Device time of the latest Sync and its interval exponent. -/
  lastSync : T64 := 0
  syncLog : Option Int := none
  /-- Device time of the latest Announce and its interval exponent. -/
  lastAnnounce : T64 := 0
  announceLog : Option Int := none
  /-- Latest measured offset, domain time minus mapped time, in ticks. -/
  offset : Rat := 0
  /-- Syncs accepted (R507). -/
  syncs : Word := 0
deriving DecidableEq, Repr

/-- A completed peer-delay measurement (R53). -/
structure PathDelay where
  delay : Rat
  at_ : T64
deriving DecidableEq, Repr

/-- A PTP master message that a sensor port has sent (R50). -/
inductive PtpKind where
  | announce | sync | followUp | pdelayResp | pdelayRespFollowUp | delayResp
deriving DecidableEq, Repr

/-- The latest PTP master message of a sensor port: its transport, profile and domainNumber, what it announces, the device time it serves
and the mapped time of that instant. -/
structure PtpSent where
  kind : PtpKind
  transport : PtpTransport
  gptp : Bool
  domain : BitVec 7
  seqId : BitVec 16
  attrs : GmAttrs
  mappedTicks : Nat
  stamp : T64
deriving DecidableEq, Repr

/-- A delay request that a sensor port has received and not yet answered (R49): peer-to-peer or end-to-end, its sequenceId and its
receive stamp. -/
structure PtpReq where
  peer : Bool
  seqId : BitVec 16
  rx : T64
deriving DecidableEq, Repr

/-- One frame of the grid (R59 to R61). -/
structure Frame where
  no : BitVec 64 := 0
  b : T64 := 0
  next : T64 := 0
  stretched : Bool := false
deriving DecidableEq, Repr

/-- The Timebase. -/
structure Timebase where
  /-- The Timebase fields of the image; defaults until installed. -/
  cfg : TbCfg := {}
  /-- The Timebase section has been installed. -/
  installed : Bool := false
  /-- Device time runs: from reset release. -/
  running : Bool := false
  /-- Device time (R35): 0 at reset release. -/
  now : T64 := 0
  /-- Fraction of a tick carried by the increment, in units of 2⁻³² tick (R44). -/
  frac : Word := 0
  /-- The increment in force (R44). -/
  incr : BitVec 48 := 0x002000000000
  /-- The map in force (R47). -/
  map : TimeMap := {}
  /-- The map that takes effect at a guard cycle start (R48). -/
  mapNext : Option (T64 × TimeMap) := none
  /-- Sources A, B and peer. -/
  src : Vector Source 3 := Vector.replicate 3 {}
  /-- The active source (R54). -/
  active : Option Src := none
  /-- Entry into SETTLING and HOLDOVER. -/
  settleAt : T64 := 0
  holdAt : T64 := 0
  /-- Attributes announced at the instant of entry to HOLDOVER (R50). -/
  holdAttrs : GmAttrs := {}
  /-- Path delay per vehicle port P6, P7 (R53). -/
  path : Vector (Option PathDelay) 2 := Vector.replicate 2 none
  /-- Outstanding Pdelay_Req per vehicle port: its transmit stamp and sequenceId. -/
  pdelayReq : Vector (Option (T64 × BitVec 16)) 2 := Vector.replicate 2 none
  /-- Next sequenceId of Pdelay_Req per vehicle port. -/
  pdelaySeq : Vector (BitVec 16) 2 := Vector.replicate 2 0
  /-- Latest PTP master message, and next sequenceId of Sync and of Announce, per sensor port P0 to P5. -/
  ptpSent : Vector (Option PtpSent) 6 := Vector.replicate 6 none
  ptpSeq : Vector (BitVec 16) 6 := Vector.replicate 6 0
  ptpAnnSeq : Vector (BitVec 16) 6 := Vector.replicate 6 0
  /-- Latest Sync of each sensor port, its sequenceId and transmit stamp, and whether its Follow_Up is still to be sent (R49). -/
  ptpSync : Vector (Option (BitVec 16 × T64)) 6 := Vector.replicate 6 none
  ptpFollow : Vector Bool 6 := Vector.replicate 6 false
  /-- Delay request that each sensor port is still to answer, and the Pdelay_Resp whose Follow_Up is still to be sent (R49). -/
  ptpReq : Vector (Option PtpReq) 6 := Vector.replicate 6 none
  ptpResp : Vector (Option (BitVec 16 × T64)) 6 := Vector.replicate 6 none
  /-- Latest REF10M_IN edge and whether the reference is lost (R57). -/
  ref10m : Option T64 := none
  ref10mLost : Bool := false
  /-- Stamp of the latest PPS_IN edge and its residual to a whole second of mapped time (R40, R58). -/
  ppsStamp : Option T64 := none
  ppsResidual : Int := 0
  /-- PPS_OUT level, its latest rising edge and the device time from which the next one may fall (R63). -/
  ppsHigh : Bool := false
  ppsRise : Option T64 := none
  ppsFrom : T64 := 0
  /-- The latest frame opened, none before B₀. -/
  frame : Option Frame := none
  /-- Frames opened before it, newest first, at most 7. -/
  past : List Frame := []
  /-- Guard cycle start of a map jump whose stretched frame is still to come (R60). -/
  reanchor : Option T64 := none
  /-- Guard cycle start of the latest map jump and the offset in force before it, in ticks (R48, R133). -/
  lastJump : Option (T64 × Nat) := none
  /-- s of the latest stretched frame (R61). -/
  stretch : Word := 0
  /-- Trigger outputs at their active level, and the stamp of the latest leading edge (R62, R40). -/
  trigActive : Vector Bool 16 := Vector.replicate 16 false
  trigStamp : Vector T64 16 := Vector.replicate 16 0
  /-- Edges that each trigger output has placed in the frame open now: leading and trailing edges in turn (R62). -/
  trigEdges : Vector Nat 16 := Vector.replicate 16 0
  /-- Sum and count of the peer offsets of the current run of exchanges, newest first (R64). -/
  xfer : List Rat := []
  /-- TB_PEER_OFF and PEER_VALID (R65). -/
  peerOff : BitVec 64 := 0
  peerValid : Bool := false
  /-- Qanat exchanges completed (R507). -/
  xfers : Word := 0
  /-- The peer's map offset, in ticks, sent with the latest exchange (R65). -/
  peerMapOff : Nat := 0
  /-- Device time of the latest exchange, and stamps of the latest own time-transfer marker and of the latest marker received (R40, R64). -/
  xferAt : Option T64 := none
  markerTx : Option T64 := none
  markerRx : Option T64 := none
deriving DecidableEq, Repr

end Sys2Proof.Machine
end

