-- ==== Sys2Proof/Blocks/Twin.lean ====
section
/-! DEFINITION. The state of the Qanat link, the twin lines and the role (spec 18_twin_operation). -/

namespace Sys2Proof.Machine

open Sys2Proof

/-- Roles (R435), coded in this order (R446). -/
inductive Role where
  | none | primary | secondary
deriving DecidableEq, Repr

/-- Pair states (R437), coded in this order. -/
inductive PairSt where
  | solo | seeking | joining | crossChecked | unmatched | disagree | peerSafe | lostAlive | unknown | rejoining
deriving DecidableEq, Repr

/-- A HELLO (R431). -/
structure Hello where
  twinId : Bool
  level : Nat
  ovyarMin : Nat
  ovyarMax : Nat
  digest : Bytes
deriving DecidableEq, Repr

/-- A STATUS (R430): role, safety state, pair state, stage and epoch digest. -/
structure Status where
  role : Role
  safety : BitVec 2
  pair : BitVec 4
  stage : BitVec 2
  epoch : Bytes
deriving DecidableEq, Repr

/-- A TIME message (R430, R64, R65): the stamps of the unit's latest own and received markers, its map offset in ticks and the
grandmaster attributes it announces. -/
structure TimeMsg where
  tx : Option T64
  rx : Option T64
  mapOff : Nat
  gm : GmAttrs
deriving DecidableEq, Repr

/-- A message of the link by type (R430). -/
inductive QMsg where
  | idle
  | hello (h : Hello)
  | time (t : TimeMsg)
  | guard (word : Bytes)
  | status (x : Status)
  | xcheck (record : Bytes)
deriving DecidableEq, Repr

/-- A cell as it arrives (R429): its 64 bytes; `hello` and `status` are the message it completes where its layout is not stated. -/
structure Cell where
  bytes : Bytes
  hello : Option Hello := none
  status : Option Status := none
deriving DecidableEq, Repr

/-- The cross-check record (R441). -/
structure XRecord where
  tableValid : Bool := false
  tracksValid : Bool := false
  kbins : Nat := 0
  bn : T64 := 0
  frame : Word := 0
  grid : BitVec 1024 := 0
  stop : List (Nat × Nat) := []
  tracks : List (Int × Int) := []
deriving DecidableEq, Repr

/-- Own or peer record with its arrival, and whether it has been compared. -/
structure XHeld where
  r : XRecord
  at_ : T64
  used : Bool := false
  /-- The peer offset was valid at the arrival. -/
  offset : Bool := false
deriving DecidableEq, Repr

/-- A message whose cells are arriving (R429). -/
structure Partial where
  type : Nat
  seq : Nat
  parts : Nat
  next : Nat
  bytes : Bytes
deriving DecidableEq, Repr

/-- The Qanat block. -/
structure Qanat where
  cfg : QanatCfg := {}
  installed : Bool := false
  /-- Link up (R428) and since when, and device time of the latest cell that passed. -/
  linkUp : Bool := false
  linkAt : T64 := 0
  lastCell : T64 := 0
  /-- Sessions (R431): own, none before the first link-up, and the peer's. -/
  session : Option (BitVec 8) := none
  peerSession : Option (BitVec 8) := none
  /-- The peer's latest HELLO, and whether one has been received since the latest link-up. -/
  hello : Option Hello := none
  helloSeen : Bool := false
  /-- Latest HELLO and STATUS sent in this session, and the role that STATUS reported. -/
  helloAt : Option T64 := none
  statusAt : Option T64 := none
  reported : Option Role := none
  /-- K of the latest guard word sent. -/
  guardSent : Option (BitVec 64) := none
  /-- The peer's latest STATUS and its arrival (R430). -/
  peerStatus : Option Status := none
  peerStatusAt : T64 := 0
  /-- The peer's latest guard word and its K. -/
  peerGuard : Bytes := List.replicate 80 0
  peerK : Option Nat := none
  /-- The peer's guard word has come since the latest link-up. -/
  guardFresh : Bool := false
  /-- The messages whose cells are arriving, at most one of a type (R429). -/
  partial_ : List Partial := []
  /-- MSG_SEQ of the next message of each type (R429), and the latest message sent with its cells. -/
  seqs : Vector (BitVec 16) 16 := Vector.replicate 16 0
  sent : Option (QMsg × List Bytes) := none
  /-- Start of its first cell (R428). -/
  sentAt : T64 := 0
  /-- TWIN_ALIVE_OUT and TWIN_SYNC_OUT (R433), with the boundary that raised the latter. -/
  aliveOut : Bool := false
  aliveAt : Option T64 := none
  syncOut : Bool := false
  syncAt : Option T64 := none
  /-- Latest edge of TWIN_ALIVE_IN, latest edge and rising edge of TWIN_SYNC_IN, and the latter's residual (R40, R433). -/
  aliveIn : Option T64 := none
  syncEdge : Option T64 := none
  syncIn : Option T64 := none
  syncResidual : Int := 0
  /-- Role, the role that takes effect at the next Gₖ, and the run of valid pulses (R435). -/
  role : Role := .none
  roleNext : Option Role := none
  run : Option (Role × Nat) := none
  /-- Latest rise of WITNESS, its latest valid pulse, and whether WITNESS_LOST has been raised (R435). -/
  lastRise : Option T64 := none
  lastFall : Option T64 := none
  lastValid : T64 := 0
  witnessLost : Bool := false
  /-- Both units have reported PRIMARY since; ROLE_CONFLICT raised (R436). -/
  bothSince : Option T64 := none
  conflict : Bool := false
  /-- Pair state (R437). -/
  pair : PairSt := .solo
  /-- Own and peer records of the latest frames, newest first (R443). -/
  own : List XHeld := []
  peer : List XHeld := []
  /-- Results of the latest compared frames, newest first: the failing parts. -/
  results : List (BitVec 3) := []
  /-- Consecutive failed comparisons and own frames not compared. -/
  failRun : Nat := 0
  missRun : Nat := 0
  /-- Counters of R516, in order. -/
  crcErr : Word := 0
  wordGap : Word := 0
  staleId : Word := 0
  witnessBad : Word := 0
  linkLosses : Word := 0
  compared : Word := 0
  failed : Word := 0
deriving DecidableEq, Repr

end Sys2Proof.Machine
end

