-- ==== Sys2Proof/Sections/Out.lean ====
section
/-! DEFINITION. The content of the OUTPUT, CANSAFE and OBSERVE sections (spec 19 R453, R457, R463; spec 21 R487; spec 19 R465). -/

namespace Sys2Proof.Machine

open Sys2Proof

/-- OUT_STREAM[s] (R457). -/
structure StreamCfg where
  en : Bool := true
  p6 : Bool := true
  p7 : Bool := true
  vlan : Nat := 2
  pcp : Nat := 5
  queue : Fin 8 := 5
  dstMac : BitVec 48 := 0
  /-- Destination address: 4 bytes for IPv4, 16 for IPv6. -/
  dstIp : Bytes := []
  dstUdp : BitVec 16 := 0
  /-- TX_MAX_AGE in µs; none for its default P. -/
  txMaxAge : Option Nat := none
  ringBytes : Nat := 1048576
deriving DecidableEq, Repr, Inhabited

/-- One entry of a gate control list (R452): gate bits and interval in 8 ns steps. -/
structure GateEntry where
  gates : BitVec 8
  interval : Nat
deriving DecidableEq, Repr, Inhabited

/-- OUT_MACSEC[p] (R457): suite 128 or 256; keys held as bytes. -/
structure MacsecCfg where
  en : Bool := false
  aes256 : Bool := false
  sci : BitVec 64 := 0
  txSak : Bytes := []
  rxSak : Bytes := []
  confidential : Bool := false
deriving DecidableEq, Repr, Inhabited

/-- OUT_CFG, the streams, the gate control lists and the network settings of P6 and P7 (R457). -/
structure OutCfg where
  stream : Vector StreamCfg 6 := #v[{}, {}, {}, { en := false }, {}, { en := false }]
  srcUdp : Nat := 47800
  fragBytes : Nat := 1344
  qBytes : Vector Nat 8 := Vector.replicate 8 131072
  pointsStride : Nat := 4
  guardDiv : Nat := 1000
  /-- S1_OFFSET in µs. -/
  s1Offset : Nat := 22000
  ptpQueue : Fin 8 := 7
  gates : Vector (List GateEntry) 2 := Vector.replicate 2 [⟨0xFF, 125000⟩]
  macsec : Vector MacsecCfg 2 := Vector.replicate 2 {}
  eth : Vector EthCfg 2 := Vector.replicate 2 { pcs := 3 }
deriving DecidableEq, Repr, Inhabited

/-- A CAN identifier (R463): 11-bit, 29-bit or XL with its SDT and VCID. -/
structure CanId where
  ext : Bool := false
  id : BitVec 29
  sdt : BitVec 8 := 0
  vcid : BitVec 8 := 0
deriving DecidableEq, Repr, Inhabited

/-- CANSAFE (R463). An absent identifier or DATA_ID takes its default (R458). Times in ms, rates in kbit/s, sample points in percent. -/
structure CanSafeCfg where
  xl : Bool := false
  idState : Option CanId := none
  idGuard : Option CanId := none
  dataIdState : Option Word := none
  dataIdGuard : Option Word := none
  statePeriod : Nat := 100
  guardPeriod : Nat := 10
  minGap : Nat := 1
  maxAge : Nat := 10
  nomRate : Nat := 1000
  dataRate : Nat := 5000
  nomSp : Nat := 80
  dataSp : Nat := 75
  tdc : Bool := true
  /-- FORMAT selects Classical CAN, which R458 rejects. -/
  classical : Bool := false
deriving DecidableEq, Repr, Inhabited

/-- GRT_MON[m] (R487); INSTANCE none stands for 0xFFFF. -/
structure MonCfg where
  en : Bool := false
  source : Nat := 0
  inst : Option Nat := none
  log2 : Bool := false
  lo : Int := 0
  width : Nat := 1
  maxSamples : Nat := 4294967295
deriving DecidableEq, Repr, Inhabited

/-- The OBSERVE section: SLUICE_CFG.IRQ_MASK (R77), the monitors (R487) and OBP_CFG.WIN (R465). -/
structure ObserveCfg where
  irqMask : BitVec 4096 := 0
  mon : Vector MonCfg 64 := Vector.replicate 64 {}
  /-- Cistern offset and length of each Cistern window. -/
  win : Vector (Nat × Nat) 16 := Vector.replicate 16 (0, 0)
deriving DecidableEq, Repr, Inhabited

end Sys2Proof.Machine
end

