-- ==== Sys2Proof/Blocks/Bcc.lean ====
section
/-! DEFINITION. The state of the Boot and Configuration Controller and of the OTP memory (spec 04_eoteby_image_and_bring_up). -/

namespace Sys2Proof.Machine

open Sys2Proof

/-- The content of a section as its chapter describes it. The layout of the bytes of a section's content is not stated. -/
inductive SectionContent where
  | timebase (c : TbCfg)
  | islands (c : IslCfg) (mem : MemCfg)
  | safety (c : SafeCfg)
  | port (c : PortCfg)
  | headgate (c : HgCfg) (t : Option Template)
  | pose (c : PlCfg)
  | channelB (c : CbCfg) (rs : Vector (Option RsCfg) 8)
  | guard (c : GuardCfg)
  | canSafe (c : CanSafeCfg)
  | qanat (c : QanatCfg)
  | output (c : OutCfg)
  | observe (c : ObserveCfg)
  | schedule (es : List SchedEntry)
  | pau (c : PauCfg)
  | pcu (c : PcuCfg)
  | te (c : TeCfg)
  | cmdList
  | modelSlot
  | tracker (c : TrkCfg) (kv : KvCfg)
  | qsa (c : QsaCfg)
deriving DecidableEq, Repr

/-- The manifest header (R97). -/
structure Manifest where
  magic : Word := 0
  version : Nat := 0
  ovyarMin : Nat := 0
  ovyarMax : Nat := 0
  keyIndex : Fin 4 := 0
  sections : Nat := 0
  svn : Nat := 0
  imageBytes : Nat := 0
  encrypted : Bool := false
  svnCommit : Bool := false
  tableDigest : Bytes := []
  buildId : Bytes := []
  pubKey : Bytes := []
  signature : Bytes := []
deriving DecidableEq, Repr, Inhabited

/-- A section table entry (R99), with its 64 bytes. -/
structure SectionEntry where
  raw : Bytes := []
  type : Nat := 0
  stage : Nat := 0
  enc : Bool := false
  inst : Nat := 0
  version : Nat := 0
  offset : Nat := 0
  length : Nat := 0
  dest : Nat := 0
  digest : Bytes := []
deriving DecidableEq, Repr, Inhabited

/-- A slot (R95): SFDP answered and its capacity, its header, section table and first failing reason (R105). -/
structure Slot where
  answered : Option Bool := none
  bytes : Nat := 0
  header : Option Manifest := none
  digest : Bytes := []
  table : List SectionEntry := []
  /-- FAIL_A or FAIL_B (R506). -/
  fail : BitVec 4 := 0
  /-- The header has been checked, and passed. -/
  checked : Bool := false
  candidate : Bool := false
  /-- The slot has been selected before (R106). -/
  tried : Bool := false
deriving DecidableEq, Repr, Inhabited

/-- A section that has been read and has passed its checks. -/
structure Installed where
  index : Nat
  entry : SectionEntry
  /-- Content bytes: the plaintext. -/
  bytes : Bytes
  content : SectionContent
  /-- Put into its block; a section of a stage not yet released waits. -/
  released : Bool := false
  /-- IN_FORCE (R504). -/
  inForce : Bool := true
deriving DecidableEq, Repr

/-- LOAD_RESULT (R506), coded in this order. -/
inductive LoadResult where
  | reading | complete | noCandidate | sectionFail | c3
deriving DecidableEq, Repr

/-- OTP memory (R103, R104): key hashes with their revocation fuses, image key, rollback counter. -/
structure Otp where
  /-- SHA-256 hashes of the four keys, revocation fuses, image key and rollback counter (R103, R104). -/
  keyHash : Vector Bytes 4 := Vector.replicate 4 (List.replicate 32 0)
  revoked : BitVec 4 := 0
  imageKey : Option Bytes := none
  rollback : Nat := 0
  /-- The count before the latest programming of the rollback counter, and the device time at which that began (R104). -/
  programming : Option (Nat × T64) := none
deriving DecidableEq, Repr

/-- The BCC. -/
structure Bcc where
  /-- Slots A and B (R95, R105). -/
  slots : Vector Slot 2 := Vector.replicate 2 {}
  /-- Selected slot, none before selection (R106). -/
  slot : Option (Fin 2) := none
  /-- Index of the next section to read, and whether it is being read a second time (R107). -/
  next : Nat := 0
  retry : Bool := false
  /-- Sections that have passed, in storage order. -/
  installed : List Installed := []
  /-- Service stage (R111) and how the load ended (LOAD_RESULT of R506). -/
  stage : BitVec 2 := 0
  result : LoadResult := .reading
  /-- The device is held in S0 until reset (R70, R106, R528). -/
  held : Bool := false
  /-- SVN_COMMITTED; last section installed, failing section and its reason; bytes read (R506). -/
  svnCommitted : Bool := false
  last : Option Nat := none
  failed : Option Nat := none
  reason : BitVec 4 := 0
  readBytes : Word := 0
  /-- STAGE_LATE raised for S1 and for S3 (R114). -/
  lateS1 : Bool := false
  lateS3 : Bool := false
  /-- Device time at which the latest condition of a stage entry came: an enrolment, a section installed, LPDDR5X trained (R111). -/
  condAt : T64 := 0
  /-- Instant of S1 entry, from which the reduced service of S1 counts (R31). -/
  s1At : Option T64 := none
  /-- OTP memory, kept through a reset. -/
  otp : Otp := {}
deriving DecidableEq, Repr

end Sys2Proof.Machine
end

