-- ==== Sys2Proof/Blocks/Islands.lean ====
section
/-! DEFINITION. The clock islands, the Replay reader, the capture ring, the Frame Sequencer and the non-determinism counters (spec 03_islands_order_and_replay). -/

namespace Sys2Proof.Machine

open Sys2Proof

/-- The clock islands and their enrolment (R68 to R71). -/
structure Islands where
  /-- ISL_CFG. -/
  cfg : IslCfg := {}
  /-- POWERED, ENROLLED and CLOCK_FAIL of ISL_CLK[i] (R518). -/
  powered : Vector Bool 144 := Vector.replicate 144 false
  enrolled : Vector Bool 144 := Vector.replicate 144 false
  clockFail : Vector Bool 144 := Vector.replicate 144 false
  /-- Write and read pointer of the crossing from each island to each other one, as the latest preset left them (R69, R70). -/
  crossing : Vector (Vector (Nat × Nat) 144) 144 := Vector.replicate 144 (Vector.replicate 144 (0, 0))
  /-- The stampers of an island are aligned to the time bus (R70). -/
  aligned : Vector Bool 144 := Vector.replicate 144 false
  /-- Enrolment markers sent since reset release, and the device time of the latest (R70). -/
  markers : Nat := 0
  markAt : T64 := 0
  /-- Phase enrolment has completed (ISL_STATUS.ENROLLED). -/
  allEnrolled : Bool := false
  /-- The island pair that failed to enrol (ISL_ENROL_STATUS). -/
  enrolFail : Option (Fin 144 × Fin 144) := none
deriving DecidableEq, Repr

/-- A chunk header that the replay reader has read (R87), with its place in the window. -/
structure Chunk where
  type : Nat
  stream : Nat
  length : Nat
  chunkNo : Word
  stamp : T64
  deliver : T64
  pos : Nat
deriving DecidableEq, Repr

/-- The replay write window and its reader (R85 to R91). -/
structure Replay where
  /-- The 4 MB replay write window (R88). -/
  window : List Host.Cell := []
  /-- ISL_REPLAY_WR and ISL_REPLAY_RD, byte counts modulo 2³² (R519). -/
  wr : Word := 0
  rd : Word := 0
  /-- Bytes up to which headers have been read (R90). -/
  head : Word := 0
  /-- Chunks read and not yet passed, in ring order. -/
  queue : List Chunk := []
  /-- Due time of the chunk read before (R89). -/
  lastDue : Option T64 := none
  /-- CHUNK_NO of the last chunk of each stream, 64 for STREAM 255 (R89). -/
  lastNo : Vector (Option Word) 65 := Vector.replicate 65 none
  /-- Watermark W[s] of each stream (R90); none is the 2⁶⁴ − 1 that an END chunk sets. -/
  mark : Vector (Option T64) 64 := Vector.replicate 64 (some 0)
  /-- Halted under R89. -/
  halted : Bool := false
  /-- Stalled under R90. -/
  stalled : Bool := false
  /-- The first START chunk has been loaded, and the first MAP chunk (R86). -/
  started : Bool := false
  mapped : Bool := false
deriving DecidableEq, Repr

/-- An item that a port has handed to a captured stream, still to be written (R92): its bytes as the port presented them, its pin stamp and
the device time at which it reached its headgate. -/
structure CapItem where
  stream : Fin 64
  stamp : T64
  deliver : T64
  bytes : Bytes
deriving DecidableEq, Repr

/-- The capture ring's writer (R92). -/
structure Capture where
  /-- Bytes written to the ring since reset (ISL_CAPTURE_WR counts them modulo 2³²); the ring itself lies in LPDDR5X. -/
  written : Nat := 0
  /-- Capture is writing; it stopped for a full ring. -/
  active : Bool := false
  full : Bool := false
  /-- CHUNK_NO of the next chunk of each stream, 64 for STREAM 255. -/
  nextNo : Vector Word 65 := Vector.replicate 65 0
  /-- Device time of each stream's latest WATERMARK chunk. -/
  lastMark : Vector T64 64 := Vector.replicate 64 0
  /-- The frame boundary just opened starts the capture: the device time at which it opened. -/
  startAt : Option T64 := none
  /-- Items of captured streams that wait to be written, oldest first. -/
  items : List CapItem := []
  /-- CAPTURE_LOSS. -/
  losses : Word := 0
deriving DecidableEq, Repr

/-- OUTCOME of a launch (R518). -/
inductive Launched where
  | waiting | running | complete | startMiss | runLong | deadlineMiss | skipped | stopped
deriving DecidableEq, Repr

/-- One launch j of a schedule entry in one frame (R81, R82). -/
structure Launch where
  frame : BitVec 64
  entry : Nat
  j : Nat
  outcome : Launched
  at_ : T64
  runShort : Bool := false
  /-- RUN_LONG has aborted the task; a later miss changes OUTCOME and not this. -/
  aborted : Bool := false
  /-- The instant of its completion, once it has completed. -/
  doneAt : Option T64 := none
deriving DecidableEq, Repr

/-- SEQ_ENTRY[e] (R518). -/
structure EntryReg where
  launch : BitVec 4 := 0
  outcome : BitVec 3 := 0
  runShort : Bool := false
  missRun : BitVec 8 := 0
deriving DecidableEq, Repr

/-- The counts of timing-dependent choices of one frame (R83). -/
structure Ndc where
  frame : BitVec 64 := 0
  late : Nat := 0
  overrun : Nat := 0
  tie : Nat := 0
  order : Nat := 0
deriving DecidableEq, Repr

/-- The Frame Sequencer (R79 to R84). -/
structure Seq where
  /-- The schedule table in force (R79), and the tables before it, newest first, each with the first frame of the one that
followed it (R111). -/
  table : List SchedEntry := []
  prev : List (BitVec 64 × List SchedEntry) := []
  /-- Launches of the latest frames, newest first. -/
  launches : List Launch := []
  /-- SEQ_ENTRY[e]. -/
  regs : Vector EntryReg 256 := Vector.replicate 256 {}
  /-- The launch that each target outside the TEs runs, by TARGET − 0x10 (R79). -/
  busy : Vector (Option (BitVec 64 × Nat × Nat)) 6 := Vector.replicate 6 none
  /-- Entries lost to SEQ_MEM_UE (R473). -/
  bad : List Nat := []
  /-- Launches (frame, entry, j) whose work is done and whose completion is still to be reported (R82). -/
  finished : List (BitVec 64 × Nat × Nat) := []
  /-- Counts of choices charged to the latest frames, newest first (R83). -/
  ndc : List Ndc := []
  /-- ISL_NDC: the counts of the last frame that completed (R84). -/
  ndcDone : Ndc := {}
  /-- TIMING_MISS and TIMING_ESCALATE (R516). -/
  timingMiss : Word := 0
  timingEscalate : Word := 0
  /-- Number of the latest frame closed (R245). -/
  closed : Option (BitVec 64) := none
deriving DecidableEq, Repr

end Sys2Proof.Machine
end

