-- ==== Sys2Proof/Blocks/Out.lean ====
section
/-! DEFINITION. The state of the outputs, of the CAN safety messages, of the Grotto and of the observation port (spec 19, 21, 22). -/

namespace Sys2Proof.Machine

open Sys2Proof

/-- An output message: the fields of its header (R446) other than FRAG, FRAGS and LAST, and its body. -/
structure OutMsg where
  stream : Fin 6
  valid : Bool
  stage : BitVec 2
  cls : BitVec 3
  pair : BitVec 4
  role : BitVec 2
  twinId : Bool
  assembled : Bool
  seq : Word
  frame : Word
  bn : T64
  aoc : Word
  tov : T64
  too : T64
  map : Bytes
  digest : Bytes
  body : Bytes
deriving DecidableEq, Repr

/-- A fragment in a transmit queue (R454): message, fragment index, sequence number of 802.1CB where it is replicated. -/
structure Fragment where
  msg : OutMsg
  frag : Nat
  frags : Nat
  rTag : Option (BitVec 16) := none
  /-- Wire bytes in the queue. -/
  size : Nat
deriving DecidableEq, Repr

/-- What protects a frame under 802.1AE (R452, R457): SCI, packet number, and whether its bytes are confidential. The bytes themselves are not built:
the spec gives no salt and no SSCI of the static keys. DESIGN CHOICE, log entry 135. -/
structure SecTag where
  sci : BitVec 64
  pn : BitVec 64
  confidential : Bool
deriving DecidableEq, Repr

/-- A frame that a vehicle port sends (R452, R454, R457): addresses, its tags as on the wire (VLAN tag, then R-TAG), UDP ports and the datagram. -/
structure TxFrame where
  dstMac : BitVec 48
  srcMac : BitVec 48
  tags : Bytes
  sec : Option SecTag := none
  dstIp : Bytes
  srcIp : Bytes
  srcUdp : Nat
  dstUdp : BitVec 16
  payload : Bytes
deriving DecidableEq, Repr

/-- A frame that a vehicle port sends in answer (R452, R453): the answer to an ARP request or Neighbor Solicitation, the answer to a
Pdelay_Req and, after it, its Follow_Up with the transmit stamp of the answer (R49). -/
inductive ControlFrame where
  | answer (request : Bytes)
  | pdelayResp (req : PtpReq)
  | pdelayFollowUp (req : PtpReq) (sent : T64)
deriving DecidableEq, Repr

/-- A vehicle port (R452 to R455). -/
structure OutPort where
  queues : Vector (List Fragment) 8 := Vector.replicate 8 []
  /-- Answers that wait in PTP_QUEUE, oldest first, and the latest one sent (R453). -/
  control : List ControlFrame := []
  controlSent : Option ControlFrame := none
  /-- The latest frame sent and its start. -/
  sent : Option (Fragment × T64) := none
  /-- That frame's addresses, tags and datagram, and the number of protected frames sent (R452). -/
  wire : Option TxFrame := none
  protectedFrames : BitVec 64 := 0
  /-- Transmit stamp of the latest frame at the port's reference plane (R40, R51). -/
  txStamp : T64 := 0
  /-- The port sends until then. -/
  busyUntil : T64 := 0
  /-- Counters of R517. -/
  txFrames : Word := 0
  txDrop : Word := 0
  txStale : Word := 0
  linkDownDrop : Word := 0
deriving DecidableEq, Repr

/-- An output ring (R466): its bytes by ring offset and OUT_RING_WR. -/
structure Ring where
  cells : List Host.Cell := []
  wr : Word := 0
deriving DecidableEq, Repr

/-- One CAN-S channel (R460): transmit buffers of SM0 and SM1 with the 32 bytes to send and the build instant, counters and totals. -/
structure CanOut where
  buf : Vector (Option (Bytes × T64)) 2 := Vector.replicate 2 none
  counter : Vector (BitVec 8) 2 := Vector.replicate 2 0
  sent : Vector Word 2 := Vector.replicate 2 0
  /-- Data, identifier and format (CAN XL, else CAN FD) of the latest frame sent, and CAN_STALE. -/
  last : Option Bytes := none
  lastId : Option CanId := none
  lastXl : Bool := false
  stale : Word := 0
  /-- A bus-off recovery's first SM0 has still to go out (R461). -/
  freshDue : Bool := false
deriving DecidableEq, Repr

/-- The state that an SM0 reports and whose change builds one (R458). -/
structure Sm0State where
  stage : BitVec 2 := 0
  cls : BitVec 3 := 0
  safety : BitVec 2 := 0
  pair : BitVec 4 := 0
  role : BitVec 2 := 0
  safeOk : Bool := false
deriving DecidableEq, Repr

/-- Output assembly and its streams. -/
structure Outputs where
  /-- OUT_CFG and CANSAFE settings of the image. -/
  cfg : OutCfg := {}
  can : CanSafeCfg := {}
  installed : Bool := false
  /-- MSG_SEQ of the next message and 802.1CB sequence number of the next fragment of each stream. -/
  seq : Vector Word 6 := Vector.replicate 6 0
  cb : Vector (BitVec 16) 6 := Vector.replicate 6 0
  /-- Vehicle ports P6 and P7, and the output ring of each stream. -/
  port : Vector OutPort 2 := Vector.replicate 2 {}
  ring : Vector Ring 6 := Vector.replicate 6 {}
  /-- The latest message of each stream. -/
  last : Vector (Option OutMsg) 6 := Vector.replicate 6 none
  /-- The latest frame published, and the frame digests of the latest frames, newest first (R93). -/
  published : Option (BitVec 64) := none
  /-- ASSEMBLED of that frame (R447). -/
  assembled : Bool := false
  digests : List (BitVec 64 × Bytes) := []
  /-- CAN-S0 and CAN-S1. -/
  chan : Vector CanOut 2 := Vector.replicate 2 {}
  /-- Latest SM0: its state and build instant; none before S1. -/
  sm0 : Option (Sm0State × T64) := none
  /-- What the latest SM0_BUILD found, and the cause of a change that waits for MIN_GAP. -/
  sm0Seen : Sm0State := {}
  sm0Due : Option Word := none
  /-- Number of the latest GUARD_PERIOD for which an SM1 was built. -/
  sm1 : Option Nat := none
deriving DecidableEq, Repr

/-- A Grotto monitor's record (R489, R492). -/
structure Monitor where
  samples : Word := 0
  dropped : Word := 0
  firstToo : T64 := 0
  lastToo : T64 := 0
  /-- MIN, MAX and what goes with them (R492). -/
  min : Word := 0x7FFFFFFF
  max : Word := 0x80000000
  minSeq : BitVec 48 := 0
  maxSeq : BitVec 48 := 0
  minToo : T64 := 0
  maxToo : T64 := 0
  sum : BitVec 64 := 0
  bins : Vector Word 64 := Vector.replicate 64 0
deriving DecidableEq, Repr, Inhabited

/-- A sample on its way to the Grotto (R486): source code, instance and value. -/
structure Sample where
  source : Nat
  inst : Nat
  value : Int
deriving DecidableEq, Repr

/-- The Grotto (R485 to R495). -/
structure Grotto where
  /-- Samples that have not reached it yet, oldest first. -/
  samples : List Sample := []
  /-- GRT_MON and the monitors. -/
  cfg : Vector MonCfg 64 := Vector.replicate 64 {}
  mon : Vector Monitor 64 := Vector.replicate 64 {}
  /-- GRT_CTRL.FREEZE with the instant from which recording has stopped, EXPIRED and GRT_CURSOR.MON. -/
  freeze : Option T64 := none
  expired : Bool := false
  cursor : Fin 64 := 0
deriving DecidableEq, Repr

/-- A record register's latch (R501): its first word's address and the words as captured. -/
structure RecLatch where
  addr : Nat
  bytes : Bytes
deriving DecidableEq, Repr

/-- The observation port (R464 to R466, R497 to R503). -/
structure Observation where
  /-- OBP_CAP_WIN.BASE. -/
  capWin : BitVec 7 := 0
  /-- OBP_CFG.WIN. -/
  win : Vector (Nat × Nat) 16 := Vector.replicate 16 (0, 0)
  /-- OBP_WRITE_DROP, OBP_BAR0_DROP and OBP_UE (R517). -/
  writeDrop : Word := 0
  bar0Drop : Word := 0
  ue : Word := 0
  /-- MSI-X table entry 0: four words (address low, address high, data, vector control). -/
  msix : Vector Word 4 := #v[0, 0, 0, 1]
  /-- MSI-X messages sent, as address and data of the latest. -/
  msixSent : Option (BitVec 64 × Word) := none
  /-- The pending bit of the vector: a message waits for its mask to end. -/
  msixPending : Bool := false
  /-- Record latches (R501). -/
  latches : List RecLatch := []
  /-- Value that the latest read returned. -/
  readData : Bytes := []
deriving DecidableEq, Repr

end Sys2Proof.Machine
end

