-- ==== Sys2Proof/Blocks/Power.lean ====
section
/-! DEFINITION. Reset, straps, temperatures, supplies and boundary scan (spec 23 R525 to R531, R542). -/

namespace Sys2Proof.Machine

open Sys2Proof

/-- A temperature sensor (R542): latest reading in 0.1 °C, consecutive readings at each threshold, TEMP_WARN armed. -/
structure TempSensor where
  reading : Int := 0
  warnRun : Nat := 0
  limitRun : Nat := 0
  armed : Bool := true
  limited : Bool := false
deriving DecidableEq, Repr, Inhabited

/-- The three straps (R528). -/
structure Straps where
  twinId : Bool
  strapA : Bool
  strapB : Bool
deriving DecidableEq, Repr

/-- Reset, straps, sensors and boundary scan. -/
structure Power where
  /-- Internal power-on reset is held (R526). -/
  por : Bool := false
  /-- RESET_N holds the device in reset. -/
  resetN : Bool := true
  /-- Straps sampled at reset release. -/
  straps : Option Straps := none
  /-- The eight temperature sensors (R542). -/
  temp : Vector TempSensor 8 := Vector.replicate 8 {}
  /-- Device time of the latest readings (R542, R486). -/
  readAt : Option T64 := none
  /-- Supply monitors: latest reading in mV, and whether SUPPLY_FAIL has been raised. -/
  supply : Vector Nat 16 := Vector.replicate 16 0
  supplyFail : BitVec 16 := 0
  /-- An unlock certificate has been presented, and EXTEST is in force (R530). -/
  unlocked : Bool := false
  extest : Bool := false
deriving DecidableEq, Repr

end Sys2Proof.Machine
end

