-- ==== Sys2Proof/Syntax.lean ====
section
/-! DEFINITION. The commands of the block: one constructor per row of spec/opcode_table.json, in the table's order.
The table gives its rows no bits and no operands; a constructor carries what reaches the device from outside in that
event (an instance, a stamp, the bytes received), see notes/assumptions/1.md. -/

namespace Sys2Proof

open Sys2Proof.Machine

/-- A command: one operation or event of the device (spec/opcode_table.json). -/
inductive Instr where
  /-- RESET_ASSERT (R527): A recognised reset drives SAFE_OK_A, SAFE_OK_B and FAULT_N low within 200 ns and then sets every output ball to high impedance. -/
  | resetAssert
  /-- RESET_N_SHORT_PULSE (R526): A low pulse on RESET_N shorter than 1 µs is ignored. -/
  | resetNShortPulse
  /-- POWER_ON_RESET (R526): The internal power-on reset is held while any supply monitor reads out of range. -/
  | powerOnReset (inRange : Bool)
  /-- RESET_RELEASE (R526): Reset release sets the device epoch, samples the straps and starts phase enrolment and the BCC. -/
  | resetRelease (straps : Straps)
  /-- PHASE_ENROLMENT_MARKER (R70): An enrolment marker makes each crossing preset its pointers and each stamper align to the time bus. -/
  | phaseEnrolmentMarker (missing : Option (Fin 144 × Fin 144))
  /-- ISLAND_REENROL (R71): An island powered on at a stage is enrolled again against its neighbours before any crossing to it carries data. -/
  | islandReenrol (island : Fin 144) (lines : BitVec 3)
  /-- SUPPLY_FAIL (R525): A monitored rail that stays outside its operating range for 2 µs raises SUPPLY_FAIL, class C3. -/
  | supplyFail (monitor : Fin 16)
  /-- TEMPERATURE_READING (R542): Every 1 ms each temperature sensor is read, and TEMP_WARN or TEMP_LIMIT is raised on two consecutive readings at their thresholds. -/
  | temperatureReading (readings : Vector Int 8) (supplies : Vector Nat 16)
  /-- CLOCK_FAIL (R529): REFCLK stopping or an island clock off nominal by more than 2 % over 10 µs raises CLOCK_FAIL at its island's class. -/
  | clockFail (island : Fin 144)
  /-- SFDP_READ (R95): At reset release the BCC resets each xSPI device, reads its SFDP table and switches it to 8D-8D-8D mode. -/
  | sfdpRead (slot : Fin 2) (capacity : Nat)
  /-- NO_DEVICE_TIMEOUT (R95): A slot device that does not answer SFDP within 500 µs of reset release is recorded with reason NO_DEVICE. -/
  | noDeviceTimeout (slot : Fin 2)
  /-- HEADER_CHECK (R105): The BCC checks each slot's header and section table in order and records the first failing reason code. -/
  | headerCheck (slot : Fin 2) (header : Bytes) (table : Bytes)
  /-- SECTION_READ (R107): A section is read, checked against its digest, tag, content and capability rules and installed, or fails with the outcome for its STAGE. -/
  | sectionRead (stored : Bytes)
  /-- STAGE_ENTRY_S1 (R111): At the next Gₖ after enrolment and all STAGE 1 sections are complete, the device enters S1 and SAFE_OK_A and SAFE_OK_B rise. -/
  | stageEntryS1
  /-- STAGE_ENTRY_S2 (R111): At the next Bₙ after every STAGE 2 section is installed and LPDDR5X is trained, the device enters S2. -/
  | stageEntryS2
  /-- STAGE_ENTRY_S3 (R111): At the next Bₙ after every STAGE 3 section is installed, the device enters S3 and the S3 SCHEDULE and PCU sections take over. -/
  | stageEntryS3
  /-- STAGE_LATE (R114): S1 not entered 35 ms after reset release, or S3 not entered after 1.2 s, raises STAGE_LATE, class C0. -/
  | stageLate
  /-- TIME_BUS_INCREMENT (R44): At each 4 ns period of the time bus, device time advances by the current increment. -/
  | timeBusIncrement (periods : Nat)
  /-- PTP_SYNC_RECEIVED (R53): A Sync of a domain yields a measured offset, updates that source's estimator and runs the source state machine. -/
  | ptpSyncReceived (port : Fin 2) (domain : BitVec 7) (rx : T64) (originNs : Nat) (correction : Int) (logInterval : Int)
  /-- PTP_ANNOUNCE_RECEIVED (R53): An Announce starts listening for its source or, with a new grandmaster identity, raises GM_CHANGE. -/
  | ptpAnnounceReceived (port : Fin 2) (domain : BitVec 7) (attrs : GmAttrs) (logInterval : Int)
  /-- PDELAY_MEASUREMENT (R53): A completed peer-delay measurement gives the path delay of the port. -/
  | pdelayMeasurement (port : Fin 2) (seqId : BitVec 16) (t2 : Int) (t3 : Int) (rx : T64)
  /-- SYNC_TIMEOUT_EXPIRY (R53): No Sync for SYNC_TIMEOUT intervals returns the source to LISTENING with event SRC_LOST. -/
  | syncTimeoutExpiry (source : Src)
  /-- ANNOUNCE_TIMEOUT_EXPIRY (R53): No Announce for ANNOUNCE_TIMEOUT intervals returns the source to LISTENING with event SRC_LOST. -/
  | announceTimeoutExpiry (source : Src)
  /-- MAP_GUARD_EXPIRY (R54): When MAP_GUARD has elapsed in SETTLING, the map becomes LOCKED. -/
  | mapGuardExpiry
  /-- HOLD_LIMIT_EXPIRY (R54): When HOLD_LIMIT has elapsed in HOLDOVER, the map becomes FREE with DOMAIN 0. -/
  | holdLimitExpiry
  /-- REF10M_EDGE (R57): A REF10M_IN rising edge is stamped and, in HOLDOVER with EXT10M, steers the increment. -/
  | ref10mEdge (stamp : T64)
  /-- REF10M_LOST (R57): No REF10M_IN edge for 1 µs holds the increment and raises REF10M_LOST. -/
  | ref10mLost
  /-- PPS_IN_EDGE (R58): A PPS_IN rising edge is stamped and its residual to the whole second is recorded in the Grotto. -/
  | ppsInEdge (stamp : T64)
  /-- FRAME_BOUNDARY (R60): A frame boundary Bₙ opens frame n, and the grid is re-anchored with a stretched frame after a map jump. -/
  | frameBoundary
  /-- TRIGGER_EDGE (R62): A trigger output places a pulse edge at its scheduled device time. -/
  | triggerEdge (output : Fin 16) (pulse : Fin 8) (leading : Bool) (stamp : T64)
  /-- PPS_OUT_EDGE (R63): PPS_OUT rises at each integer second of mapped time and falls after PPS_WIDTH. -/
  | ppsOutEdge
  /-- TIME_TRANSFER_EXCHANGE (R64): Every 100 µs each unit sends a time-transfer marker, and the stamps returned update the filtered peer offset. -/
  | timeTransferExchange (tx : T64) (reply : Option (T64 × T64 × T64)) (peerMapOffset : Nat) (peerGm : GmAttrs)
  /-- SLUICE_INTAKE (R75): In each Sluice cycle one presented event is taken, numbered with SEQ and delivered to its destinations. -/
  | sluiceIntake
  /-- EVENTS_LOST (R75): When space frees in a full intake FIFO, the island queues one EVENTS_LOST event carrying the count. -/
  | eventsLost (island : Fin 144)
  /-- SLUICE_IRQ_ACK_LOW_WRITE (R508): A write to offset 0x0008 stages the low word of SLUICE_IRQ_ACK.SEQ. -/
  | sluiceIrqAckLowWrite (value : Word)
  /-- SLUICE_IRQ_ACK_HIGH_WRITE (R508): A write to offset 0x000C sets SLUICE_IRQ_ACK.SEQ from the staged low word, which can release IRQ_N. -/
  | sluiceIrqAckHighWrite (value : Word)
  /-- SCHEDULE_LAUNCH (R81): The Frame Sequencer launches a schedule entry once its START is reached, its PRED has completed and its target can accept. -/
  | scheduleLaunch (frame : BitVec 64) (entry : Fin 256) (j : Fin 16) (ue : Bool)
  /-- START_MISS (R82): An entry not launched by Bₙ + START + WINDOW raises START_MISS and its successors are skipped. -/
  | startMiss (frame : BitVec 64) (entry : Fin 256) (j : Fin 16)
  /-- RUN_LONG (R82): A task not complete by t + MAX_RT raises RUN_LONG and is aborted at the next list boundary. -/
  | runLong (frame : BitVec 64) (entry : Fin 256) (j : Fin 16)
  /-- DEADLINE_MISS (R82): A task not complete by Bₙ + DEADLINE raises DEADLINE_MISS and its successors are skipped. -/
  | deadlineMiss (frame : BitVec 64) (entry : Fin 256) (j : Fin 16)
  /-- TASK_COMPLETION (R82): A task's completion is reported, and the RUN_SHORT check is applied. -/
  | taskCompletion (frame : BitVec 64) (entry : Fin 256) (j : Fin 16)
  /-- FRAME_CLOSE (R245): At Bₙ₊₁ + CLOSE_DELAY the frame closes, and the headgates, the PAU close pass and the PCU are signalled. -/
  | frameClose
  /-- ISL_REPLAY_WR_WRITE (R519): A write of ISL_REPLAY_WR advances the replay write pointer, or is discarded if out of range or not in Replay mode. -/
  | islReplayWrWrite (value : Word)
  /-- REPLAY_CHUNK_HEADER_READ (R90): The replay reader reads a chunk header in ring order, checks its order and enters its due time into the watermarks. -/
  | replayChunkHeaderRead
  /-- REPLAY_START_CHUNK (R86): The first START chunk, read after S3, loads device time and the first frame number and Bₙ. -/
  | replayStartChunk
  /-- REPLAY_MAP_CHUNK (R86): A MAP chunk installs its time map at the Gₖ given in its STAMP. -/
  | replayMapChunk
  /-- REPLAY_RECORD_DELIVER (R90): When device time reaches DELIVER, the payload of a RECORD chunk is handed to its headgate and ISL_REPLAY_RD advances. -/
  | replayRecordDeliver
  /-- REPLAY_STALL (R90): Device time reaching the smallest watermark stops every island except PCIe at one REFCLK edge. -/
  | replayStall
  /-- REPLAY_STALL_END (R90): The stall ends at the first REFCLK edge at which the smallest watermark exceeds device time. -/
  | replayStallEnd
  /-- CAPTURE_START (R92): At a frame boundary in S3, or once a quarter of the ring is free after a loss, capture writes a START chunk and a MAP chunk. -/
  | captureStart
  /-- CAPTURE_WATERMARK (R92): Each enabled stream receives a WATERMARK chunk every 1 ms of device time. -/
  | captureWatermark (stream : Fin 64)
  /-- CAPTURE_RECORD_WRITE (R92): Each captured item is written as a RECORD chunk, and a full ring stops capture and raises CAPTURE_LOSS once. -/
  | captureRecordWrite (stream : Fin 64)
  /-- CSI2_PACKET_RECEIVED (R122): A CSI-2 packet is ECC-checked, stamped and handed to the headgate of its virtual channel, or discarded and counted. -/
  | csi2PacketReceived (port : Fin 8) (packet : CsiPacket)
  /-- ETHERNET_FRAME_RECEIVED (R126): A received sensor Ethernet frame is FCS-checked, stamped and matched to a headgate, or discarded and counted. -/
  | ethernetFrameReceived (port : Fin 8) (bytes : Bytes) (stamp : T64)
  /-- PTP_MASTER_SEND (R50): A sensor port sends its PTP master messages, announcing the grandmaster attributes for the map state. -/
  | ptpMasterSend (port : Fin 6) (kind : PtpKind) (tx : T64)
  /-- SPI_INIT (R136): When its section is installed, an SPI port runs its INIT writes and check reads, raising IMU_INIT_FAIL on a mismatch. -/
  | spiInit (k : Fin 4) (reads : List Bytes)
  /-- SPI_DRDY_EDGE (R137): An active data-ready edge is stamped and starts a burst read, or is held pending. -/
  | spiDrdyEdge (k : Fin 4) (stamp : T64)
  /-- SPI_BURST_COMPLETE (R137): A completed burst hands its sample to the headgate and starts any pending burst after the chip-select gap. -/
  | spiBurstComplete (k : Fin 4) (bytes : Bytes)
  /-- SPI_POLL (R138): In POLL mode a burst starts every POLL_PERIOD of device time. -/
  | spiPoll (k : Fin 4)
  /-- ENCODER_EDGE (R139): An edge on A, B or Z is stamped and decoded into the position count. -/
  | encoderEdge (e : Fin 8) (line : BitVec 2) (level : Bool) (stamp : T64)
  /-- ENCODER_CODE_ISSUE (R141): MIN_PULSE after its edge an edge code is issued to the headgate, with glitches removed and illegal edge pairs marked. -/
  | encoderCodeIssue (e : Fin 8)
  /-- CAN_FRAME_RECEIVED (R143): A CAN frame whose end of frame completes without error is filtered and handed on with its SOF stamp. -/
  | canFrameReceived (c : Fin 4) (frame : CanFrame) (stamp : T64)
  /-- CAN_ERROR_FRAME (R143): A frame destroyed by an error frame is never handed on, and its stamp is discarded. -/
  | canErrorFrame (c : Fin 4) (tec : BitVec 8) (rec_ : BitVec 8)
  /-- SCRIPT_STEP (R146): A configuration script runs its next WRITE, READ_CHECK or DELAY step, retrying up to 3 times and raising SCRIPT_FAIL on failure. -/
  | scriptStep (m : Fin 2) (result : StepResult)
  /-- BUS_RECOVERY (R147): SDA held low or a stretch timeout starts up to 16 SCL pulses and a stop, ending recovered or stuck. -/
  | busRecovery (m : Fin 2) (lowNs : Nat) (sda : Vector Bool 16)
  /-- BUS_STUCK_RETRY (R148): One second in STUCK starts a further recovery, and the eighth stuck result makes the bus DEAD. -/
  | busStuckRetry (m : Fin 2)
  /-- HEADGATE_ITEM (R157): A headgate passes an item through its check chain and writes its records, or rejects it and counts it. -/
  | headgateItem (h : Fin 64)
  /-- EXTERNAL_MASK_RELEASE (R165): Release of a MISALIGNED or EXTERNAL reason by its masking block moves a stream with no other reason to RESYNC. -/
  | externalMaskRelease (h : Fin 64) (reason : BitVec 8)
  /-- PKT_GAP_EXPIRY (R165): No item for PKT_GAP within an open unit moves the stream to GAP and closes the unit as partial. -/
  | pktGapExpiry (h : Fin 64)
  /-- STREAM_TIMEOUT (R165): TIMEOUT elapsing in ACTIVE, PROBATION or GAP moves the stream to TIMED_OUT and raises STREAM_TIMEOUT, class C1. -/
  | streamTimeout (h : Fin 64)
  /-- STREAM_ABSENT (R165): TIMEOUT after installation with no item accepted raises STREAM_ABSENT, class C1, once. -/
  | streamAbsent (h : Fin 64)
  /-- DATA_FLUME_WRITE_CYCLE (R480): In each headgate cycle the records are judged against the free space, written or ignored as FLUME_OVERRUN, and FULL and LEVEL updated. -/
  | dataFlumeWriteCycle (h : Fin 64)
  /-- FLUME_READ (R480): A reader reads a record from a data flume and frees its space. -/
  | flumeRead (h : Fin 64) (ue : Bool)
  /-- FLUME_DROP (R482): A reader drops the rest of the current item, skipping records until LAST or a new ITEM_NO. -/
  | flumeDrop (h : Fin 64)
  /-- PL_INPUT_RECORD (R198): The Pose Ladder takes a record from its flume, or discards one at or before the last written rung as POSE_INPUT_BEHIND. -/
  | plInputRecord
  /-- RUNG_WRITE (R197): At k µs + LAG the estimator processes the inputs with TOV up to k µs and writes rung k. -/
  | rungWrite (lockstepOk : Bool)
  /-- POSE_MASK_RELEASE (R203): MASK_HOLD after an IMU or encoder mask, the mask is released. -/
  | poseMaskRelease (isImu : Bool) (entry : Fin 8)
  /-- COAST_MAX_EXPIRY (R205): COAST_MAX elapsing in COAST moves the Pose Ladder to LOST with POSE_LOST, class C3. -/
  | coastMaxExpiry
  /-- IMU_ONLY_MAX_EXPIRY (R205): Continuous time in SLIP and IMU_ONLY beyond IMU_ONLY_MAX moves the Pose Ladder to LOST with POSE_LOST, class C3. -/
  | imuOnlyMaxExpiry
  /-- POSE_QUERY (R207): A pose query is answered by interpolation, extrapolation, TOO_OLD, TOO_NEW or EVICTED. -/
  | poseQuery (port : Fin 8) (t : T64) (alpha : T64) (lockstepOk : Bool)
  /-- LIVE_RECORD (R211): At each whole microsecond the live record is issued and swapped into the Guard's buffer. -/
  | liveRecord (lockstepOk : Bool)
  /-- POINT_COMPENSATE (R221): A compensation pipe transforms a range point into its frame's reference frame and hands the core to Channel B and decoration. -/
  | pointCompensate (pipe : Fin 4) (crcBad : Bool)
  /-- POINT_POSE_WAIT (R222): A point that waits for the reference pose of its frame is compensated when that pose becomes known, or discarded. -/
  | pointPoseWait (pipe : Fin 4) (crcBad : Bool)
  /-- POINT_PROJECT (R227): A compensated point is projected into each camera of its list, iterating on rows as they arrive. -/
  | pointProject (point : Nat)
  /-- PAU_CLOSE_PASS (R229): At frame close the PAU marks occlusion, decorates, forms residuals and hands the points to the PCU. -/
  | pauClosePass
  /-- ALIGN_STEP_APPLY (R236): A converged alignment solve applies a new extrinsic set at Bₙ₊₂ and updates each sensor's alignment state. -/
  | alignStepApply
  /-- MIS_HOLD_EXPIRY (R237): MIS_HOLD after a MISALIGNED mask, the sensor returns to NOMINAL or becomes HELD. -/
  | misHoldExpiry (sensor : Fin 24)
  /-- PCU_TASK (R243): The PCU runs the clear, hand-over, cap, order, voxelisation, sampling, rulebook, BEV index and completion steps of a frame. -/
  | pcuTask (abortAfter : Fin 9)
  /-- LIST_START (R282): At a list boundary the engine takes the next list from the highest-priority ready queue. -/
  | listStart (t : Fin 4) (ue : Bool)
  /-- QUEUE_FLUSH (R284): A flush removes a queue's launch entries and ends its running chain at the next list boundary. -/
  | queueFlush (t : Fin 4) (q : Fin 4)
  /-- NOP (R302): The NOP command does nothing. -/
  | nop (t : Fin 4)
  /-- COPY (R304): COPY writes each src element into dst with conversion. -/
  | copy (t : Fin 4) (ecc : EccFind)
  /-- FILL (R304): FILL writes a converted constant into every element of dst. -/
  | fill (t : Fin 4) (ecc : EccFind)
  /-- MATMUL (R306): MATMUL accumulates A × B in K-blocks and applies the epilogue. -/
  | matmul (t : Fin 4) (ecc : EccFind)
  /-- CONV (R307): CONV runs a matrix command over the window-expanded input. -/
  | conv (t : Fin 4) (ecc : EccFind)
  /-- SPCONV (R308): SPCONV runs a sparse convolution over a rulebook, or writes zeros on a rulebook mismatch. -/
  | spconv (t : Fin 4) (ecc : EccFind)
  /-- GATHER (R309): GATHER copies indexed src rows into dst, giving zero rows for invalid indices. -/
  | gather (t : Fin 4) (ecc : EccFind)
  /-- SCATTER (R310): SCATTER writes, adds or maxes src rows into dst at indexed offsets. -/
  | scatter (t : Fin 4) (ecc : EccFind)
  /-- VUNARY (R311): VUNARY applies a unary function to each element. -/
  | vunary (t : Fin 4) (ecc : EccFind)
  /-- VBINARY (R311): VBINARY combines elements of equal index with a binary operation. -/
  | vbinary (t : Fin 4) (ecc : EccFind)
  /-- VFMA (R311): VFMA computes a × b + c with one rounding. -/
  | vfma (t : Fin 4) (ecc : EccFind)
  /-- REDUCE (R312): REDUCE folds src along one axis by sum, max, min or arg. -/
  | reduce (t : Fin 4) (ecc : EccFind)
  /-- SOFTMAX (R313): SOFTMAX computes a masked softmax along dimension 0. -/
  | softmax (t : Fin 4) (ecc : EccFind)
  /-- NORM (R314): NORM applies layer or RMS normalisation along dimension 0. -/
  | norm (t : Fin 4) (ecc : EccFind)
  /-- ATTEND (R316): ATTEND computes attention of each track's query over its key/value history. -/
  | attend (t : Fin 4) (ecc : EccFind)
  /-- KV_APPEND (R317): KV_APPEND writes a token into a track's staging slot. -/
  | kvAppend (t : Fin 4) (ecc : EccFind)
  /-- KV_FLUSH (R317): KV_FLUSH copies a full staging slot into its page. -/
  | kvFlush (t : Fin 4) (ecc : EccFind)
  /-- KV_SCATTER (R317): KV_SCATTER writes a token directly into a track's page. -/
  | kvScatter (t : Fin 4) (ecc : EccFind)
  /-- SIGNAL (R318): SIGNAL writes frame and tag into a sync word once every earlier write of its list is visible. -/
  | signal (t : Fin 4)
  /-- WAIT (R318): WAIT completes when the sync word matches the expected frame and tag. -/
  | wait (t : Fin 4)
  /-- WAIT_TIMEOUT (R320): A WAIT whose TIMEOUT expires raises SYNC_TIMEOUT and stops its list and chain. -/
  | waitTimeout (t : Fin 4)
  /-- DIGEST (R321): DIGEST writes the SHA-256 of src or folds it into the golden digest. -/
  | digest (t : Fin 4) (ecc : EccFind)
  /-- GOLDEN_CHECK (R322): GOLDEN_CHECK compares the golden digest and flags with the expected values and raises GOLDEN_FAIL on a mismatch. -/
  | goldenCheck (t : Fin 4)
  /-- LIST_COMPLETION (R323): At the end of a list the engine writes its completion record and TE_QFLAGS and may raise ARITH_FLAGS. -/
  | listCompletion (t : Fin 4)
  /-- TRACKER_TASK (R355): The Tracker reads the detections, costs, assigns, updates lifecycles, writes the tracks and builds track memory. -/
  | trackerTask
  /-- MPC_BATCH (R378): An MPC batch takes its feed and pose, solves the candidates on the lanes and writes the motion command. -/
  | mpcBatch
  /-- ALIGN_SOLVE (R381): The alignment task solves the alignment QP on ALIGN_LANE once that lane is idle. -/
  | alignSolve
  /-- CB_HIT_ENTRY (R386): A compensated hit sets LAST_HIT of its cell in the Channel B grid. -/
  | cbHitEntry
  /-- CB_SEEN_MARKING (R387): At a SWEEP_END of an ACTIVE stream, Channel B casts rays and marks the covered sectors seen. -/
  | cbSeenMarking
  /-- GRID_RECENTRE (R385): Every 1 ms the grid window is centred again on the live record's cell. -/
  | gridRecentre
  /-- GRID_SCRUB (R385): The grid scrub sets old cell times to NEVER, visiting every cell once per 4,096 ms. -/
  | gridScrub
  /-- CB_ECC (R385): An uncorrectable grid cell is set to NEVER and raises CB_ECC, class C1. -/
  | cbEcc (cell : Option (Nat × Nat))
  /-- TABLE_START (R389): At each multiple of TABLE_PERIOD, Channel B starts a stopping-distance table, or skips it with CB_TABLE_LATE. -/
  | tableStart
  /-- TABLE_SWAP (R390): A completed table is swapped into the Guard's double buffer. -/
  | tableSwap
  /-- WEIR_TASK (R394): The Weir compares the summary with Channel B, decides a verdict and swaps it into the Guard's buffer. -/
  | weirTask
  /-- GUARD_CYCLE_LATCH (R398): At each Gₖ the Guard Engine latches its inputs and computes guard word k. -/
  | guardCycleLatch (lockstepOk : Bool) (ecc : EccFind) (poseCrcBad : Bool)
  /-- GUARD_LATE (R420): A guard word not ready at Gₖ + 700 ns raises GUARD_LATE, class C3. -/
  | guardLate
  /-- GUARD_PORT_FRAME (R402): GP0 and GP1 send the 40-byte frame of word k from Gₖ + 700 ns. -/
  | guardPortFrame
  /-- PL_RUNG_LATE (R420): Rung k not visible by k µs + LAG + 10 µs raises PL_RUNG_LATE, class C1. -/
  | plRungLate
  /-- FAULT_COLLECTION (R407): A C2 or C3 fault line reaching the Spillway sets its latch and moves the safety state. -/
  | faultCollection
  /-- C2_RELEASE (R409): After C2_CLEAR agreeing frames with rearm allowed, every C2 line is released at the next Gₖ. -/
  | c2Release
  /-- SAFE_OK_STUCK (R417): A safe-state pin that differs from its latch for 1 µs sets both C3 latches and raises SAFE_OK_STUCK. -/
  | safeOkStuck (path : Bool)
  /-- SUPERVISOR_WATCHDOG_EXPIRY (R418): A supervisor's kick absent for 50 µs holds it in reset; both absent set the safe state. -/
  | supervisorWatchdogExpiry (sup : Fin 2)
  /-- SUPERVISOR_HEARTBEAT (R422): Every 10 µs each supervisor sends a heartbeat to the other and kicks its watchdog. -/
  | supervisorHeartbeat (sup : Fin 2) (digest : Word)
  /-- HEARTBEAT_ABSENT (R423): A heartbeat absent for 30 µs loses the silent supervisor with SUPERVISOR_LOST, class C1. -/
  | heartbeatAbsent (sup : Fin 2)
  /-- SUPERVISOR_SELF_CHECK (R423): After differing digests, the known-answer self-check ends by losing one supervisor or raising SUPERVISOR_DISAGREE. -/
  | supervisorSelfCheck (passA : Bool) (passB : Bool)
  /-- SELF_TEST_SLICE (R424): Each frame one self-test slice injects a tagged fault into a checker and raises SELFTEST_FAIL if it is not reported. -/
  | selfTestSlice (reported : Bool) (tagged : Bool)
  /-- QANAT_LINK_UP (R428): Training brings all four lanes into block lock, and the link comes up with a new session. -/
  | qanatLinkUp
  /-- QANAT_CELL_RECEIVED (R429): A received cell is CRC- and session-checked and assembled into its message. -/
  | qanatCellReceived (cell : Cell)
  /-- HELLO_SEND (R431): At link-up and every 1 ms a HELLO carries TWIN_ID, the levels and the image digest. -/
  | helloSend
  /-- STATUS_SEND (R430): Every 10 µs a STATUS message carries role, safety state, pair state, stage and epoch digest. -/
  | statusSend
  /-- GUARD_MESSAGE_SEND (R430): Guard word k is sent whole to the peer within 800 ns of Gₖ. -/
  | guardMessageSend
  /-- LINK_LOSS (R438): No valid cell for LINK_TIMEOUT moves the pair state to LINK_LOST_PEER_ALIVE or PEER_UNKNOWN. -/
  | linkLoss
  /-- ALIVE_TIMEOUT (R433): No TWIN_ALIVE_IN edge for ALIVE_TIMEOUT makes the peer's alive not seen. -/
  | aliveTimeout
  /-- TWIN_ALIVE_TOGGLE (R433): TWIN_ALIVE_OUT toggles at every whole microsecond of device time. -/
  | twinAliveToggle
  /-- TWIN_SYNC_PULSE (R433): TWIN_SYNC_OUT is high from each Bₙ for 1 µs. -/
  | twinSyncPulse
  /-- TWIN_SYNC_IN_EDGE (R433): A TWIN_SYNC_IN rising edge is stamped and its residual recorded in the Grotto. -/
  | twinSyncInEdge (rising : Bool) (stamp : T64)
  /-- WITNESS_PULSE (R435): A stamped WITNESS pulse is decoded, and three equal valid codes change the role at the next Gₖ. -/
  | witnessPulse (rise : T64) (fall : T64)
  /-- WITNESS_LOST (R435): No valid WITNESS pulse for WITNESS_TIMEOUT raises WITNESS_LOST, class C1. -/
  | witnessLost
  /-- ROLE_CONFLICT (R436): Both units reporting PRIMARY for 1 ms raise ROLE_CONFLICT, class C0. -/
  | roleConflict
  /-- XCHECK_SEND (R441): At the publication of frame n each unit sends its cross-check record. -/
  | xcheckSend
  /-- XCHECK_COMPARE (R443): Own and peer records of a frame are paired and compared, driving the pair state. -/
  | xcheckCompare
  /-- PUBLICATION (R447): At output assembly completion, or at Bₙ + D_pub without it, the frame's output messages are queued. -/
  | publication
  /-- GUARD_STREAM_MESSAGE (R445): Every GUARD_DIV guard cycles a GUARD message is emitted. -/
  | guardStreamMessage
  /-- FRAGMENT_TRANSMIT (R453): A fragment leaves its port when its queue's gate lets its last bit out before the gate closes. -/
  | fragmentTransmit (port : Fin 2) (queue : Fin 8) (tx : T64)
  /-- TX_MAX_AGE_EXPIRY (R455): A fragment not sent TX_MAX_AGE after TOO is discarded with the rest of its message and raises OUT_TX_STALE. -/
  | txMaxAgeExpiry (port : Fin 2) (queue : Fin 8)
  /-- SM0_BUILD (R458): A change of state, or STATE_PERIOD, builds an SM0 and queues it on both CAN-S channels. -/
  | sm0Build
  /-- SM1_BUILD (R458): Every GUARD_PERIOD an SM1 is built from the latest guard word and queued. -/
  | sm1Build
  /-- CAN_MAX_AGE_EXPIRY (R460): A copy not completed within MAX_AGE is discarded and rebuilt from the current state. -/
  | canMaxAgeExpiry (c : Fin 2) (m : Fin 2)
  /-- CAN_TRANSMIT_COMPLETE (R460): A queued safety message completes on its bus. -/
  | canTransmitComplete (c : Fin 2) (m : Fin 2)
  /-- BUS_OFF (R461): A CAN-S channel entering bus-off discards its copies, raises BUS_OFF and starts recovery. -/
  | busOff (c : Fin 4)
  /-- BUS_OFF_RECOVERED (R461): Completed bus-off recovery raises BUS_OFF_RECOVERED and sends a fresh SM0. -/
  | busOffRecovered (c : Fin 4)
  /-- CISTERN_ACCESS (R468): A Cistern bank serves one arbitrated port access per cycle with ECC checks. -/
  | cisternAccess (bank : Fin 64) (reqs : List CisternReq) (ecc : EccFind) (word : Fin 8)
  /-- PATROL_SCRUB (R471): The patrol scrub reads one line of each bank every 4,096 idle bank cycles. -/
  | patrolScrub (bank : Fin 64) (ecc : EccFind) (word : Fin 8)
  /-- LPDDR5X_TRAINING (R476): LPDDR5X training runs in S1 with zero-fill, retrying after MEM_TRAIN_FAIL up to three failures. -/
  | lpddr5xTraining (ok : Bool)
  /-- DRAM_SCRUB (R476): The LPDDR5X patrol scrub covers the whole space once per SCRUB_PERIOD. -/
  | dramScrub (ecc : EccFind) (word : Fin 8)
  /-- GROTTO_SAMPLE (R489): A sample is recorded into its monitor's bin, sum and extremes, or counted as dropped. -/
  | grottoSample
  /-- GRT_CTRL_FREEZE_WRITE (R494): A write to FREEZE starts or ends a freeze of the Grotto at the next cycle. -/
  | grtCtrlFreezeWrite (value : Word)
  /-- FREEZE_EXPIRY (R495): A freeze reaching 100 ms ends itself and sets EXPIRED. -/
  | freezeExpiry
  /-- GRT_CURSOR_WRITE (R493): A write to GRT_CURSOR.MON selects the monitor shown in the window. -/
  | grtCursorWrite (value : Word)
  /-- OBP_CAP_WIN_WRITE (R465): A write to OBP_CAP_WIN.BASE moves the capture aperture in 64 MB steps. -/
  | obpCapWinWrite (value : Word)
  /-- MSI_X_TABLE_WRITE (R503): A write to MSI-X table entry 0 changes the interrupt message. -/
  | msiXTableWrite (w : Fin 4) (value : Word)
  /-- RECORD_REGISTER_READ (R501): A read that includes the lowest word of a record register latches the whole record. -/
  | recordRegisterRead (addr : Nat) (len : Nat)
  /-- BAR0_WRITE_DISCARD (R498): A BAR0 write that covers no whole W word is discarded and counted in OBP_BAR0_DROP. -/
  | bar0WriteDiscard (addr : Nat) (len : Nat)
  /-- BAR2_WRITE_DISCARD (R465): A BAR2 write outside the replay window in Replay mode is discarded and counted in OBP_WRITE_DROP. -/
  | bar2WriteDiscard (offset : Nat) (len : Nat)
  /-- REPLAY_WINDOW_WRITE (R88): The observer writes chunk bytes into the replay write window. -/
  | replayWindowWrite (offset : Nat) (data : Bytes)
  /-- TWIN_ALIVE_IN_EDGE (R433): An edge on TWIN_ALIVE_IN is stamped and makes the peer's alive seen again, restarting ALIVE_TIMEOUT. -/
  | twinAliveInEdge (stamp : T64)
  /-- LANE_BLOCK_LOCK_LOSS (R428): A Qanat lane that loses block lock takes the link down and restarts training. -/
  | laneBlockLockLoss (lane : Fin 4)
  /-- XC_WAIT_EXPIRY (R443): XC_WAIT frame periods after its own record with no compared peer record, the frame counts towards XC_MISS and may move the pair state to REJOINING. -/
  | xcWaitExpiry
  /-- EXTEST (R530): With an unlock certificate presented, the JTAG EXTEST instruction comes into force, and SAFE_OK_A and SAFE_OK_B are driven low while it holds. -/
  | extest (certificate : Bool) (on : Bool)
  /-- IN_BAND_INTERRUPT (R145): An I3C in-band interrupt or Hot-Join request from a target is NACKed and counted in IBI_NACK. -/
  | inBandInterrupt (m : Fin 2)
  /-- ETHERNET_LINK_CHANGE (R455): An Ethernet port's link goes up or down by auto-negotiation or PCS sync, updating PORT_STATUS.LINK and making transmit copies for a down link discarded as LINK_DOWN_DROP. -/
  | ethernetLinkChange (port : Fin 8) (up : Bool) (speed : Nat)
  /-- PDELAY_REQ_SEND (R53): At the port's Pdelay_Req rate the port sends a stamped Pdelay_Req that starts a peer-delay measurement. -/
  | pdelayReqSend (port : Fin 2) (tx : T64)
deriving DecidableEq, Repr

end Sys2Proof
end

