-- ==== Sys2Proof/Machine/Bits.lean ====
section
/-! DEFINITION. Bit fields, byte order, signed differences, rounding divisions and saturating counters used by every block. -/

namespace Sys2Proof.Machine

open Sys2Proof

/-- Little-endian value of a byte list (R7). -/
def leNat : Bytes → Nat
  | [] => 0
  | b :: bs => b.toNat + 256 * leNat bs

/-- Big-endian value of a byte list, for the published standards that use it (R7). -/
def beNat (bs : Bytes) : Nat := bs.foldl (fun a b => 256 * a + b.toNat) 0

/-- The `n` little-endian bytes of `v` (R7). -/
def leBytes : Nat → Nat → Bytes
  | 0, _ => []
  | n + 1, v => BitVec.ofNat 8 v :: leBytes n (v / 256)

/-- The `n` big-endian bytes of `v`. -/
def beBytes (n v : Nat) : Bytes := (leBytes n v).reverse

/-- The `len` bytes of `bs` from offset `off`, cut at the end of `bs`. -/
def slice (bs : Bytes) (off len : Nat) : Bytes := (bs.drop off).take len

/-- Bits [lo + n − 1 : lo] of `v` (R6). -/
def fieldNat (v lo n : Nat) : Nat := (v / 2 ^ lo) % 2 ^ n

/-- The little-endian bit field [lo + n − 1 : lo] of a record's bytes (R6, R7). -/
def fieldOf (bs : Bytes) (lo n : Nat) : Nat := fieldNat (leNat bs) lo n

/-- An `n`-bit two's-complement field as an integer. -/
def signedNat (n v : Nat) : Int := (BitVec.ofNat n v).toInt

/-- A record written field by field from bit 0 up: each entry is a width and a value, taken modulo its width (R6). -/
def packNat : List (Nat × Nat) → Nat
  | [] => 0
  | (w, v) :: fs => v % 2 ^ w + 2 ^ w * packNat fs

/-- The bytes of a record packed by `packNat`. -/
def packBytes (bytes : Nat) (fs : List (Nat × Nat)) : Bytes := leBytes bytes (packNat fs)

/-- Two's-complement code of an integer in `w` bits. -/
def codeInt (w : Nat) (v : Int) : Nat := (BitVec.ofInt w v).toNat

/-- `bs` cut or padded with zero bytes to exactly `n` bytes. -/
def padTo (n : Nat) (bs : Bytes) : Bytes := (bs ++ List.replicate (n - bs.length) 0).take n

/-- The signed difference of two T64 values (R36). -/
def tDiff (a b : T64) : Int := (a - b).toInt

/-- `a` is later than `b` (R36). -/
def tLater (a b : T64) : Bool := decide (0 < tDiff a b)

/-- `a` is at or after `b` (R36). -/
def tReached (a b : T64) : Bool := decide (0 ≤ tDiff a b)

/-- The full time of a T32 against its frame's boundary (R38). -/
def rebuildT64 (bn : T64) (t : T32) : T64 := bn + (t - bn.setWidth 32).signExtend 64

/-- Bits [31:0] of a T64 (R37). -/
def t32 (t : T64) : T32 := t.setWidth 32

/-- Ticks of 125 ps in one nanosecond (R10). -/
def ticksPerNs : Nat := 8
/-- Ticks of 125 ps in one microsecond (R10). -/
def ticksPerUs : Nat := 8000
/-- Ticks of 125 ps in one millisecond (R10). -/
def ticksPerMs : Nat := 8000000
/-- Ticks of 125 ps in one second (R10). -/
def ticksPerSec : Nat := 8000000000

/-- A count of ticks as a T64. -/
def tick (n : Nat) : T64 := BitVec.ofNat 64 n
/-- Whole microseconds as a T64. -/
def us (n : Nat) : T64 := BitVec.ofNat 64 (n * ticksPerUs)
/-- Whole milliseconds as a T64. -/
def ms (n : Nat) : T64 := BitVec.ofNat 64 (n * ticksPerMs)

/-- At least `d` ticks have passed from `since` to `now` (R36). -/
def elapsed (now since : T64) (d : Nat) : Bool := decide ((d : Int) ≤ tDiff now since)

/-- `t` is a whole multiple of `p` ticks of device time. -/
def onGrid (t : T64) (p : Nat) : Bool := t.toNat % p == 0

/-- The quotient of two integers rounded to nearest, ties to even; the divisor is positive. -/
def rneDiv (a : Int) (d : Nat) : Int :=
  let q := a.fdiv (d : Int)
  let r := a.fmod (d : Int)
  if 2 * r < d then q else if (d : Int) < 2 * r then q + 1 else if q % 2 == 0 then q else q + 1

/-- The quotient of two integers rounded to nearest, ties to even, for any divisor but 0 (0 answers 0). -/
def rneDivInt (a b : Int) : Int :=
  if 0 < b then rneDiv a b.natAbs else if b < 0 then rneDiv (-a) b.natAbs else 0

/-- A rational rounded to the nearest integer, ties to even. -/
def rneRat (q : Rat) : Int := rneDiv q.num q.den

/-- `v` held within [lo, hi]. -/
def clampInt (lo hi v : Int) : Int := if v < lo then lo else if hi < v then hi else v

/-- `v` held within the `w`-bit two's-complement range. -/
def satInt (w : Nat) (v : Int) : Int := clampInt (-(2 ^ (w - 1) : Nat)) ((2 ^ (w - 1) : Nat) - 1) v

/-- A rational held within [lo, hi]. -/
def clampRat (lo hi v : Rat) : Rat := if v < lo then lo else if hi < v then hi else v

/-- One more on a 32-bit counter, saturating at 2³² − 1 (R500). -/
def bump (c : Word) : Word := if c = BitVec.allOnes 32 then c else c + 1

/-- `n` more on a 32-bit counter, saturating at 2³² − 1 (R500). -/
def bumpBy (c : Word) (n : Nat) : Word := BitVec.ofNat 32 (min (c.toNat + n) (2 ^ 32 - 1))

/-- One more on a counter if the condition holds. -/
def bumpIf (b : Bool) (c : Word) : Word := if b then bump c else c

/-- Replace the entry at an index of a list; a list without that index is unchanged. -/
def setAt {α : Type} (l : List α) (i : Nat) (x : α) : List α := l.set i x

/-- Change one entry of a vector. -/
def modAt {α : Type} {n : Nat} (v : Vector α n) (i : Fin n) (f : α → α) : Vector α n := v.set i (f v[i])

/-- Floor of the square root of a natural number, by bisection over its bits. -/
def isqrtFuel : Nat → Nat → Nat → Nat → Nat
  | 0, lo, _, _ => lo
  | k + 1, lo, hi, n =>
    let mid := (lo + hi + 1) / 2
    if mid * mid ≤ n then isqrtFuel k mid hi n else isqrtFuel k lo (mid - 1) n

/-- Floor of the square root of a natural number. -/
def isqrt (n : Nat) : Nat := isqrtFuel (n.log2 + 2) 0 (2 ^ (n.log2 / 2 + 1)) n

/-- Square root rounded to the nearest integer; no tie exists. -/
def isqrtRne (n : Nat) : Nat :=
  let r := isqrt n
  if r * r + r < n then r + 1 else r

end Sys2Proof.Machine
end

