-- ==== Sys2Proof/Machine/Crypto.lean ====
section
/-! DEFINITION. The published algorithms that the cryptographic unit and the checkers run: SHA-256, AES-256-GCM, ECDSA over P-256 and the cyclic redundancy checks (spec 01 R15, spec 04 R98 to R104, spec 06 R158). -/

namespace Sys2Proof.Machine

open Sys2Proof

/-- The first `n` primes from `k` on, by trial division within fuel. -/
def primesFrom : Nat → Nat → Nat → List Nat
  | 0, _, _ => []
  | _, 0, _ => []
  | fuel + 1, n + 1, k =>
    if 2 ≤ k && (List.range (isqrt k + 1)).all (fun d => d < 2 || k % d != 0) then k :: primesFrom fuel n (k + 1)
    else primesFrom fuel (n + 1) (k + 1)

/-- Floor of the cube root, by bisection over its bits. -/
def icbrtFuel : Nat → Nat → Nat → Nat → Nat
  | 0, lo, _, _ => lo
  | k + 1, lo, hi, n =>
    let mid := (lo + hi + 1) / 2
    if mid * mid * mid ≤ n then icbrtFuel k mid hi n else icbrtFuel k lo (mid - 1) n

/-- Round constants of SHA-256: the first 32 fraction bits of the cube roots of the first 64 primes. -/
def shaK : List Word :=
  (primesFrom 400 64 2).map fun p => BitVec.ofNat 32 (icbrtFuel 40 0 (2 ^ 36) (p * 2 ^ 96))

/-- Initial hash of SHA-256: the first 32 fraction bits of the square roots of the first 8 primes. -/
def shaInit : List Word := (primesFrom 400 8 2).map fun p => BitVec.ofNat 32 (isqrt (p * 2 ^ 64))

/-- The 64-word message schedule of one block, newest word first. -/
def shaSchedule : Nat → List Word → List Word
  | 0, w => w
  | n + 1, w =>
    let x15 := w.getD 14 0
    let x2 := w.getD 1 0
    let s0 := x15.rotateRight 7 ^^^ x15.rotateRight 18 ^^^ (x15 >>> 3)
    let s1 := x2.rotateRight 17 ^^^ x2.rotateRight 19 ^^^ (x2 >>> 10)
    shaSchedule n ((w.getD 15 0 + s0 + w.getD 6 0 + s1) :: w)

/-- One round of SHA-256 on the eight working words. -/
def shaRound (h : List Word) (kw : Word × Word) : List Word :=
  match h with
  | [a, b, c, d, e, f, g, hh] =>
    let s1 := e.rotateRight 6 ^^^ e.rotateRight 11 ^^^ e.rotateRight 25
    let ch := (e &&& f) ^^^ (~~~e &&& g)
    let t1 := hh + s1 + ch + kw.1 + kw.2
    let s0 := a.rotateRight 2 ^^^ a.rotateRight 13 ^^^ a.rotateRight 22
    let maj := (a &&& b) ^^^ (a &&& c) ^^^ (b &&& c)
    [t1 + s0 + maj, a, b, c, d + t1, e, f, g]
  | l => l

/-- The big-endian 32-bit words of a byte list. -/
def beWords : Bytes → List Word
  | a :: b :: c :: d :: r => BitVec.ofNat 32 (beNat [a, b, c, d]) :: beWords r
  | _ => []

/-- Fold one 64-byte block into the hash. -/
def shaBlock (h : List Word) (block : Bytes) : List Word :=
  let w := (shaSchedule 48 (beWords block).reverse).reverse
  List.zipWith (· + ·) h ((List.zip shaK w).foldl shaRound h)

/-- All whole blocks of `size` bytes. -/
def blocksOf (size : Nat) : Nat → Bytes → List Bytes
  | 0, _ => []
  | n + 1, bs => bs.take size :: blocksOf size n (bs.drop size)

/-- SHA-256 of a byte string: 32 bytes. PRESUMED, log entry 8. -/
def sha256 (msg : Bytes) : Bytes :=
  let n := msg.length
  let z := (119 - n % 64) % 64
  let m := msg ++ [0x80#8] ++ List.replicate z 0 ++ beBytes 8 (8 * n)
  ((blocksOf 64 (m.length / 64) m).foldl shaBlock shaInit).flatMap fun w => beBytes 4 w.toNat

/-- Product in the field of AES: polynomials over GF(2) modulo x⁸ + x⁴ + x³ + x + 1. -/
def gfMul : Nat → Byte → Byte → Byte
  | 0, _, _ => 0
  | k + 1, a, b =>
    (if b.getLsbD 0 then a else 0) ^^^ gfMul k (if a.getLsbD 7 then (a <<< 1) ^^^ 0x1B else a <<< 1) (b >>> 1)

/-- The substitution box of AES: the inverse in the field, then the affine map. -/
def aesSbox (x : Byte) : Byte :=
  let m := gfMul 8
  let x2 := m x x
  let x4 := m x2 x2
  let x8 := m x4 x4
  let x16 := m x8 x8
  let x32 := m x16 x16
  let x64 := m x32 x32
  let i := m (m x64 x64) (m x64 (m x32 (m x16 (m x8 (m x4 x2)))))
  i ^^^ i.rotateLeft 1 ^^^ i.rotateLeft 2 ^^^ i.rotateLeft 3 ^^^ i.rotateLeft 4 ^^^ 0x63

/-- Exclusive or of two byte lists. -/
def xorBytes (a b : Bytes) : Bytes := List.zipWith (· ^^^ ·) a b

/-- Key expansion of AES-256: `n` further 4-byte words on the list, newest first. -/
def aesExpand : Nat → Nat → Byte → List Bytes → List Bytes
  | 0, _, _, w => w
  | n + 1, i, rc, w =>
    let prev := w.getD 0 []
    let base := w.getD 7 []
    if i % 8 = 0 then
      let t := ((prev.drop 1) ++ prev.take 1).map aesSbox
      aesExpand n (i + 1) (gfMul 8 rc 2) (xorBytes base (xorBytes t [rc, 0, 0, 0]) :: w)
    else if i % 8 = 4 then aesExpand n (i + 1) rc (xorBytes base (prev.map aesSbox) :: w)
    else aesExpand n (i + 1) rc (xorBytes base prev :: w)

/-- The 15 round keys of AES-256, 16 bytes each. -/
def aesKeys (key : Bytes) : List Bytes :=
  let w := (aesExpand 52 8 1 (blocksOf 4 8 key).reverse).reverse
  (List.range 15).map fun r => ((w.drop (4 * r)).take 4).flatten

/-- ShiftRows of AES on a 16-byte state in column order. -/
def aesShift (s : Bytes) : Bytes := (List.range 16).map fun i => s.getD ((i + 4 * (i % 4)) % 16) 0

/-- MixColumns of AES. -/
def aesMix (s : Bytes) : Bytes :=
  (List.range 16).map fun i =>
    let g (k : Nat) := s.getD (4 * (i / 4) + (i + k) % 4) 0
    gfMul 8 (g 0) 2 ^^^ gfMul 8 (g 1) 3 ^^^ g 2 ^^^ g 3

/-- One AES-256 block. -/
def aesBlock (keys : List Bytes) (b : Bytes) : Bytes :=
  let s := (List.range 13).foldl (fun s r => xorBytes (aesMix (aesShift (s.map aesSbox))) (keys.getD (r + 1) []))
    (xorBytes b (keys.getD 0 []))
  xorBytes (aesShift (s.map aesSbox)) (keys.getD 14 [])

/-- Product in the field of GHASH; bit 0 of the standard is the most significant bit. -/
def ghashMul : Nat → BitVec 128 → BitVec 128 → BitVec 128 → BitVec 128
  | 0, _, _, z => z
  | k + 1, x, v, z =>
    ghashMul k (x <<< 1) (if v.getLsbD 0 then (v >>> 1) ^^^ (0xE1#128 <<< 120) else v >>> 1) (if x.getLsbD 127 then z ^^^ v else z)

/-- GHASH of a list of 16-byte blocks. -/
def ghash (h : BitVec 128) (bs : List Bytes) : BitVec 128 :=
  bs.foldl (fun y b => ghashMul 128 (y ^^^ BitVec.ofNat 128 (beNat b)) h 0) 0

/-- `bs` padded with zero bytes to a multiple of 16 and cut into blocks. -/
def blocks16 (bs : Bytes) : List Bytes :=
  let n := (bs.length + 15) / 16
  blocksOf 16 n (padTo (16 * n) bs)

/-- AES-256-GCM decryption under a 12-byte nonce: the plaintext, or none on a tag mismatch. PRESUMED, log entry 8. -/
def gcmOpen (key nonce aad cipher tag : Bytes) : Option Bytes :=
  let ks := aesKeys key
  let h := BitVec.ofNat 128 (beNat (aesBlock ks (List.replicate 16 0)))
  let ctr (i : Nat) := aesBlock ks (nonce ++ beBytes 4 i)
  let lens := beBytes 8 (8 * aad.length) ++ beBytes 8 (8 * cipher.length)
  let s := ghash h (blocks16 aad ++ blocks16 cipher ++ [lens])
  if xorBytes (beBytes 16 s.toNat) (ctr 1) = tag then
    some (xorBytes cipher (((List.range ((cipher.length + 15) / 16)).map fun i => ctr (i + 2)).flatten))
  else none

/-- The prime, order, coefficient and base point of P-256. -/
def p256p : Nat := 2 ^ 256 - 2 ^ 224 + 2 ^ 192 + 2 ^ 96 - 1
def p256n : Nat := 0xFFFFFFFF00000000FFFFFFFFFFFFFFFFBCE6FAADA7179E84F3B9CAC2FC632551
def p256b : Nat := 0x5AC635D8AA3A93E7B3EBBD55769886BC651D06B0CC53B0F63BCE3C3E27D2604B
def p256gx : Nat := 0x6B17D1F2E12C4247F8BCE6E563A440F277037D812DEB33A0F4A13945D898C296
def p256gy : Nat := 0x4FE342E2FE1A7F9B8EE7EB4A7C0F9E162BCE33576B315ECECBB6406837BF51F5

/-- Modular power by squaring over `k` exponent bits. -/
def powMod : Nat → Nat → Nat → Nat → Nat
  | 0, _, _, m => 1 % m
  | k + 1, b, e, m =>
    let r := powMod k (b * b % m) (e / 2) m
    if e % 2 = 1 then r * b % m else r

/-- Inverse modulo a prime. -/
def invMod (a m : Nat) : Nat := powMod 256 (a % m) (m - 2) m

/-- A point of P-256; none is the point at infinity. -/
abbrev EcPoint := Option (Nat × Nat)

/-- Sum of two points of P-256. -/
def ecAdd : EcPoint → EcPoint → EcPoint
  | none, q => q
  | q, none => q
  | some (x1, y1), some (x2, y2) =>
    let p := p256p
    if x1 = x2 ∧ (y1 + y2) % p = 0 then none
    else
      let l := if x1 = x2 then (3 * x1 * x1 + (p - 3)) * invMod (2 * y1) p % p else (y2 + p - y1) * invMod (x2 + p - x1) p % p
      let x3 := (l * l + 2 * p - x1 - x2) % p
      some (x3, (l * (x1 + p - x3) + p - y1) % p)

/-- Multiple of a point of P-256 over `k` scalar bits. -/
def ecMul : Nat → Nat → EcPoint → EcPoint
  | 0, _, _ => none
  | k + 1, n, q =>
    let r := ecMul k (n / 2) (ecAdd q q)
    if n % 2 = 1 then ecAdd r q else r

/-- ECDSA over P-256: does (r, s) sign a 32-byte hash under the public key (x, y). PRESUMED, log entry 8. -/
def ecdsaVerify (x y r s : Nat) (hash : Bytes) : Bool :=
  let p := p256p
  let n := p256n
  if 0 < r ∧ r < n ∧ 0 < s ∧ s < n ∧ x < p ∧ y < p ∧ y * y % p = (x * x * x + (p - 3) * x + p256b) % p then
    let w := invMod s n
    match ecAdd (ecMul 256 (beNat hash * w % n) (some (p256gx, p256gy))) (ecMul 256 (r * w % n) (some (x, y))) with
    | some (px, _) => px % n == r
    | none => false
  else false

/-- Reversal of the low `w` bits. -/
def reflectBits (w v : Nat) : Nat := (List.range w).foldl (fun a i => a * 2 + (v / 2 ^ i) % 2) 0

/-- One input byte of a cyclic redundancy check of width `w`, most significant bit first. -/
def crcByte (w poly : Nat) (reg : Nat) (b : Nat) : Nat :=
  (List.range 8).foldl (fun r _ => if (r / 2 ^ (w - 1)) % 2 = 1 then (r * 2 % 2 ^ w) ^^^ poly else r * 2 % 2 ^ w) (reg ^^^ (b * 2 ^ (w - 8)))

/-- A cyclic redundancy check by its profile: width, polynomial, initial value, reflection and final exclusive or. PRESUMED, log entry 8. -/
def crc (w poly init : Nat) (reflect : Bool) (xorOut : Nat) (bs : Bytes) : Nat :=
  let r := bs.foldl (fun r b => crcByte w poly r (if reflect then reflectBits 8 b.toNat else b.toNat)) init
  (if reflect then reflectBits w r else r) ^^^ xorOut

/-- CRC-32C (Castagnoli) of a byte string. PRESUMED, log entry 8. -/
def crc32c (bs : Bytes) : Nat := crc 32 0x1EDC6F41 0xFFFFFFFF true 0xFFFFFFFF bs

/-- CRC-32 of IEEE 802.3. PRESUMED, log entry 8. -/
def crc32 (bs : Bytes) : Nat := crc 32 0x04C11DB7 0xFFFFFFFF true 0xFFFFFFFF bs

end Sys2Proof.Machine
end

