-- ==== Sys2Proof/Events.lean ====
section
/-! DEFINITION. The names of the events of the device and the fault classes they carry (spec 17_safety R405, R406, R548). -/

namespace Sys2Proof.Machine

open Sys2Proof

/-- The class of an event (R74, R405): the code is its place in this list. -/
inductive FaultClass where
  | none | c0 | c1 | c2 | c3
deriving DecidableEq, Repr, Inhabited

/-- Every event that the spec names. -/
inductive EvKind where
  -- Timebase (R53, R54, R57, R61)
  | srcLocked | srcUnlocked | gmChange | srcLost | mapJump | holdover | ref10mLost | gridStretch
  -- Sluice, Replay and capture (R75, R89, R92)
  | eventsLost | replayOrder | replayGap | captureLoss
  -- Bring-up (R104, R107, R111, R114)
  | svnCommitted | stageEntry | stageLate | imgSectionFail
  -- Safety (R409, R417 to R425)
  | safetyState | c2Release | safeOkStuck | supervisorLost | supervisorsLost | supervisorDisagree
  | selftestFail | startMiss | runShort | runLong | deadlineMiss | timingEscalate | goldenFail
  -- Ports (R136, R141, R146 to R148, R461)
  | imuInitFail | encIndex | scriptFail | busStuck | busDead | busOff | busOffRecovered
  -- Headgates and data flumes (R165, R481)
  | streamTimeout | streamAbsent | streamMasked | probationEnd | flumeLevel | flumeUe | cmdFlumeUe | seqMemUe
  -- Pose Ladder (R192 to R207, R420)
  | poseInputBehind | poseDegraded | poseLost | wheelSlip | slipClear | imuReject | encReject
  | poseEvicted | plLockstep | plRungLate
  -- Projection and alignment (R236, R237)
  | alignStep | alignStepFail | alignConverged | alignHeld | alignMoved | sensorMisaligned
  -- Point Cloud Unit (R250)
  | pointCap | voxelDrop | rbDrop
  -- Tensor Engines (R284, R324, R426, R484)
  | queueFlush | arithFlags | tensorClamp | indexRange | kvNoPage | syncTimeout | rbMismatch | teEccUe
  | attBucket | cmdFlumeLevel | cmdFlumeOverrun
  -- Track memory and Tracker (R332, R339, R343 to R349)
  | kvReclaim | kvHistoryReset | detInvalid | detClamp | trackFull | assignBudget | pathInvalid
  -- QP Solver Array (R373, R378)
  | qsaNumeric | qsaNoFeasible | qsaFeedBad
  -- Channel B, Weir and Guard (R385, R390, R395, R399, R426)
  | cbEcc | cbTableLate | cbMemUe | weirMismatch | weirConflict | weirNoSummary | weirDiverge | guardLockstep | guardLate | guardEcc
  -- Twin (R435 to R443)
  | twinLinkUp | twinLinkLost | twinPeerUnknown | twinUnmatched | twinResync | twinPeerSafe
  | twinDisagree | twinCrossChecked | roleChange | roleConflict | witnessLost
  -- Outputs and memory (R455, R472, R476)
  | outTxDrop | outTxStale | cisternCe | cisternUe | cisternUeFree | dramCe | dramUe | memTrainFail
  -- Electrical (R525, R529, R542)
  | clockFail | supplyFail | tempWarn | tempLimit
deriving DecidableEq, Repr

/-- One event as its source raises it: the Sluice adds SEQ and TOO (R74). -/
structure Ev where
  /-- What is reported. -/
  kind : EvKind
  /-- Source island, 0 to 143. -/
  island : Nat
  /-- INSTANCE of R74. -/
  inst : Nat
  /-- DATA of R74. -/
  data : Word
  /-- The class before the class table: the floor, or the source class of R406. -/
  cls : FaultClass
deriving DecidableEq, Repr

/-- A numbered event: what the 32-byte record of R74 holds. -/
structure EvRecord where
  /-- SEQ. -/
  seq : BitVec 48
  /-- ISLAND. -/
  island : Nat
  /-- The event; its CODE is `Config.eventCode`. -/
  kind : EvKind
  /-- CLASS after the class table. -/
  cls : FaultClass
  /-- INSTANCE. -/
  inst : Nat
  /-- DATA. -/
  data : Word
  /-- TOO: device time at which the Sluice numbered it. -/
  too : T64
deriving DecidableEq, Repr

end Sys2Proof.Machine
end

