-- ==== Sys2Proof/Config.lean ====
section
/-! DEFINITION. What an implementation fixes and the spec leaves open: free values, every one an opaque constant with no body. -/

namespace Sys2Proof.Config

open Sys2Proof Sys2Proof.Machine

/-- CODE of an event: the spec says that codes are listed with the blocks and lists none (R74). DESIGN CHOICE, log entries 5, 62. -/
opaque eventCode : EvKind → BitVec 12

/-- DATA of an event whose rule states no DATA (R74). DESIGN CHOICE, log entry 5. -/
opaque eventData : EvKind → Nat → Word

/-- Class of BUS_DEAD: R148 states none and R548 does not list the event. DESIGN CHOICE, log entry 35. -/
opaque busDeadFloor : FaultClass

/-- Double pole of the critically damped loop of a source estimator over one update interval, by SERVO_BW in hundredths of a hertz and the
ticks since its last update (R45): R45 names the loop and not its discretisation. Used within the bounds of `servoPole`. DESIGN CHOICE, log entry 10. -/
opaque servoPoleFree : Nat → Int → Rat

/-- How long the rollback counter's fuses are programmed, in ticks, and how many of them a reset meanwhile finds blown, by the old count and the
device time (R104). DESIGN CHOICE, log entry 157. -/
opaque fuseTicks : Nat
opaque fusesBlown : Nat → T64 → Nat

/-- Transmit stamp of a sensor port's answer to an ARP request or Neighbor Solicitation, by the port and the request's stamp: no command
carries it (R40, R127). DESIGN CHOICE, log entry 167. -/
opaque replyStamp : Nat → T64 → T64

/-- The frame that IEEE 802.1AE protection holds, by the RX SAK and the protected frame without its FCS; none where it does not open. The spec
gives no salt and no SSCI of the static keys (R452, R457). DESIGN CHOICE, log entry 135. -/
opaque macsecOpen : Bytes → Bytes → Option Bytes

/-- Gain of the first-order loop that steers the increment to REF10M_IN, by SERVO_BW (R57). DESIGN CHOICE, log entry 10. -/
opaque ext10mGain : Nat → Rat

/-- The device's own clockIdentity (R50). DESIGN CHOICE, log entry 36. -/
opaque clockIdentity : BitVec 64

/-- Grandmaster attributes other than identity and class that the device announces of itself in FREE (R50). DESIGN CHOICE, log entry 36. -/
opaque ownAccuracy : BitVec 8
opaque ownVariance : BitVec 16
opaque ownPriority1 : BitVec 8
opaque ownPriority2 : BitVec 8
opaque ownTimeSource : BitVec 8

/-- Phase of the poll instants of an SPI port, in ticks, by port: R138 gives their period only. DESIGN CHOICE, log entry 149. -/
opaque pollPhase : Fin 4 → Nat

/-- TOV of the SWEEP_END or FRAME_END of a unit of which no record was written: R153 gives it that of the last record of its unit. By headgate
and device time. DESIGN CHOICE, log entry 152. -/
opaque emptyUnitTov : Nat → T64 → T64

/-- Pin stamps of the frames and packets whose last bytes are still arriving at an Ethernet, CSI-2 or CAN port (its island) at a device time
(R165): each reaches this block as one command when it has arrived. DESIGN CHOICE, log entry 182. -/
opaque arriving : Nat → T64 → List T64

/-- Fraction bits and width of the Pose Ladder's internal v, ω, a, biases, scale factors and gains: R200 gives them no format, R178 their
arithmetic. DESIGN CHOICE, log entry 37. -/
opaque plFrac : Nat
opaque plWidth : Nat

/-- Distance, in units in the last place, of an approximate function's result from the exact result rounded to F32, by FUNC, rounding field and operand; used within the bound of R311. DESIGN CHOICE, log entry 9. -/
opaque ulpOffset : Nat → Bool → Word → Int

/-- Result of GELU (10) and SILU (11) at −∞, which R311 does not state. DESIGN CHOICE, log entry 38. -/
opaque atMinusInf : Nat → Word

/-- Planar change of the tracks' reference frame (cos, sin, dx, dy in F32) where a reference pose is missing (R222, R344). DESIGN CHOICE, log entry 39. -/
opaque trackMove : BitVec 64 → Nat → Word

/-- Process noise of a track from ACC_NOISE over Δt: entries position–position 0, position–velocity 1, velocity–velocity 2 (R344). DESIGN CHOICE, log entry 40. -/
opaque trackNoise : Word → Word → Nat → Word

/-- Whether a QSA lane takes the multiply-adds of its sums fused; R364 fixes the order of the sums only. DESIGN CHOICE, log entry 41. -/
opaque qsaFused : Bool

/-- CYCLES of a solve, by lane and end (R369, R382): a time. DESIGN CHOICE, log entry 42. -/
opaque solveCycles : Nat → T64 → Word

/-- What a camera slot holds where the pose answer for its row carries VALID = 0, by frame, camera and time: nothing (OUT) or a projection (R227). DESIGN CHOICE, log entry 43. -/
opaque poselessSlot : BitVec 64 → Fin 16 → T64 → Option Projection

/-- Fraction bits of the square roots and eigenvalues of the alignment arithmetic, whose precision R232 and R233 do not state. DESIGN CHOICE, log entry 44. -/
opaque alignFrac : Nat

/-- The direction taken as an eigenvector where its eigenvalue is not a single one, by covariance and place (R233). DESIGN CHOICE, log entry 44. -/
opaque planeDir : List Rat → Nat → Rat × Rat × Rat

/-- SD_ROT and SD_TRANS from the normal matrix of a window, by the place of the sensor's first parameter (R238). DESIGN CHOICE, log entry 45. -/
opaque alignSd : List (List Int) → Nat → Bool → BitVec 16

/-- REV.GRADE: false for -I, true for -E (R505, R542). DESIGN CHOICE, log entry 46. -/
opaque gradeE : Bool

/-- Whether the host has MSI-X enabled in the function's configuration space, at a device time: no row writes that space (R464). PRESUMED, log entry 18. -/
opaque msixEnabled : T64 → Bool

/-- Ticks that a safety message takes on its bus, by its bytes: R462 bounds them and gives no value. DESIGN CHOICE, log entry 133. -/
opaque canFrameTicks : Bytes → Nat

/-- SERIAL: the die's serial number (R505). DESIGN CHOICE, log entry 46. -/
opaque serial : BitVec 64

/-- Bytes of the capture ring that are free again, of those written, at a device time: R92 has the observer read the ring and does not say what
frees its space. DESIGN CHOICE, log entry 47. -/
opaque captureFreed : Nat → T64 → Nat

/-- The fields beside VALID of the reference pose record of a frame that has no reference pose (R222). DESIGN CHOICE, log entry 48. -/
opaque noRefPose : BitVec 64 → PoseRec

/-- Cistern offset of the path tensor PATH_j, by bucket and frame parity: R340 names no base for it. DESIGN CHOICE, log entry 49. -/
opaque pathBase : Nat → Bool → Nat

/-- Bytes beside its datagram that a fragment takes of OUT_CFG.Q_BYTES, by stream: R455 does not say what its free space counts. DESIGN CHOICE, log entry 50. -/
opaque queueOverhead : Nat → Nat

/-- Whether and how long before a SWEEP_END, in ticks, T_σ lies for a covered sector in which the sweep wrote no point: R387 gives T_σ as the TOV of
the sweep's first point there. By sensor, TOV of the SWEEP_END and sector. DESIGN CHOICE, log entry 51. -/
opaque pointlessSector : Nat → T64 → Nat → Option Nat

/-- Basis time of a guard word that has no basis at all, or whose command has no feed frame (R400). DESIGN CHOICE, log entry 52. -/
opaque noBasis : T64 → T64

/-- The fixed table of self-test slices, which R424 does not print: the checker group (its row in R424, from 0) and the checker of each slice; the
model takes it where it keeps R424's counts and gaps. DESIGN CHOICE, log entry 53. -/
opaque sliceTable : List (Nat × Nat)

/-- Island and number of a checker, by group and place in it, where no rule gives them. DESIGN CHOICE, log entry 53. -/
opaque checkerIsland : Nat → Nat → Fin 144
opaque checkerNumber : Nat → Nat → Word

/-- The step of its task, 1 to 7, at which the Tracker stops on C3 (R412, R355), by frame; 0 counts as 1. DESIGN CHOICE, log entry 95. -/
opaque stopStep : BitVec 64 → Fin 8

/-- Code of an E8M0 result for a value that no E8M0 code stands for: a zero, a negative value, an infinity or a magnitude past 2¹²⁷ (R172, R183). DESIGN CHOICE, log entry 158. -/
opaque e8m0Open : Word → Byte

/-- NEG (1) and ABS (2) of the S32 −2³¹, whose negative S32 does not hold: R177 and R311 call both exact and state no result there. DESIGN CHOICE, log entry 184. -/
opaque signOfMin : Nat → Word

/-- A coordinate of a depth pixel's ray where FX or FY is 0 or a parameter is not finite, by the pixel's coordinate, the centre and the focal length:
R218 states no value there. DESIGN CHOICE, log entry 185. -/
opaque depthRay : BitVec 16 → Word → Word → Word

/-- The data that comes with a poisoned word, by byte address (R472). DESIGN CHOICE, log entry 54. -/
opaque poisonedByte : Nat → Byte

/-- Bytes from the even to the odd copy of the free-space summary, by SUM_SIZE: R393 names PARITY_OFFSET and gives no value. DESIGN CHOICE, log entry 55. -/
opaque summaryOdd : Nat → Nat

/-- Verdict and data of a Weir task that meets a valid summary but no valid live record, or no table: R394 does not state them. By frame. DESIGN CHOICE, log entry 56. -/
opaque weirOpen : BitVec 64 → Verdict × Nat

/-- AUX of the words before the first whole rotation of ten, by K: R401 takes it from a word that was never computed. DESIGN CHOICE, log entry 57. -/
opaque auxBefore : BitVec 64 → Word

/-- A guard word computed over an uncorrectable error in the Guard's memory (R426), by K: the spec states no value of its computed fields. DESIGN CHOICE, log entry 58. -/
opaque guardEccWord : BitVec 64 → GuardWord

/-- Payload of a HELLO, of a TIME and of a STATUS: R430 and R431 name what they carry and give no layout. DESIGN CHOICE, log entry 59. -/
opaque helloBytes : Hello → Bytes
opaque timeBytes : TimeMsg → Bytes
opaque statusBytes : Status → Bytes

/-- The bytes of the epoch digest's three values: grandmasterIdentity, FRAME_PERIOD, FRAME_PHASE (R439). DESIGN CHOICE, log entry 60. -/
opaque epochBytes : BitVec 64 → Nat → Nat → Bytes

/-- EVENT_SEQ of an SM0 whose causing event is not yet numbered, or is none (R459), by the next SEQ. DESIGN CHOICE, log entry 61. -/
opaque causeSeq : BitVec 48 → Word

/-! ### The contents of the sections. The chapters name the fields of each section and lay no content out but the schedule entry (R79), the
extractor (R131), the structure header (R360) and the command lists: the values that a section's bytes spell are free, and fixed by the bytes.
DESIGN CHOICE, log entry 6. -/

opaque timebaseOf : Bytes → TbCfg
opaque islandsOf : Bytes → IslCfg × MemCfg
opaque safetyOf : Bytes → SafeCfg
opaque portOf : Nat → Bytes → PortCfg
opaque headgateOf : Bytes → HgCfg
/-- The header of the template that a HEADGATE section holds, if it holds one, and its extractor entries of 16 bytes. -/
opaque templateOf : Bytes → Option Template
opaque extractorsOf : Bytes → List Bytes
opaque poseOf : Bytes → PlCfg
opaque channelBOf : Bytes → CbCfg × Vector (Option RsCfg) 8
opaque guardOf : Bytes → GuardCfg
opaque canSafeOf : Bytes → CanSafeCfg
opaque qanatOf : Bytes → QanatCfg
opaque outputOf : Bytes → OutCfg
opaque observeOf : Bytes → ObserveCfg
opaque pauOf : Bytes → PauCfg
opaque pcuOf : Bytes → PcuCfg
opaque teOf : Bytes → TeCfg
opaque trackerOf : Bytes → TrkCfg × KvCfg
/-- The QSA section beside its structures, and the bytes of each structure. -/
opaque qsaOf : Bytes → QsaCfg
opaque qsaStructsOf : Bytes → List Bytes

end Sys2Proof.Config
end

