-- ==== Sys2Proof/Machine/MemOps.lean ====
section
/-! DEFINITION. Reads and writes of the addressed memories, their poison, and the canonical form (spec 20_memory_and_flumes R467 to R478). -/

namespace Sys2Proof.Machine

open Sys2Proof

/-- Bytes of the Cistern, of LOCAL and of a Cistern bank (R467, R276). -/
def cisternBytes : Nat := 134217728
def localBytes : Nat := 7340032
def bankBytes : Nat := 2097152

/-- The byte at an address: 0 where nothing is listed (R470, R473). DESIGN CHOICE, log entry 11. -/
def cellsGet : List Host.Cell → Nat → Byte
  | [], _ => 0
  | (k, b) :: r, a => if k = a then b else cellsGet r a

/-- Put a byte; the value 0 removes the entry, so that the form stays canonical. -/
def cellsSet : List Host.Cell → Nat → Byte → List Host.Cell
  | [], a, v => if v = 0 then [] else [(a, v)]
  | (k, b) :: r, a, v =>
    if k < a then (k, b) :: cellsSet r a v
    else if k = a then (if v = 0 then r else (a, v) :: r)
    else if v = 0 then (k, b) :: r else (a, v) :: (k, b) :: r

/-- Write a list of bytes upwards from an address. -/
def cellsPut : List Host.Cell → Nat → Bytes → List Host.Cell
  | m, _, [] => m
  | m, a, b :: bs => cellsPut (cellsSet m a b) (a + 1) bs

/-- Zero a range of addresses. -/
def cellsZero (m : List Host.Cell) (a n : Nat) : List Host.Cell := m.filter fun c => !(decide (a ≤ c.1) && decide (c.1 < a + n))

/-- `n` bytes from an address up. -/
def cellsRead (m : List Host.Cell) (a : Nat) : Nat → Bytes
  | 0 => []
  | n + 1 => cellsGet m a :: cellsRead m (a + 1) n

/-- The canonical form: addresses strictly rising, no listed zero. -/
def cellsWf : List Host.Cell → Bool
  | [] => true
  | [(_, b)] => b != 0
  | (k, b) :: (k', b') :: r => b != 0 && decide (k < k') && cellsWf ((k', b') :: r)

/-- Add a poisoned word, or take it away. -/
def badAdd (l : List Nat) (w : Nat) : List Nat := if l.contains w then l else w :: l
def badDel (l : List Nat) (a n : Nat) : List Nat := l.filter fun w => !(decide (a / 8 ≤ w) && decide (w ≤ (a + n - 1) / 8))

/-- The cells of a space. -/
def Memory.cells (m : Memory) : Space → List Host.Cell
  | .cistern => m.cistern
  | .loc t => m.local_[t]
  | .dram => m.dram

/-- The poisoned words of a space. An uncorrectable word of a local buffer stops the command that reads it (R473) and leaves no mark. -/
def Memory.bad (m : Memory) : Space → List Nat
  | .cistern => m.cisternBad
  | .loc _ => []
  | .dram => m.dramBad

/-- Replace the cells and the poison of a space. -/
def Memory.withSpace (m : Memory) (sp : Space) (c : List Host.Cell) (b : List Nat) : Memory :=
  match sp with
  | .cistern => { m with cistern := c, cisternBad := b }
  | .loc t => { m with local_ := m.local_.set t c }
  | .dram => { m with dram := c, dramBad := b }

/-- Read one byte of a space; what a poisoned word returns as data is a free value (R472). DESIGN CHOICE, log entry 54. -/
def Memory.get (m : Memory) (sp : Space) (a : Nat) : Byte :=
  if (m.bad sp).contains (a / 8) then Config.poisonedByte a else cellsGet (m.cells sp) a

/-- Read `n` bytes of a space. -/
def Memory.read (m : Memory) (sp : Space) (a n : Nat) : Bytes :=
  if (m.bad sp).isEmpty then cellsRead (m.cells sp) a n else (List.range n).map fun i => m.get sp (a + i)

/-- Read a little-endian word of `n` bytes. -/
def Memory.readNat (m : Memory) (sp : Space) (a n : Nat) : Nat := leNat (m.read sp a n)

/-- Write bytes to a space: the new data carries new check bits, so a poisoned word that is written is poisoned no more (R472). DESIGN CHOICE, log entry 54. -/
def Memory.write (m : Memory) (sp : Space) (a : Nat) (bs : Bytes) : Memory :=
  if bs.isEmpty then m else m.withSpace sp (cellsPut (m.cells sp) a bs) (badDel (m.bad sp) a bs.length)

/-- Write at a place. -/
def Memory.writeAt (m : Memory) (p : Place) (off : Nat) (bs : Bytes) : Memory := m.write p.space (p.addr + off) bs

/-- Zero a range of a space. -/
def Memory.zero (m : Memory) (sp : Space) (a n : Nat) : Memory :=
  if n = 0 then m else m.withSpace sp (cellsZero (m.cells sp) a n) (badDel (m.bad sp) a n)

/-- Does a range hold a poisoned word (R472). -/
def Memory.poisoned (m : Memory) (sp : Space) (a n : Nat) : Bool :=
  n != 0 && (m.bad sp).any fun w => decide (a / 8 ≤ w) && decide (w ≤ (a + n - 1) / 8)

/-- Poison a word. -/
def Memory.poison (m : Memory) (sp : Space) (w : Nat) : Memory := m.withSpace sp (m.cells sp) (badAdd (m.bad sp) w)

/-- The canonical form of every memory. -/
def Memory.wf (m : Memory) : Bool :=
  cellsWf m.cistern && m.local_.toList.all cellsWf && cellsWf m.dram

/-- Bytes of the LPDDR5X space (R474, R475): 7/8 of the raw capacity. -/
def MemCfg.dramBytes (c : MemCfg) : Nat := c.capacity * 2 ^ 30 * (if c.if1 then 2 else 1) * 7 / 8

/-- Kind of the LPDDR5X region that holds an address. -/
def MemCfg.kindAt (c : MemCfg) (a : Nat) : Option DramKind :=
  (c.regions.find? fun r => decide (r.base ≤ a) && decide (a < r.base + r.bytes)).map (·.kind)

/-- Island of the interface that holds an LPDDR5X address (R474). -/
def MemCfg.dramIsland (c : MemCfg) (a : Nat) : Nat := if c.if1 && a / 256 % 2 == 1 then 140 else 139

/-- Is a Cistern byte inside a region of R469. -/
def Memory.inRegion (m : Memory) (a : Nat) : Bool := m.regions.any fun (b, n) => decide (b ≤ a) && decide (a < b + n)

/-- DEST of a MODEL_SLOT section (R478). -/
def slotPlace (dest : Nat) : Place :=
  if dest / 2 ^ 31 % 2 = 1 then ⟨.dram, dest % 2 ^ 29 * 64⟩ else ⟨.cistern, dest % 2 ^ 27⟩

end Sys2Proof.Machine
end

