-- ==== Sys2Proof/Machine/Flags.lean ====
section
/-! DEFINITION. Floating-point values, rounding, overflow, subnormals, conversions and the flag set (spec 07_number_formats R172 to R186). -/

namespace Sys2Proof.Machine

open Sys2Proof

/-- The flag set (R186): NV 0, OF 1, UF 2, NX 3, ST 4. -/
abbrev FlagSet := BitVec 8

def flagNV : FlagSet := 1
def flagOF : FlagSet := 2
def flagUF : FlagSet := 4
def flagNX : FlagSet := 8
def flagST : FlagSet := 16

/-- A computation that gathers flags. A flag once set stays set within the set (R186). -/
abbrev Fm := StateM FlagSet

/-- Set flags. -/
def setFlags (f : FlagSet) : Fm Unit := fun s => ((), s ||| f)

/-- Set flags if a condition holds. -/
def flagIf (b : Bool) (f : FlagSet) : Fm Unit := if b then setFlags f else pure ()

/-- Run a computation from an empty flag set. -/
def Fm.go {α : Type} (x : Fm α) : α × FlagSet := x.run 0

/-- The exact value of a number: NaN, an infinity, or (−1)^neg × num / den with den > 0. A zero keeps its sign. -/
inductive FVal where
  | nan
  | inf (neg : Bool)
  | fin (neg : Bool) (num den : Nat)
deriving DecidableEq, Repr

/-- The arithmetic control byte (R180). -/
structure Arith where
  rtz : Bool := false
  e4m3Nan : Bool := false
  flush : Bool := false
deriving DecidableEq, Repr

/-- The arithmetic control byte from its bits (R180). -/
def Arith.ofNat (v : Nat) : Arith := ⟨fieldNat v 0 1 == 1, fieldNat v 1 1 == 1, fieldNat v 2 1 == 1⟩

/-- A floating-point format: field widths and bias (R172). -/
structure FloatFmt where
  expBits : Nat
  fracBits : Nat
  bias : Nat
  /-- E4M3: no infinity, and only fraction 111 of exponent 1111 is NaN. -/
  e4m3 : Bool := false
  /-- FLUSH applies (R182). -/
  flushes : Bool := false
deriving DecidableEq, Repr

def fmtF32 : FloatFmt := ⟨8, 23, 127, false, false⟩
def fmtB16 : FloatFmt := ⟨8, 7, 127, false, true⟩
def fmtH16 : FloatFmt := ⟨5, 10, 15, false, false⟩
def fmtE5M2 : FloatFmt := ⟨5, 2, 15, false, true⟩
def fmtE4M3 : FloatFmt := ⟨4, 3, 7, true, true⟩
def fmtE2M1 : FloatFmt := ⟨2, 1, 1, true, true⟩

/-- 2^e as a pair of numerator and denominator factors. -/
def pow2Num (e : Int) : Nat := if 0 ≤ e then 2 ^ e.toNat else 1
def pow2Den (e : Int) : Nat := if 0 ≤ e then 1 else 2 ^ (-e).toNat

/-- A finite value m × 2^e. -/
def finOf (neg : Bool) (m : Nat) (e : Int) : FVal := .fin neg (m * pow2Num e) (pow2Den e)

/-- The value of a code (R172). -/
def FloatFmt.decode (f : FloatFmt) (code : Nat) : FVal :=
  let frac := code % 2 ^ f.fracBits
  let ex := (code / 2 ^ f.fracBits) % 2 ^ f.expBits
  let neg := (code / 2 ^ (f.fracBits + f.expBits)) % 2 == 1
  if ex = 0 then finOf neg frac (1 - (f.bias : Int) - f.fracBits)
  else if f.e4m3 then
    if f.expBits = 4 ∧ ex = 15 ∧ frac = 7 then .nan
    else finOf neg (2 ^ f.fracBits + frac) ((ex : Int) - f.bias - f.fracBits)
  else if ex = 2 ^ f.expBits - 1 then (if frac = 0 then .inf neg else .nan)
  else finOf neg (2 ^ f.fracBits + frac) ((ex : Int) - f.bias - f.fracBits)

/-- Sign bit of a format in place. -/
def FloatFmt.sign (f : FloatFmt) (neg : Bool) : Nat := if neg then 2 ^ (f.fracBits + f.expBits) else 0

/-- The canonical NaN of a format (R184). -/
def FloatFmt.nanCode (f : FloatFmt) : Nat :=
  if f.e4m3 then 2 ^ (f.fracBits + f.expBits) - 1
  else (2 ^ f.expBits - 1) * 2 ^ f.fracBits + 2 ^ (f.fracBits - 1)

/-- The largest finite magnitude's code (R172). -/
def FloatFmt.maxCode (f : FloatFmt) : Nat :=
  if f.e4m3 then 2 ^ (f.fracBits + f.expBits) - (if f.expBits = 4 then 2 else 1)
  else (2 ^ f.expBits - 1) * 2 ^ f.fracBits - 1

/-- Floor of the binary logarithm of num / den, both positive. -/
def floorLog2 (num den : Nat) : Int :=
  let d : Int := (num.log2 : Int) - den.log2
  if den * pow2Num d ≤ num * pow2Den d then d else d - 1

/-- num / den in units of 2^e: quotient, whether it is exact, and the rounded integer (R180). -/
def roundUnits (rtz : Bool) (num den : Nat) (e : Int) : Nat × Bool :=
  let n := num * pow2Den e
  let d := den * pow2Num e
  let q := n / d
  let r := n % d
  (if rtz then q else if 2 * r < d then q else if d < 2 * r then q + 1 else if q % 2 = 0 then q else q + 1, r == 0)

/-- Round a finite value into a format (R180 to R182): the code and its flags. -/
def FloatFmt.round (f : FloatFmt) (a : Arith) (neg : Bool) (num den : Nat) : Fm Nat :=
  if num = 0 then pure (f.sign neg) else
  let emin : Int := 1 - f.bias
  let k := floorLog2 num den
  let e := (if k < emin then emin else k) - f.fracBits
  let (m, exact) := roundUnits a.rtz num den e
  -- biased exponent of the unit, then the code: a carry out of the fraction moves into the exponent by itself
  let code := if k < emin then m else (k + f.bias).toNat * 2 ^ f.fracBits + (m - 2 ^ f.fracBits)
  if f.maxCode < code then
    if f.e4m3 then
      if a.e4m3Nan then do setFlags (flagOF ||| flagNX); pure f.nanCode
      else do setFlags (flagOF ||| flagNX ||| flagST); pure (f.sign neg + f.maxCode)
    else do
      setFlags (flagOF ||| flagNX)
      pure (f.sign neg + if a.rtz then f.maxCode else f.maxCode + 1)
  else
    let tiny := code < 2 ^ f.fracBits
    if tiny && a.flush && f.flushes && code ≠ 0 then do
      setFlags (flagUF ||| flagNX); pure (f.sign neg)
    else do
      flagIf (!exact) flagNX
      flagIf (tiny && !exact) flagUF
      pure (f.sign neg + code)

/-- Write a value into a format: NaN is canonical; an infinity stays, or saturates or becomes NaN in E4M3 (R184). -/
def FloatFmt.encode (f : FloatFmt) (a : Arith) (v : FVal) : Fm Nat :=
  match v with
  | .nan => pure f.nanCode
  | .inf neg =>
    if f.e4m3 then
      if a.e4m3Nan then do setFlags flagNV; pure f.nanCode
      else do setFlags flagST; pure (f.sign neg + f.maxCode)
    else pure (f.sign neg + f.maxCode + 1)
  | .fin neg num den => f.round a neg num den

/-- The value of an F32 word. -/
def f32Val (w : Word) : FVal := fmtF32.decode w.toNat

/-- Round a value to F32. -/
def toF32 (rtz : Bool) (v : FVal) : Fm Word := do
  return BitVec.ofNat 32 (← fmtF32.encode { rtz := rtz } v)

/-- A rational as an exact value; zero is +0. -/
def ratVal (q : Rat) : FVal := .fin (q.num < 0) q.num.natAbs q.den

/-- An integer count of units of 2^e as an exact value. -/
def intVal (v : Int) (e : Int) : FVal := finOf (v < 0) v.natAbs e

/-- The rational of a finite value; 0 for the others. -/
def FVal.rat : FVal → Rat
  | .fin neg n d => if neg then -mkRat n d else mkRat n d
  | _ => 0

/-- Is the value finite. -/
def FVal.isFin : FVal → Bool | .fin .. => true | _ => false
/-- Is the value NaN. -/
def FVal.isNan : FVal → Bool | .nan => true | _ => false
/-- Sign of a value; NaN is positive. -/
def FVal.neg : FVal → Bool | .nan => false | .inf s => s | .fin s _ _ => s
/-- Is the value a zero. -/
def FVal.isZero : FVal → Bool | .fin _ 0 _ => true | _ => false
/-- Negation. -/
def FVal.opp : FVal → FVal | .nan => .nan | .inf s => .inf !s | .fin s n d => .fin (!s) n d

/-- Exact sum; an exact cancellation is +0 under both roundings (R182); ∞ − ∞ is NaN with NV. -/
def FVal.add (x y : FVal) : Fm FVal :=
  match x, y with
  | .nan, _ => pure .nan
  | _, .nan => pure .nan
  | .inf a, .inf b => if a = b then pure (.inf a) else do setFlags flagNV; pure .nan
  | .inf a, _ => pure (.inf a)
  | _, .inf b => pure (.inf b)
  | .fin a n d, .fin b m e =>
    if n = 0 ∧ m = 0 then pure (.fin (a && b) 0 1) else
    -- the common denominator; powers of two divide one another
    let (x, y, c) := if d % e = 0 then (n, m * (d / e), d) else if e % d = 0 then (n * (e / d), m, e) else (n * e, m * d, d * e)
    let s : Int := (if a then -(x : Int) else x) + (if b then -(y : Int) else y)
    pure (.fin (decide (s < 0)) s.natAbs c)

/-- Exact product; ∞ × 0 is NaN with NV. -/
def FVal.mul (x y : FVal) : Fm FVal :=
  match x, y with
  | .nan, _ => pure .nan
  | _, .nan => pure .nan
  | .inf a, .inf b => pure (.inf (a != b))
  | .inf a, .fin b n _ => if n = 0 then do setFlags flagNV; pure .nan else pure (.inf (a != b))
  | .fin b n _, .inf a => if n = 0 then do setFlags flagNV; pure .nan else pure (.inf (a != b))
  | .fin a n d, .fin b m e => pure (.fin (a != b) (n * m) (d * e))

/-- Exact quotient; a finite value over ±0 is ±∞ with OF, 0 / 0 and ∞ / ∞ are NaN with NV (R186). -/
def FVal.div (x y : FVal) : Fm FVal :=
  match x, y with
  | .nan, _ => pure .nan
  | _, .nan => pure .nan
  | .inf _, .inf _ => do setFlags flagNV; pure .nan
  | .inf a, .fin b _ _ => pure (.inf (a != b))
  | .fin a _ _, .inf b => pure (.fin (a != b) 0 1)
  | .fin a n d, .fin b m e =>
    if m = 0 then (if n = 0 then do setFlags flagNV; pure .nan else do setFlags flagOF; pure (.inf (a != b)))
    else pure (.fin (a != b) (n * e) (d * m))

/-- Square root rounded into F32; of a value below −0 it is NaN with NV (R186). The root is taken to 2⁻⁴⁰ of its size with a sticky bit, so the one rounding is correct. -/
def FVal.sqrt (x : FVal) : Fm FVal :=
  match x with
  | .nan => pure .nan
  | .inf true => do setFlags flagNV; pure .nan
  | .inf false => pure (.inf false)
  | .fin neg n d =>
    if n = 0 then pure (.fin neg 0 1)
    else if neg then do setFlags flagNV; pure .nan
    else
      let k := floorLog2 n d / 2
      let e : Int := 2 * (k - 80)
      let q := n * pow2Den e / (d * pow2Num e)
      let r := isqrt q
      let exact := r * r = q ∧ n * pow2Den e % (d * pow2Num e) = 0
      pure (finOf false (2 * r + if exact then 0 else 1) (k - 80 - 1))

/-- F32 addition (R177). -/
def f32Add (rtz : Bool) (x y : Word) : Fm Word := do toF32 rtz (← (f32Val x).add (f32Val y))
/-- F32 subtraction. -/
def f32Sub (rtz : Bool) (x y : Word) : Fm Word := do toF32 rtz (← (f32Val x).add (f32Val y).opp)
/-- F32 multiplication. -/
def f32Mul (rtz : Bool) (x y : Word) : Fm Word := do toF32 rtz (← (f32Val x).mul (f32Val y))
/-- Exact x · y + z; a NaN among the operands makes NaN and sets no flag (R184). -/
def FVal.fma (x y z : FVal) : Fm FVal :=
  match z with
  | .nan => pure .nan
  | _ => do (← x.mul y).add z

/-- F32 fused multiply-add with a single rounding. -/
def f32Fma (rtz : Bool) (x y z : Word) : Fm Word := do toF32 rtz (← (f32Val x).fma (f32Val y) (f32Val z))
/-- F32 quotient, correctly rounded. -/
def f32Div (rtz : Bool) (x y : Word) : Fm Word := do toF32 rtz (← (f32Val x).div (f32Val y))
/-- F32 reciprocal. -/
def f32Recip (rtz : Bool) (x : Word) : Fm Word := f32Div rtz 0x3F800000 x
/-- F32 square root. -/
def f32Sqrt (rtz : Bool) (x : Word) : Fm Word := do toF32 rtz (← (f32Val x).sqrt)
/-- Canonical NaN of F32 (R184). -/
def f32Nan : Word := 0x7FC00000

/-- Is an F32 word a NaN, or infinite. -/
def f32IsNan (x : Word) : Bool := (f32Val x).isNan
def f32IsFin (x : Word) : Bool := (f32Val x).isFin

/-- The exact sum of products (R176, R184): NaN without a flag where a product is NaN; else infinities of both signs give NaN with NV. -/
def exactSum (ps : List FVal) : Fm FVal :=
  if ps.any FVal.isNan then pure .nan
  else match ps with
    | [] => pure (.fin false 0 1)
    | p :: l => l.foldlM (fun s x => s.add x) p

/-- Order of two values that are not NaN: x < y. -/
def FVal.lt (x y : FVal) : Bool :=
  match x, y with
  | .nan, _ => false
  | _, .nan => false
  | .inf a, .inf b => a && !b
  | .inf a, _ => a
  | _, .inf b => !b
  | x, y => decide (x.rat < y.rat)

/-- x < y on F32; false with a NaN. -/
def f32Lt (x y : Word) : Bool := (f32Val x).lt (f32Val y)
/-- x ≤ y on F32; false with a NaN. -/
def f32Le (x y : Word) : Bool := !(f32IsNan x) && !(f32IsNan y) && !(f32Lt y x)
/-- x = y on F32 by value; false with a NaN. -/
def f32Eq (x y : Word) : Bool := f32Le x y && f32Le y x
/-- Absolute value and negation of an F32 word. -/
def f32Abs (x : Word) : Word := if f32IsNan x then f32Nan else x &&& 0x7FFFFFFF
def f32Neg (x : Word) : Word := if f32IsNan x then f32Nan else x ^^^ 0x80000000

/-- The value of a code in an element format (R172): codes 0 to 14. E2M1 is taken without its scale. -/
def formatVal (code v : Nat) : FVal :=
  match code with
  | 0 => intVal (signedNat 4 v) 0
  | 1 => intVal (signedNat 8 v) 0
  | 2 => intVal (v % 256) 0
  | 3 => intVal (signedNat 16 v) 0
  | 4 => intVal (v % 65536) 0
  | 5 => intVal (signedNat 32 v) 0
  | 6 => intVal (signedNat 32 v) (-16)
  | 7 => intVal (signedNat 64 v) (-32)
  | 8 => fmtE2M1.decode v
  | 9 => fmtE4M3.decode v
  | 10 => fmtE5M2.decode v
  | 11 => fmtH16.decode v
  | 12 => fmtB16.decode v
  | 13 => fmtF32.decode v
  | _ => if v = 255 then .nan else finOf false 1 ((v : Int) - 127)

/-- Bits of an element of a format (R172); 0 for the reserved code. -/
def formatBits : Nat → Nat
  | 0 => 4 | 1 => 8 | 2 => 8 | 3 => 16 | 4 => 16 | 5 => 32 | 6 => 32 | 7 => 64 | 8 => 4
  | 9 => 8 | 10 => 8 | 11 => 16 | 12 => 16 | 13 => 32 | 14 => 8 | _ => 0

/-- Is the format an integer or fixed-point one. -/
def formatIsInt (code : Nat) : Bool := code ≤ 7

/-- Convert a value to an integer or fixed-point format of `w` bits and LSB 2^e: round, then saturate (R183, R184). -/
def toFixed (a : Arith) (signed : Bool) (w : Nat) (e : Int) (v : FVal) : Fm Int :=
  let lo : Int := if signed then -(2 ^ (w - 1) : Nat) else 0
  let hi : Int := if signed then (2 ^ (w - 1) : Nat) - 1 else (2 ^ w : Nat) - 1
  match v with
  | .nan => do setFlags flagNV; pure 0
  | .inf neg => do setFlags flagST; pure (if neg then lo else hi)
  | .fin neg n d =>
    let (m, exact) := roundUnits a.rtz n d e
    let x : Int := if neg then -(m : Int) else m
    let y := clampInt lo hi x
    if x = y then do flagIf (!exact) flagNX; pure y
    else do setFlags (flagST ||| flagNX); pure y

/-- Write an F32 value in E8M0 (R172, R183): the nearest power of two under the rounding field, a tie to the even code. DESIGN CHOICE, log entry 158. -/
def toE8M0 (a : Arith) (w : Word) : Fm Nat :=
  match f32Val w with
  | .nan => pure 255
  | .fin false (n + 1) d =>
    let k := floorLog2 (n + 1) d
    -- the value against 1.5 · 2^k
    let x := 2 * (n + 1) * pow2Den k
    let y := 3 * d * pow2Num k
    let up := !a.rtz && (decide (y < x) || (x == y && (k + 127) % 2 == 1))
    let e := k + 127 + if up then 1 else 0
    if 254 < e then do setFlags flagNX; pure (Config.e8m0Open w).toNat
    -- below the least power of two, that is the nearest one
    else if e < 0 then do setFlags flagNX; pure 0
    else do
      flagIf ((n + 1) * pow2Den k != d * pow2Num k) flagNX
      pure e.toNat
  | _ => do setFlags flagNX; pure (Config.e8m0Open w).toNat

/-- Write an F32 value in an element format other than E2M1 (R183): the code. -/
def fromF32 (a : Arith) (code : Nat) (w : Word) : Fm Nat :=
  let v := f32Val w
  let int (signed : Bool) (bits : Nat) (e : Int) : Fm Nat := do return codeInt bits (← toFixed a signed bits e v)
  match code with
  | 0 => int true 4 0
  | 1 => int true 8 0
  | 2 => int false 8 0
  | 3 => int true 16 0
  | 4 => int false 16 0
  | 5 => int true 32 0
  | 6 => int true 32 (-16)
  | 7 => int true 64 (-32)
  | 9 => fmtE4M3.encode a v
  | 10 => fmtE5M2.encode a v
  | 11 => fmtH16.encode a v
  | 12 => fmtB16.encode a v
  | 13 => pure (if f32IsNan w then fmtF32.nanCode else w.toNat)
  | _ => toE8M0 a w

/-- Convert an exact value to F32: the first half of every conversion (R183). -/
def valToF32 (a : Arith) (v : FVal) : Fm Word := toF32 a.rtz v

/-- Convert between element formats other than E2M1 (R183): through F32. -/
def convert (a : Arith) (src dst v : Nat) : Fm Nat := do
  fromF32 a dst (← valToF32 a (formatVal src v))

/-- One element of an MX block under the block exponent e (R185). -/
def mxElem (a : Arith) (e : Int) (x : Word) : Fm Nat :=
  match f32Val x with
  | .fin neg n d =>
    if n = 0 then pure (fmtE2M1.sign neg) else
    let num := n * pow2Den e
    let den := d * pow2Num e
    let k := floorLog2 num den
    let u : Int := (if k < 0 then 0 else k) - 1
    let (m, exact) := roundUnits a.rtz num den u
    let y : Rat := (m : Rat) * pow2Num u / pow2Den u
    let code : Nat := if k < 0 then m else (k + 1).toNat * 2 + (m - 2)
    if (6 : Rat) < y then do setFlags (flagST ||| flagNX); pure (fmtE2M1.sign neg + 7)
    else do
      flagIf (!exact) flagNX
      flagIf (decide (num < den) && !exact) flagUF
      if a.flush && code == 1 then do setFlags (flagUF ||| flagNX); pure (fmtE2M1.sign neg)
      else pure (fmtE2M1.sign neg + code)
  | _ => pure 0

/-- Conversion of one MX block of F32 values to E2M1: the scale code and the element codes (R185). -/
def toMxBlock (a : Arith) (xs : List Word) : Fm (Nat × List Nat) :=
  if xs.any (fun x => !(f32IsFin x)) then do
    setFlags flagNV
    pure (255, xs.map fun _ => 0)
  else
    let amax := xs.foldl (fun (m : Rat) x => let v := (f32Val (f32Abs x)).rat; if m < v then v else m) 0
    let e : Int := if amax = 0 then -127 else clampInt (-127) 127 (floorLog2 amax.num.natAbs amax.den - 2)
    do return ((e + 127).toNat, ← xs.mapM (mxElem a e))

/-- Value of an E2M1 element under its block's scale (R174). -/
def mxVal (scale elem : Nat) : FVal :=
  if scale = 255 then .nan else
  match fmtE2M1.decode elem with
  | .fin neg n d =>
    let e : Int := (scale : Int) - 127
    .fin neg (n * pow2Num e) (d * pow2Den e)
  | v => v

/-- Saturate an exact integer at the S32 limits, setting ST (R178). -/
def satS32 (v : Int) : Fm Int := do
  let r := satInt 32 v
  flagIf (r != v) flagST
  pure r

/-- Q15.16 product of two LSB counts under the rounding field (R178). -/
def mulQ (a : Arith) (x y : Int) : Fm Int := do
  let p := x * y
  let r := if a.rtz then (if p < 0 then -((-p) / 65536) else p / 65536) else rneDiv p 65536
  flagIf (p % 65536 != 0) flagNX
  let s := satInt 32 r
  flagIf (s != r) (flagST ||| flagNX)
  pure s

/-- F32 arithmetic under RNE without flags (R177). -/
def fAdd (x y : Word) : Word := (f32Add false x y).go.1
def fSub (x y : Word) : Word := (f32Sub false x y).go.1
def fMul (x y : Word) : Word := (f32Mul false x y).go.1
def fDiv (x y : Word) : Word := (f32Div false x y).go.1
def fSqrt (x : Word) : Word := (f32Sqrt false x).go.1
def fOfRat (q : Rat) : Word := (toF32 false (ratVal q)).go.1
def fOfInt (v : Int) : Word := (toF32 false (intVal v 0)).go.1

end Sys2Proof.Machine
end

