-- ==== Sys2Proof/Machine/Operands.lean ====
section
/-! DEFINITION. The operand forms of a command list: tensor descriptors, bound dimensions, element addresses, window expansion and
element reads and writes (spec 11_tensor_engines R285 to R290, spec 12 R297 to R303). -/

namespace Sys2Proof.Machine

open Sys2Proof

/-- A command list's header (R298). -/
structure ListHeader where
  slot : Nat
  golden : Bool
  descCount : Nat
  cmdCount : Nat
  next : Word
  completion : Nat
  expectFlags : BitVec 8
  expectDigest : Bytes
deriving DecidableEq, Repr

/-- The header at the head of 64 bytes (R298). -/
def ListHeader.ofBytes (bs : Bytes) : ListHeader :=
  { slot := fieldOf bs 8 7, golden := fieldOf bs 15 1 == 1, descCount := fieldOf bs 16 12, cmdCount := fieldOf bs 28 12
    next := BitVec.ofNat 32 (fieldOf bs 64 32), completion := fieldOf bs 96 32
    expectFlags := BitVec.ofNat 8 (fieldOf bs 128 8), expectDigest := slice bs 20 32 }

/-- A tensor descriptor (R285). -/
structure Desc where
  format : Nat
  rank : Nat
  space : Nat
  bindDim : Nat
  base : Nat
  countAddr : Nat
  parity : Nat
  dim : List Nat
  stride : List Int
deriving DecidableEq, Repr

/-- The descriptor in 64 bytes (R285). -/
def Desc.ofBytes (bs : Bytes) : Desc :=
  { format := fieldOf bs 4 4, rank := fieldOf bs 8 3, space := fieldOf bs 11 2, bindDim := fieldOf bs 13 3
    base := fieldOf bs 24 40, countAddr := fieldOf bs 64 32, parity := fieldOf bs 96 32
    dim := (List.range 6).map fun d => fieldOf bs (128 + 24 * d) 24
    stride := (List.range 6).map fun d => signedNat 32 (fieldOf bs (272 + 32 * d) 32) }

/-- A window descriptor (R289). -/
structure Window where
  kh : Nat
  kw : Nat
  sh : Nat
  sw : Nat
  dh : Nat
  dw : Nat
  padT : Nat
  padB : Nat
  padL : Nat
  padR : Nat
  pad : Nat
deriving DecidableEq, Repr

/-- The window in 16 bytes (R289). -/
def Window.ofBytes (bs : Bytes) : Window :=
  { kh := fieldOf bs 4 3, kw := fieldOf bs 7 3, sh := fieldOf bs 10 2 + 1, sw := fieldOf bs 12 2 + 1
    dh := fieldOf bs 14 2 + 1, dw := fieldOf bs 16 2 + 1, padT := fieldOf bs 18 3, padB := fieldOf bs 21 3
    padL := fieldOf bs 24 3, padR := fieldOf bs 27 3, pad := fieldOf bs 32 32 }

/-- A tensor as a command sees it: its effective base (R286), its dimensions after binding (R287). -/
structure Tens where
  space : Space
  base : Nat
  format : Nat
  dim : List Nat
  stride : List Int
deriving DecidableEq, Repr

/-- Dimension d. -/
def Tens.d (x : Tens) (i : Nat) : Nat := x.dim.getD i 1

/-- What the load/store unit needs to resolve descriptors: the engine, the slot and the parity of the frame. -/
structure TensEnv where
  engine : Fin 4
  slot : Option SlotEntry
  odd : Bool
deriving DecidableEq, Repr

/-- Resolve a descriptor (R286, R287): the tensor, and the count word where it is above DIM. -/
def Desc.resolve (d : Desc) (e : TensEnv) (m : Memory) : Tens × Option Nat :=
  let off := if e.odd then d.parity else 0
  let (sp, b) : Space × Nat := match d.space, e.slot with
    | 0, _ => (.cistern, d.base)
    | 1, _ => (.loc e.engine, d.base)
    | 2, _ => (.dram, d.base)
    | _, some s => (s.space, s.base + d.base)
    | _, none => (.cistern, d.base)
  if d.bindDim < 6 then
    let count := m.readNat .cistern (d.countAddr + off) 4
    let top := d.dim.getD d.bindDim 1
    (⟨sp, b + off, d.format, d.dim.set d.bindDim (min count top), d.stride⟩, if top < count then some count else none)
  else (⟨sp, b + off, d.format, d.dim, d.stride⟩, none)

/-- Every index of a tensor of these dimensions, in ascending linear index with dimension 0 fastest. -/
def indices : List Nat → List (List Nat)
  | [] => [[]]
  | d :: ds => (indices ds).flatMap fun r => (List.range d).map fun i => i :: r

/-- Number of elements. -/
def sizeOf : List Nat → Nat
  | [] => 1
  | d :: ds => d * sizeOf ds

/-- The index at a linear place. -/
def unflatten : List Nat → Nat → List Nat
  | [], _ => []
  | d :: ds, n => (n % d) :: unflatten ds (n / d)

/-- Offset of an element in elements (R286). -/
def Tens.offset (x : Tens) (i : List Nat) : Int := (List.zipWith (fun (k : Nat) (s : Int) => (k : Int) * s) i x.stride).foldl (· + ·) 0

/-- Does the format pack two elements to a byte (R173). -/
def isNibble (format : Nat) : Bool := format == 0 || format == 8

/-- Byte address of the element at an element offset, and its nibble (R286, R173). -/
def Tens.place (x : Tens) (a : Int) : Nat × Bool :=
  if isNibble x.format then
    let n := (2 * (x.base : Int) + a).toNat
    (n / 2, n % 2 == 1)
  else (((x.base : Int) + a * ((formatBits x.format / 8 : Nat) : Int)).toNat, false)

/-- The code of an element. -/
def Tens.code (x : Tens) (m : Memory) (i : List Nat) : Nat :=
  let (a, hi) := x.place (x.offset i)
  if isNibble x.format then
    let b := (m.get x.space a).toNat
    if hi then b / 16 else b % 16
  else m.readNat x.space a (formatBits x.format / 8)

/-- Write an element's code. -/
def Tens.put (x : Tens) (m : Memory) (i : List Nat) (v : Nat) : Memory :=
  let (a, hi) := x.place (x.offset i)
  if isNibble x.format then
    let b := (m.get x.space a).toNat
    m.write x.space a [BitVec.ofNat 8 (if hi then b % 16 + 16 * (v % 16) else b / 16 * 16 + v % 16)]
  else m.write x.space a (leBytes (formatBits x.format / 8) v)

/-- Write codes at the indices given, in order. -/
def Tens.putAll (x : Tens) (m : Memory) (vs : List (List Nat × Nat)) : Memory := vs.foldl (fun m (i, v) => x.put m i v) m

/-- Does any element of the tensor lie in a poisoned word (R472). -/
def Tens.poisoned (x : Tens) (m : Memory) : Bool :=
  !(m.bad x.space).isEmpty && (indices x.dim).any fun i => m.poisoned x.space (x.place (x.offset i)).1 (max 1 (formatBits x.format / 8))

/-- Value of an element, with the E8M0 scale tensor of an E2M1 operand; without one the scale is 0x7F (R174, R304). -/
def Tens.val (x : Tens) (m : Memory) (scale : Option Tens) (i : List Nat) : FVal :=
  let c := x.code m i
  if x.format = 8 then
    mxVal (match scale with | some s => s.code m (i.getD 0 0 / 32 :: i.drop 1) | none => 0x7F) c
  else formatVal x.format c

/-- An element as the vector cores take it: in F32 (R177). -/
def Tens.f32 (x : Tens) (m : Memory) (a : Arith) (scale : Option Tens) (i : List Nat) : Fm Word := valToF32 a (x.val m scale i)

/-- Write an F32 value in the destination's format (R183); an E2M1 destination without a scale tensor takes the scale 0x7F.
DEDUCED, log entry 114. -/
def storeCode (a : Arith) (format : Nat) (w : Word) : Fm Nat :=
  if format = 8 then (if f32IsFin w then mxElem a 0 w else do setFlags flagNV; pure 0)
  else fromF32 a format w

/-- Is the tensor's format one of the integers S4 to S32 (R177). -/
def Tens.isInt (x : Tens) : Bool := decide (x.format ≤ 5)

/-- The integer of an element of an integer or fixed-point format, in units of its last place. -/
def Tens.int (x : Tens) (m : Memory) (i : List Nat) : Int :=
  let c := x.code m i
  match x.format with
  | 0 => signedNat 4 c | 1 => signedNat 8 c | 2 => (c : Int) | 3 => signedNat 16 c | 4 => (c : Int)
  | 7 => signedNat 64 c | _ => signedNat 32 c

/-- Output rows and columns of a window over an H × W input (R290). -/
def Window.outH (w : Window) (h : Nat) : Nat := (h + w.padT + w.padB - w.dh * (w.kh - 1) - 1) / w.sh + 1
def Window.outW (w : Window) (x : Nat) : Nat := (x + w.padL + w.padR - w.dw * (w.kw - 1) - 1) / w.sw + 1

/-- The value of the expanded operand at batch, output row, output column and reduction index k (R290). -/
def Window.elem (w : Window) (x : Tens) (m : Memory) (scale : Option Tens) (batch : List Nat) (oh ow k : Nat) : FVal :=
  let c := x.d 0
  let kw := k / c % w.kw
  let kh := k / c / w.kw
  let ih : Int := (oh * w.sh : Nat) - (w.padT : Int) + (kh * w.dh : Nat)
  let iw : Int := (ow * w.sw : Nat) - (w.padL : Int) + (kw * w.dw : Nat)
  if 0 ≤ ih ∧ ih < (x.d 2 : Int) ∧ 0 ≤ iw ∧ iw < (x.d 1 : Int) then
    x.val m scale (k % c :: iw.toNat :: ih.toNat :: batch)
  else if x.format = 8 then mxVal 0x7F (w.pad % 16)
  else formatVal x.format (w.pad % 2 ^ formatBits x.format)

/-- One command (R301, R303). -/
structure Command where
  opcode : Nat
  arith : Arith
  op : List Nat
  p : List Nat
  bits : Nat
deriving DecidableEq, Repr

/-- The command in 32 bytes (R301, R303). -/
def Command.ofBytes (bs : Bytes) : Command :=
  let n := leNat bs
  { opcode := fieldNat n 0 8, arith := .ofNat (fieldNat n 12 8), op := (List.range 8).map fun i => fieldNat n (32 + 12 * i) 12
    p := (List.range 4).map fun j => fieldNat n (128 + 32 * j) 32, bits := n }

/-- Parameter j as a word. -/
def Command.param (c : Command) (j : Nat) : Nat := c.p.getD j 0
def Command.paramW (c : Command) (j : Nat) : Word := BitVec.ofNat 32 (c.param j)

/-- The bytes of entry i of a list's descriptor table (R297). -/
def descBytes (m : Memory) (list i : Nat) : Bytes := m.read .cistern (list + 64 + 64 * i) 64

/-- The bytes of command i of a list (R297). -/
def cmdBytes (m : Memory) (list : Nat) (h : ListHeader) (i : Nat) : Bytes := m.read .cistern (list + 64 + 64 * h.descCount + 32 * i) 32

/-! ### Operands of the commands (R303) -/

/-- Operands that a command reads as tensors, and those it must have (R303). -/
def readOps : Nat → List Nat × List Nat
  | 0x01 => ([0, 3], [0]) | 0x02 => ([], []) | 0x10 | 0x11 | 0x12 => ([0, 1, 2, 3, 4, 6, 7], [0, 1])
  | 0x20 => ([0, 1], [0, 1]) | 0x21 => ([0, 1], [0, 1]) | 0x30 => ([0], [0]) | 0x31 => ([0, 1], [0, 1]) | 0x32 => ([0, 1, 2], [0, 1, 2])
  | 0x33 => ([0], [0]) | 0x34 => ([0, 2], [0]) | 0x35 => ([0, 1, 2], [0]) | 0x40 => ([0, 1, 2, 3, 4], [0, 1, 2, 3, 4])
  | 0x41 | 0x43 => ([0, 1, 2, 3, 4], [0, 1, 2, 3, 4]) | 0x42 => ([0, 1, 2], [0, 1, 2]) | 0x60 => ([0], [0])
  | _ => ([], [])

/-- Operands that a command writes, and those it must have. -/
def destOps : Nat → List Nat × List Nat
  | 0x01 => ([1, 2], [1]) | 0x02 => ([1], [1]) | 0x10 | 0x11 | 0x12 => ([5], [5]) | 0x20 | 0x21 => ([2], [2]) | 0x30 => ([1], [1])
  | 0x31 => ([2], [2]) | 0x32 => ([3], [3]) | 0x33 | 0x34 => ([1], [1]) | 0x35 => ([3], [3]) | 0x40 => ([5], [5]) | 0x60 => ([1], [])
  | _ => ([], [])

/-- The operands that a command may name: those of its row (R303). -/
def operandsOf (op : Nat) : List Nat := (readOps op).1 ++ (destOps op).1

end Sys2Proof.Machine
end

