-- ==== Sys2Proof/Machine/Records.lean ====
section
/-! DEFINITION. The bytes of the records and of the edge code (spec 05 R140, spec 06 R151 to R153). -/

namespace Sys2Proof.Machine

open Sys2Proof

/-- Stream state code (R165). -/
def HgSt.code : HgSt → Nat
  | .off => 0 | .waiting => 1 | .probation => 2 | .active => 3 | .gap => 4 | .timedOut => 5 | .resync => 6 | .masked => 7

/-- The 8 bytes of an edge code (R140). -/
def EdgeCode.bytes (c : EdgeCode) : Bytes :=
  packBytes 8 [(32, c.stamp.toNat), (24, c.count.toNat), (2, c.line.toNat), (1, c.level.toNat), (1, c.fell.toNat),
    (1, c.glitch.toNat), (1, c.illegal.toNat), (2, 1)]

/-- KIND of a record (R151). -/
def RecBody.kind : RecBody → Nat
  | .frameMark .. => 0 | .point .. => 1 | .depthPixel .. => 2 | .pixelRow .. => 3 | .scalar .. => 4 | .edge .. => 5
  | .sweepEnd .. => 6 | .frameEnd .. => 7 | .state .. => 8

/-- The body of a record (R153, R152). -/
def RecBody.bytes : RecBody → Bytes
  | .frameMark n b => leBytes 8 n.toNat ++ leBytes 8 b.toNat
  | .point az el r i c ret fl sec =>
    packBytes 16 [(16, az.toNat), (16, el.toNat), (32, r.toNat), (16, i.toNat), (8, c.toNat), (8, ret.toNat), (8, fl.toNat), (9, sec.toNat)]
  | .depthPixel col row d c => packBytes 16 [(16, col.toNat), (16, row.toNat), (32, d.toNat), (16, c.toNat)]
  | .pixelRow row dt vc emb p =>
    packBytes 8 [(16, row.toNat), (16, p.length), (6, dt.toNat), (4, vc.toNat), (1, emb.toNat)]
      ++ p ++ List.replicate ((8 - p.length % 8) % 8) 0
  | .scalar ctr age vs =>
    packBytes 12 [(4, vs.length), (28, 0), (32, ctr.toNat), (32, age.toNat)] ++ vs.flatMap fun v => leBytes 4 v.toNat
  | .edge c => c.bytes
  | .sweepEnd cov p n => packBytes 48 [(360, cov.toNat), (1, p.toNat), (7, 0), (8, n.toNat)]
  | .frameEnd rows c n => packBytes 16 [(16, rows.toNat), (1, c.toNat), (15, 0), (16, n.toNat)]
  | .state new old r => packBytes 8 [(4, new.code), (4, old.code), (8, r.toNat)]

/-- A record padded to a multiple of 16 bytes (R151). -/
def Rec.bytes (r : Rec) : Bytes :=
  let body := r.body.bytes
  let all := packBytes 16 [(4, 1), (4, r.body.kind), (6, r.hg.val), (2, 0), (4, r.epoch.toNat), (8, r.conf.toNat), (1, r.held.toNat),
    (1, r.filtered.toNat), (1, r.probation.toNat), (1, r.last.toNat), (32, r.tov.toNat), (32, r.too.toNat), (16, body.length),
    (16, r.itemNo.toNat)] ++ body
  all ++ List.replicate ((16 - all.length % 16) % 16) 0

/-- Bytes that a record takes in a flume. -/
def Rec.size (r : Rec) : Nat := (16 + r.body.bytes.length + 15) / 16 * 16

end Sys2Proof.Machine
end

