-- ==== Sys2Proof/Machine/Parse.lean ====
section
/-! DEFINITION. How a headgate reads an item: extractors, templates, field entries, profiles and filters (spec 05 R129 to R134, spec 06 R158, R159). -/

namespace Sys2Proof.Machine

open Sys2Proof

/-- Bytes of a raw field type (R131). -/
def rawSize : Nat → Nat
  | 0 => 1 | 1 => 2 | 2 => 4 | 3 => 8 | 4 => 2 | 5 => 4 | 6 => 4 | _ => 0

/-- The unsigned raw bits of a field. -/
def rawBits (bs : Bytes) (type : Nat) (big : Bool) (off : Nat) : Nat :=
  let f := slice bs off (rawSize type)
  if big then beNat f else leNat f

/-- A raw field as F32 under RNE (R132): exact for U8, U16 and S16. -/
def rawF32 (type bits : Nat) : Word :=
  let v : FVal := match type with
    | 4 => intVal (signedNat 16 bits) 0
    | 5 => intVal (signedNat 32 bits) 0
    | 6 => fmtF32.decode bits
    | _ => intVal bits 0
  (toF32 false v).go.1

/-- raw × SCALE + BIAS with one rounding (R132). -/
def scaled (type bits : Nat) (scale bias : Word) : Word := (f32Fma false (rawF32 type bits) scale bias).go.1

/-- Is a raw field a zero (R132). -/
def rawZero (type bits : Nat) : Bool := if type = 6 then (fmtF32.decode bits).isZero else bits == 0

/-- An F32 value as Q15.16 under RNE, saturating. -/
def toQ16 (w : Word) : Word := BitVec.ofInt 32 (toFixed {} true 32 (-16) (f32Val w)).go.1

/-- An F32 value as U16 under RNE, saturating; NaN gives 0 (R132). -/
def toU16 (w : Word) : BitVec 16 := BitVec.ofInt 16 (toFixed {} false 16 0 (f32Val w)).go.1

/-- An azimuth of `w` degrees plus a correction, as U16 in 2⁻¹⁶ turn (R132). -/
def toAz (w : Word) (corr : BitVec 16) : BitVec 16 := BitVec.ofInt 16 (rneRat ((f32Val w).rat * 65536 / 360)) + corr

/-- SECTOR of an azimuth (R153). -/
def sectorOf (az : BitVec 16) : Nat := az.toNat * 360 / 65536

/-- An extractor from its 16-byte entry (R131). -/
def Extractor.ofBytes (bs : Bytes) : Extractor :=
  { version := fieldOf bs 0 4, dest := fieldOf bs 4 5, type := fieldOf bs 9 3, big := fieldOf bs 12 1 == 1, scope := fieldOf bs 13 2
    offset := fieldOf bs 16 16, scale := BitVec.ofNat 32 (fieldOf bs 32 32), bias := BitVec.ofNat 32 (fieldOf bs 64 32)
    expect := BitVec.ofNat 32 (fieldOf bs 96 32) }

/-- The extractor that is read for a destination: of several, the first. DESIGN CHOICE, log entry 178. -/
def Template.find (t : Template) (dest : Nat) : Option Extractor := t.extractors.find? (·.dest == dest)

/-- The extractor that holds the profile's check value (R158). -/
def Template.profileCheck (t : Template) : Option Extractor := t.extractors.find? (fun e => e.dest == 1)

/-- Offset of block `b` and of return `c` in the payload (R130). -/
def Template.blockAt (t : Template) (b : Nat) : Nat := t.blockOffset0 + b * t.blockStride
def Template.returnAt (t : Template) (b c : Nat) : Nat := t.blockAt b + t.channelOffset0 + c * t.channelStride

/-- Offset of an extractor read for block `b`, return `c` (R131). -/
def Template.place (t : Template) (e : Extractor) (b c : Nat) : Nat :=
  match e.scope with | 0 => e.offset | 1 => t.blockAt b + e.offset | _ => t.returnAt b c + e.offset

/-- The raw bits of an extractor. -/
def Template.raw (t : Template) (p : Bytes) (e : Extractor) (b c : Nat) : Nat := rawBits p e.type e.big (t.place e b c)

/-- A raw field as an integer by its TYPE (R131, R132). R132 does not say which integer an F32 field gives: its code. DESIGN CHOICE, log entry 151. -/
def rawInt (type bits : Nat) : Int := match type with | 4 => signedNat 16 bits | 5 => signedNat 32 bits | _ => (bits : Int)

/-- The integer of a destination, 0 where the template has none. -/
def Template.int (t : Template) (p : Bytes) (dest b c : Nat) : Int :=
  match t.find dest with | some e => rawInt e.type (t.raw p e b c) | none => 0

/-- The scaled F32 of a destination. -/
def Template.val (t : Template) (p : Bytes) (dest b c : Nat) : Option (Extractor × Word) :=
  (t.find dest).map fun e => (e, scaled e.type (t.raw p e b c) e.scale e.bias)

/-- Check 2 for a frame (R134): PAYLOAD_LEN, and every CHECK extractor compared with EXPECT except the profile's. -/
def Template.parses (t : Template) (profile : Profile) (p : Bytes) : Bool :=
  p.length == t.payloadLen &&
  (List.zip (List.range t.extractors.length) t.extractors).all fun (i, e) =>
    e.dest != 1 ||
    (profile != .none && (t.extractors.findIdx (·.dest == 1)) == i) ||
    (List.range (if e.scope = 0 then 1 else t.blockCount)).all fun b =>
      (List.range (if e.scope = 2 then t.channels else 1)).all fun c =>
        t.raw p e b c == e.expect.toNat

/-- The check value of an integrity profile over bytes (R158). -/
def Profile.value (pr : Profile) (bs : Bytes) : Nat :=
  match pr with
  | .none => 0
  | .crc8 => crc 8 0x1D 0xFF false 0xFF bs
  | .crc16 => crc 16 0x1021 0xFFFF false 0 bs
  | .crc32c => Sys2Proof.Machine.crc32c bs

/-- Check 3 (R158): the check field at `off` against the bytes from CRC_START to the byte before it, preceded by DATA_ID. -/
def profileOk (cfg : HgCfg) (bs : Bytes) (off found : Nat) : Bool :=
  match cfg.profile with
  | .none => true
  | p => p.value (cfg.dataId ++ slice bs cfg.crcStart (off - cfg.crcStart)) == found

/-- ticks(v, unit) of R133, modulo 2⁶⁴. -/
def sensorTicks (unit : Nat) (v : Int) : T64 :=
  match unit with
  | 0 => BitVec.ofInt 64 (v * 8)
  | 1 => BitVec.ofInt 64 (v * 8000)
  | _ => BitVec.ofInt 64 (v.fdiv (2 ^ 32) * 8000000000 + rneDiv (v.fmod (2 ^ 32) * 8000000000) (2 ^ 32))

/-- The base time of a frame (R133) under the map offset in force at its stamp. -/
def Template.base (t : Template) (p : Bytes) (stamp : T64) (offset : Nat) : T64 :=
  if t.sensorTime then sensorTicks t.timeUnit (t.int p 3 0 0) - BitVec.ofNat 64 offset + BitVec.ofInt 64 t.timeAdj
  else stamp - BitVec.ofNat 64 t.pktLatency

/-- The azimuth of a block: its block-scope or packet-scope extractor, before AZ_CORR (R132). DESIGN CHOICE, log entry 183. -/
def Template.blockAz (t : Template) (p : Bytes) (b : Nat) : Option (BitVec 16) :=
  match t.val p 5 b 0 with
  | some (_, w) => if f32IsFin w then some (toAz w 0) else none
  | none => some 0

/-- A point of a block with its time of validity and the turns by which AZ_CORR carries it past its block's own (R164), or whether it is
dropped for its range or a value that is not finite (R132, R157). -/
inductive PointOut where
  | point (tov : T64) (body : RecBody) (turn : Int)
  | dropped
deriving DecidableEq, Repr

/-- Turns between a block's azimuth and a point of it, the nearer way round (R132, R164). -/
def turnOf (block az : BitVec 16) : Int := ((block.toNat : Int) + (az - block).toInt) / 65536

/-- The points of block `b` of a POINT_BLOCK frame (R132, R133). DESIGN CHOICE, log entry 183. -/
def Template.blockPoints (t : Template) (cfg : HgCfg) (p : Bytes) (base : T64) (b : Nat) : List PointOut :=
  (List.range t.channels).filterMap fun c =>
    match t.find 6 with
    | none => none
    | some e =>
      let raw := t.raw p e b c
      if rawZero e.type raw then none else
      let rw := scaled e.type raw e.scale e.bias
      let az := match t.val p 5 b c with | some (_, w) => if f32IsFin w then some (toAz w (t.azCorr.getD c 0)) else none | none => some (t.azCorr.getD c 0)
      match az with
      | none => some .dropped
      | some a =>
        if !(f32IsFin rw) then some .dropped else
        let q := toQ16 rw
        if q.toInt < cfg.rangeMin || cfg.rangeMax < q.toInt then some .dropped else
        let inten := match t.val p 7 b c with | some (_, w) => toU16 w | none => 0
        some (.point (base + BitVec.ofNat 64 (b * t.blockDt + c * t.channelDt))
          (.point a (t.elev.getD c 0) q inten (BitVec.ofNat 8 c) (BitVec.ofInt 8 (t.int p 8 b c)) (BitVec.ofInt 8 (t.int p 9 b c))
            (BitVec.ofNat 9 (sectorOf a))) (turnOf ((t.blockAz p b).getD a) a))

/-- The pixels of run `b` of a DEPTH_ROWS frame (R132): without its own COLUMN a pixel takes its place in the run. DESIGN CHOICE, log entry 183. -/
def Template.runPixels (t : Template) (cfg : HgCfg) (p : Bytes) (base : T64) (b : Nat) : List PointOut :=
  (List.range t.channels).filterMap fun c =>
    match t.find 12 with
    | none => none
    | some e =>
      let raw := t.raw p e b c
      if rawZero e.type raw then none else
      let rw := scaled e.type raw e.scale e.bias
      if !(f32IsFin rw) then some .dropped else
      let q := toQ16 rw
      if q.toInt < cfg.rangeMin || cfg.rangeMax < q.toInt then some .dropped else
      let col : Int := match t.find 11 with | some x => rawInt x.type (t.raw p x b c) + (if x.scope = 2 then 0 else (c : Int)) | none => c
      let conf := match t.val p 13 b c with | some (_, w) => toU16 w | none => 0
      some (.point base (.depthPixel (BitVec.ofInt 16 col) (BitVec.ofInt 16 (t.int p 10 b c)) q conf) 0)

/-- A block whose azimuth is lower than the one before it by more than half a turn (R150). -/
def isWrap (prev az : BitVec 16) : Bool := decide (az.toNat + 32768 < prev.toNat)

/-- Azimuths of the blocks of a frame; a block without one repeats the block before it. DESIGN CHOICE, log entry 183. -/
def Template.azimuths (t : Template) (p : Bytes) (prev : Option (BitVec 16)) : List (BitVec 16) :=
  ((List.range t.blockCount).foldl (fun (acc : List (BitVec 16) × BitVec 16) b =>
    let a := (t.blockAz p b).getD acc.2
    (a :: acc.1, a)) ([], prev.getD 0)).1.reverse

/-- Indices of the blocks of a frame that are azimuth wraps (R150). DESIGN CHOICE, log entry 183. -/
def Template.wraps (t : Template) (p : Bytes) (prev : Option (BitVec 16)) : List Nat :=
  let az := t.azimuths p prev
  let before := (match prev with | some a => a | none => az.getD 0 0) :: az
  (List.range az.length).filter fun b => isWrap (before.getD b 0) (az.getD b 0)

/-- The F32 value of a field entry (R159). -/
def FieldEntry.val (f : FieldEntry) (bs : Bytes) : Word := scaled f.type (rawBits bs f.type f.big f.offset) f.scale f.bias

/-- An F32 value in a field's OUT format (R159). -/
def FieldEntry.toOut (f : FieldEntry) (w : Word) : Word :=
  match f.out with
  | 6 => toQ16 w
  | 5 => BitVec.ofInt 32 (toFixed {} true 32 0 (f32Val w)).go.1
  | _ => if f32IsNan w then f32Nan else w

/-- VALUE entries of a stream, in order (R159). -/
def HgCfg.values (c : HgCfg) : List FieldEntry := c.fields.filter (·.role == .value)

/-- Every byte of the field entries lies in the item (R157 check 2). -/
def HgCfg.fits (c : HgCfg) (bs : Bytes) : Bool := c.fields.all fun f => f.offset + rawSize f.type ≤ bs.length

/-- Delay of a filter, and of a stream (R159). -/
def Filter.delay : Filter → Nat | .none => 0 | .despike => 1 | .median3 => 1 | .median5 => 2
def HgCfg.delay (c : HgCfg) : Nat := c.values.foldl (fun d f => max d f.filter.delay) 0

/-- Insert a value in ascending order. -/
def insertBy (le : Word → Word → Bool) (x : Word) : List Word → List Word
  | [] => [x]
  | y :: ys => if le x y then x :: y :: ys else y :: insertBy le x ys

/-- Median of F32 values. -/
def medianF32 (xs : List Word) : Word := (xs.foldr (insertBy fun a b => !(f32Lt b a)) []).getD (xs.length / 2) 0

/-- DESPIKE (R159): x is a spike over or under both neighbours by more than SPIKE_LIMIT. DESIGN CHOICE, log entry 183. -/
def despike (limit before x after : Word) : Word :=
  let beyond (a b : Word) := f32Lt limit (f32Sub false a b).go.1
  if (beyond x before && beyond x after) || (beyond before x && beyond after x) then
    (f32Mul false (f32Add false before after).go.1 0x3F000000).go.1
  else x

/-- The output of one field from its window of accepted values, newest first, centred `d` items back (R159). -/
def filterOut (f : Filter) (limit : Word) (d : Nat) (win : List Word) : Word :=
  let g (k : Nat) := win.getD k 0
  match f with
  | .none => g d
  | .despike => despike limit (g (d + 1)) (g d) (g (d - 1))
  | .median3 => medianF32 [g (d - 1), g d, g (d + 1)]
  | .median5 => medianF32 [g (d - 2), g (d - 1), g d, g (d + 1), g (d + 2)]

end Sys2Proof.Machine
end

