-- ==== Sys2Proof/Blocks/Sluice.lean ====
section
/-! DEFINITION. The state of the Sluice, of the islands' intake FIFOs and of their fault lines (spec 03 R72 to R78, spec 17 R406, R407). -/

namespace Sys2Proof.Machine

open Sys2Proof

/-- The event arbiter, the 144 intake FIFOs and the 288 fault lines. -/
structure Sluice where
  /-- SLUICE_CFG (R77). -/
  cfg : SluiceCfg := {}
  /-- The class table of R406 once the SAFETY section is installed: entry c at bits [4c + 3 : 4c]. -/
  classTable : Option (BitVec 16384) := none
  /-- Intake FIFO of each island, oldest first, at most 16 events (R75); the class is the resulting one. -/
  intake : Vector (List Ev) 144 := Vector.replicate 144 []
  /-- Events each island could not queue since its last EVENTS_LOST (R75). -/
  lost : Vector Nat 144 := Vector.replicate 144 0
  /-- C2 and C3 fault lines of each island (R407); the C3 lines as path A and path B of the Spillway have them (R415). -/
  lineC2 : Vector Bool 144 := Vector.replicate 144 false
  lineC3 : Vector Bool 144 := Vector.replicate 144 false
  lineC3B : Vector Bool 144 := Vector.replicate 144 false
  /-- A C2 event has been raised since the latest frame boundary (R409). -/
  c2InFrame : Bool := false
  /-- SEQ of the next event (R72). -/
  next : BitVec 48 := 0
  /-- The island taken last; 143 before the first (R75). -/
  lastIsland : Nat := 143
  /-- SEQ of the latest event that matches IRQ_MASK (R78). -/
  irqSeq : Option (BitVec 48) := none
  /-- SLUICE_IRQ_ACK.SEQ and its staged low word (R78, R508). -/
  ack : BitVec 48 := 0
  ackLow : Word := 0
  /-- EVENTS_LOST, SLUICE_TIE and RING_WR (R508). -/
  eventsLost : Word := 0
  ties : Word := 0
  ringWr : Word := 0
  /-- OBP event ring, newest first, at most 4,096 records (R77). -/
  ring : List EvRecord := []
  /-- Supervisor buffers, newest first, at most 256 events each (R77). -/
  ssaBuf : List EvRecord := []
  ssbBuf : List EvRecord := []
  /-- First Sluice record of class C2 and C3 since reset (R516). -/
  firstC2 : Option EvRecord := none
  firstC3 : Option EvRecord := none
  /-- TOO of the latest numbered C1 and C0 event (R408). -/
  lastC1 : Option T64 := none
  lastC0 : Option T64 := none
deriving DecidableEq, Repr

end Sys2Proof.Machine
end

