-- ==== Sys2Proof/Machine/EventTable.lean ====
section
/-! DEFINITION. The floor of every event (spec 17 R406, R426, R548 and each event's defining rule) and how an island raises one (R75, R407). -/

namespace Sys2Proof.Machine

open Sys2Proof

/-- The CLASS code of a record (R74). -/
def FaultClass.code : FaultClass → Nat
  | .none => 0 | .c0 => 1 | .c1 => 2 | .c2 => 3 | .c3 => 4

/-- The class of a CLASS code; 5 to 7 are reserved and answer none. -/
def FaultClass.ofCode : Nat → FaultClass
  | 1 => .c0 | 2 => .c1 | 3 => .c2 | 4 => .c3 | _ => .none

/-- The floor of an event (R406): for an event with several source classes, the lowest of them. DESIGN CHOICE, log entry 35. -/
def evFloor : EvKind → FaultClass
  | .srcLocked | .mapJump | .gridStretch | .svnCommitted | .stageEntry | .safetyState => .none
  | .srcUnlocked | .gmChange | .srcLost | .holdover | .ref10mLost | .eventsLost | .replayOrder
  | .replayGap | .captureLoss => .c0
  | .stageLate => .c0
  | .imgSectionFail => .c1
  | .c2Release => .c0
  | .safeOkStuck | .supervisorsLost | .supervisorDisagree => .c3
  | .supervisorLost => .c1
  | .selftestFail => .c1
  | .startMiss | .runLong | .deadlineMiss => .c1
  | .runShort => .c0
  | .timingEscalate | .goldenFail => .c2
  | .imuInitFail | .scriptFail => .c1
  | .busDead => Config.busDeadFloor
  | .encIndex | .busStuck | .busOffRecovered => .c0
  | .busOff => .c1
  | .flumeUe | .cmdFlumeUe | .seqMemUe => .c1
  | .streamTimeout | .streamAbsent | .streamMasked => .c1
  | .probationEnd | .flumeLevel => .c0
  | .poseInputBehind | .wheelSlip | .slipClear => .c0
  | .poseDegraded | .imuReject | .encReject | .poseEvicted | .plRungLate => .c1
  | .poseLost | .plLockstep => .c3
  | .alignStep | .alignStepFail | .alignConverged | .alignMoved => .c0
  | .alignHeld | .sensorMisaligned => .c1
  | .pointCap | .voxelDrop | .rbDrop => .c0
  | .queueFlush | .arithFlags | .tensorClamp | .indexRange | .attBucket
  | .cmdFlumeLevel => .c0
  | .syncTimeout | .cmdFlumeOverrun | .kvNoPage | .rbMismatch => .c1
  | .teEccUe => .c2
  | .kvReclaim | .detInvalid | .detClamp | .trackFull | .assignBudget | .pathInvalid => .c0
  | .kvHistoryReset => .c1
  | .qsaNumeric | .qsaNoFeasible | .qsaFeedBad => .c0
  | .cbEcc | .cbTableLate | .weirConflict | .weirNoSummary => .c1
  | .weirMismatch => .c0
  | .weirDiverge => .c2
  | .cbMemUe | .guardLockstep | .guardLate | .guardEcc => .c3
  | .twinLinkUp | .twinLinkLost | .twinPeerUnknown | .twinUnmatched | .twinResync | .twinPeerSafe
  | .twinCrossChecked | .roleChange | .roleConflict => .c0
  | .twinDisagree | .witnessLost => .c1
  | .outTxDrop | .outTxStale => .c0
  | .cisternCe | .cisternUeFree | .dramCe => .c0
  | .cisternUe => .c2
  | .dramUe | .memTrainFail => .c1
  | .clockFail => .c2
  | .supplyFail | .tempLimit => .c3
  | .tempWarn => .c0

/-- An event with a stated DATA, at its floor. -/
def evt (k : EvKind) (island inst : Nat) (data : Nat) : Ev := ⟨k, island, inst, BitVec.ofNat 32 data, evFloor k⟩

/-- An event whose rule states no DATA (R74): DATA is a free value. DESIGN CHOICE, log entry 5. -/
def evtOpen (k : EvKind) (island inst : Nat) : Ev := ⟨k, island, inst, Config.eventData k inst, evFloor k⟩

/-- An event raised at a source class of its own (R406). -/
def evtAt (k : EvKind) (c : FaultClass) (island inst : Nat) (data : Nat) : Ev := ⟨k, island, inst, BitVec.ofNat 32 data, c⟩

/-- An event raised at a source class of its own, whose rule states no DATA. -/
def evtOpenAt (k : EvKind) (c : FaultClass) (island inst : Nat) : Ev := ⟨k, island, inst, Config.eventData k inst, c⟩

/-- The higher of two classes. -/
def FaultClass.max (a b : FaultClass) : FaultClass := if a.code < b.code then b else a

/-- The class table entry of an event: 0 stands for the floor (R406). DESIGN CHOICE, log entry 62. -/
def Sluice.entry (q : Sluice) (k : EvKind) : FaultClass :=
  match q.classTable with
  | none => .none
  | some t => if t = 0 then .none else .ofCode ((t.extractLsb' (4 * (Config.eventCode k).toNat) 3).toNat)

/-- The class an occurrence is raised at (R406). -/
def Sluice.classOf (q : Sluice) (e : Ev) : FaultClass := FaultClass.max e.cls (q.entry e.kind)

/-- Queue one event on its island's intake FIFO, or count it lost (R75). -/
def Sluice.enqueue (q : Sluice) (i : Fin 144) (e : Ev) : Sluice :=
  if q.intake[i].length < 16 then { q with intake := q.intake.set i (q.intake[i] ++ [e]) }
  else { q with lost := q.lost.set i (q.lost[i] + 1), eventsLost := bump q.eventsLost }

/-- Assert the fault line of an event of class C2 or C3, in the same cycle as it is queued (R407, R76). -/
def Sluice.assert (q : Sluice) (i : Fin 144) (c : FaultClass) : Sluice :=
  match c with
  | .c2 => { q with lineC2 := q.lineC2.set i true, c2InFrame := true }
  | .c3 => { q with lineC3 := q.lineC3.set i true, lineC3B := q.lineC3B.set i true }
  | _ => q

/-- An island raises one event (R75, R406, R407). -/
def Sluice.raise (q : Sluice) (e : Ev) : Sluice :=
  if h : e.island < 144 then
    (q.enqueue ⟨e.island, h⟩ { e with cls := q.classOf e }).assert ⟨e.island, h⟩ (q.classOf e)
  else q

/-- Islands raise events in the order given. -/
def Sluice.raiseAll (q : Sluice) (es : List Ev) : Sluice := es.foldl Sluice.raise q

end Sys2Proof.Machine
end

