-- ==== Sys2Proof/Machine/Fixed.lean ====
section
/-! DEFINITION. Fixed-point arithmetic (spec 07 R178), the sine table (spec 08 R200) and rational square roots. Values are integers that count LSBs. -/

namespace Sys2Proof.Machine

open Sys2Proof

/-- Fixed-point results together with a count of the saturations met (R178). -/
abbrev Fx := StateM Nat

/-- Hold a value within `w` two's-complement bits and count the saturation. -/
def fxSat (w : Nat) (v : Int) : Fx Int := fun n => let r := satInt w v; (r, if r = v then n else n + 1)

/-- A Q15.16 result rounded from a rational number of units, ties to even, then saturated. -/
def fxQ (v : Rat) : Fx Int := fxSat 32 (rneRat (v * 65536))

/-- An L64 result rounded from a rational number of metres, ties to even, then saturated. -/
def fxL (v : Rat) : Fx Int := fxSat 64 (rneRat (v * 4294967296))

/-- Product of two Q15.16 values (R178). -/
def fxMulQ (a b : Int) : Fx Int := fxSat 32 (rneDiv (a * b) 65536)

/-- Product of an L64 value by a Q15.16 value (R178). -/
def fxMulL (l q : Int) : Fx Int := fxSat 64 (rneDiv (l * q) 65536)

/-- π × 2¹²⁰, to the nearest integer. -/
def piScaled : Int := 4175892906503776358826876457663557747

/-- sin of an angle of `x` × 2⁻¹²⁰ rad by its series, 18 terms, scaled by 2¹²⁰. -/
def sinSeries : Nat → Int → Int → Int → Int
  | 0, _, _, acc => acc
  | n + 1, x2, term, acc =>
    let k : Int := 18 - (n : Int)
    let t := -(term * x2 / 2 ^ 120) / ((2 * k) * (2 * k + 1))
    sinSeries n x2 t (acc + t)

/-- Entry T[i] of the sine table, in units of 2⁻³⁰ (R200). -/
def sineEntry (i : Nat) : Int :=
  if i = 0 then 0 else if 1024 ≤ i then 2 ^ 30 else
  let x := 2 * piScaled * (i : Int) / 4096
  rneDiv (sinSeries 18 (x * x / 2 ^ 120) x x) (2 ^ 90)

/-- First-quadrant value S(u) for u in 0 to 2³⁰, in units of 2⁻³⁰ (R200). -/
def sineQuad (u : Nat) : Int :=
  let i := u / 2 ^ 20
  let f : Int := (u % 2 ^ 20 : Nat)
  rneDiv (sineEntry i * 2 ^ 20 + (sineEntry (i + 1) - sineEntry i) * f) (2 ^ 20)

/-- sin of an angle in 2⁻³² turn, in units of 2⁻³⁰ (R200). -/
def sinTurn (a : Word) : Int :=
  let r := a.toNat % 2 ^ 30
  match a.toNat / 2 ^ 30 with
  | 0 => sineQuad r
  | 1 => sineQuad (2 ^ 30 - r)
  | 2 => -sineQuad r
  | _ => -sineQuad (2 ^ 30 - r)

/-- cos of an angle in 2⁻³² turn, in units of 2⁻³⁰ (R200). -/
def cosTurn (a : Word) : Int := sinTurn (a + 0x40000000)

/-- The sine and cosine as rationals. -/
def sinR (a : Word) : Rat := (sinTurn a : Rat) / 2 ^ 30
def cosR (a : Word) : Rat := (cosTurn a : Rat) / 2 ^ 30

/-- A rational angle in radians as 2⁻³² turn, to nearest, modulo one turn. -/
def radToTurn (r : Rat) : Word :=
  BitVec.ofInt 32 (rneRat (r * (2 ^ 152 : Nat) / ((2 * piScaled : Int) : Rat)))

/-- √q rounded to the nearest integer, ties to even, for q ≥ 0; 0 below. -/
def sqrtRne (q : Rat) : Nat :=
  if q ≤ 0 then 0 else
  -- compare 4q with (2r + 1)²
  let r := isqrt (q.num.toNat / q.den)
  let tie : Rat := ((2 * r + 1) * (2 * r + 1) : Nat)
  if tie < 4 * q ∨ (tie = 4 * q ∧ r % 2 = 1) then r + 1 else r

/-- Value of a Q15.16 word. -/
def qVal (w : Word) : Rat := (w.toInt : Rat) / 65536

/-- Value of an L64 word in metres. -/
def lVal (w : BitVec 64) : Rat := (w.toInt : Rat) / 4294967296

/-- A difference of L64 positions in Q15.16, with saturation (R221). -/
def l64DiffQ (a b : BitVec 64) : Int := satInt 32 (rneDiv (a.toInt - b.toInt) 65536)

/-- A Q15.16 value times a sine-table value, rounded once to Q15.16 (R218, R221). -/
def qTrig (v t : Int) : Int := rneDiv (v * t) (2 ^ 30)

end Sys2Proof.Machine
end

