-- ==== Sys2Proof/Machine/TimeOps.lean ====
section
/-! DEFINITION. The Timebase's own operations: mapped time, the estimators and the servo (spec 02 R45), the source and map state machines (R53, R54), holdover (R57) and the frame grid (R59, R60). -/

namespace Sys2Proof.Machine

open Sys2Proof

/-- Place of a source in the vector of sources. -/
def Src.idx : Src → Fin 3
  | .a => 0 | .b => 1 | .peer => 2

/-- The Timebase raises its events from island 42 (R68). -/
def tbIsland : Nat := 42

/-- The offset of a map record in ticks: SEC, NS and SUB (R47). -/
def TimeMap.offset (m : TimeMap) : Nat := m.sec.toNat * ticksPerSec + m.ns.toNat * 8 + m.sub.toNat

/-- A map record with the offset of a count of ticks, its SEC taken modulo 2⁴⁸. -/
def TimeMap.withOffset (m : TimeMap) (n : Nat) : TimeMap :=
  { m with sec := BitVec.ofNat 48 (n / ticksPerSec), ns := BitVec.ofNat 30 (n % ticksPerSec / 8), sub := BitVec.ofNat 3 (n % 8) }

/-- Mapped time of a device time under a map, in ticks (R47). -/
def TimeMap.mapped (m : TimeMap) (t : T64) : Nat := t.toNat + m.offset

/-- STATE code of a map (R47). -/
def MapState.code : MapState → Nat
  | .free => 0 | .locked => 1 | .slewing => 2 | .holdover => 3 | .settling => 4

/-- State code of a source (R507). -/
def SrcState.code : SrcState → Nat
  | .off => 0 | .listening => 1 | .acquiring => 2 | .locked => 3

/-- DOMAIN code of an active source (R47). -/
def Src.code : Src → Nat
  | .a => 1 | .b => 2 | .peer => 3

/-- The 16 bytes of the time map record (R47). -/
def TimeMap.bytes (m : TimeMap) : Bytes :=
  packBytes 16 [(48, m.sec.toNat), (30, m.ns.toNat), (3, m.sub.toNat), (2, m.domain.toNat), (3, m.state.code),
    (3, 1), (7, 0), (16, m.ratePpb.toNat), (16, m.mapSeq.toNat)]

/-- The map record of 16 bytes, as a MAP chunk carries it (R87). -/
def TimeMap.ofBytes (bs : Bytes) : TimeMap :=
  { sec := BitVec.ofNat 48 (fieldOf bs 0 48), ns := BitVec.ofNat 30 (fieldOf bs 48 30), sub := BitVec.ofNat 3 (fieldOf bs 78 3)
    domain := BitVec.ofNat 2 (fieldOf bs 81 2)
    state := match fieldOf bs 83 3 with | 1 => .locked | 2 => .slewing | 3 => .holdover | 4 => .settling | _ => .free
    ratePpb := BitVec.ofNat 16 (fieldOf bs 96 16), mapSeq := BitVec.ofNat 16 (fieldOf bs 112 16) }

/-- The first guard cycle start after a device time (R48): the next whole microsecond. -/
def nextG (t : T64) : T64 := BitVec.ofNat 64 ((t.toNat / ticksPerUs + 1) * ticksPerUs)

/-- The latest map: the one that waits for its guard cycle start, else the one in force. -/
def Timebase.latest (tb : Timebase) : TimeMap := match tb.mapNext with | some (_, m) => m | none => tb.map

/-- Give the map a new record, in force from the next guard cycle start (R48). -/
def Timebase.setMap (tb : Timebase) (m : TimeMap) : Timebase :=
  if m = tb.latest then tb else { tb with mapNext := some (nextG tb.now, m) }

/-- Bring a waiting map into force once its guard cycle start is reached; a jump re-anchors the grid (R48, R60) and leaves at least
500 ms between the edges of PPS_OUT (R63). -/
def Timebase.installMap (tb : Timebase) : Timebase :=
  match tb.mapNext with
  | some (g, m) =>
    if tReached tb.now g then
      if m.mapSeq = tb.map.mapSeq then { tb with map := m, mapNext := none }
      else
        { tb with map := m, mapNext := none, reanchor := some g, lastJump := some (g, tb.map.offset)
                  ppsFrom := match tb.ppsRise with | some t => if tReached g (t + ms 500) then g else t + ms 500 | none => g }
    else tb
  | none => tb

/-- The map offset in force at a stamp, in ticks (R48, R133). -/
def Timebase.offsetAt (tb : Timebase) (t : T64) : Nat :=
  match tb.lastJump with
  | some (g, o) => if tLater g t then o else tb.map.offset
  | none => tb.map.offset

/-- A source by name. -/
def Timebase.source (tb : Timebase) (x : Src) : Source := tb.src[x.idx]

/-- Replace a source. -/
def Timebase.setSource (tb : Timebase) (x : Src) (v : Source) : Timebase := { tb with src := tb.src.set x.idx v }

/-- 2π as a rational, to 40 decimal places (R45). -/
def twoPi : Rat := 62831853071795864769252867665590057683943 / 10000000000000000000000000000000000000000

/-- The increment that corrects TB_CFG.INCR by a ratio within ±200 ppm, to the nearest unit, ties to even (R45). -/
def Timebase.incrFor (tb : Timebase) (share : Rat) : BitVec 48 :=
  BitVec.ofInt 48 (rneRat ((tb.cfg.incr.toNat : Rat) * (1 + clampRat (-200 / 1000000) (200 / 1000000) share)))

/-- The phase share of the correction: 2π × SERVO_BW × phase error, within ±SLEW_MAX (R45). -/
def Timebase.phaseShare (tb : Timebase) (phase : Rat) : Rat :=
  let lim : Rat := (tb.cfg.slewMaxPpm : Rat) / 1000000
  clampRat (-lim) lim (twoPi * ((tb.cfg.servoBw : Rat) / 100) * phase / (ticksPerSec : Rat))

/-- The RATE_PPB that an increment reports (R47). -/
def Timebase.rateOf (tb : Timebase) (i : BitVec 48) : BitVec 16 :=
  if tb.cfg.incr = 0 then 0
  else BitVec.ofInt 16 (clampInt (-32767) 32767
    (rneRat (((i.toNat : Rat) - (tb.cfg.incr.toNat : Rat)) * 1000000000 / (tb.cfg.incr.toNat : Rat))))

/-- Put an increment in force and report it in RATE_PPB (R45, R57). -/
def Timebase.setIncr (tb : Timebase) (i : BitVec 48) : Timebase :=
  ({ tb with incr := i } : Timebase).setMap { tb.latest with ratePpb := tb.rateOf i }

/-- The offset an estimator predicts for a device time (R45). -/
def Estimator.predict (e : Estimator) (t : T64) : Rat := e.phase + e.freq * (tDiff t e.updated : Rat)

/-- The double pole of an estimator's loop over an interval of `d` ticks (R45): with x = 2π × SERVO_BW × interval it lies between 1 − x and
1 / (1 + x), as exp(−x) and the usual discretisations of a loop of natural bandwidth SERVO_BW do. DESIGN CHOICE, log entry 10. -/
def servoPole (bw : Nat) (d : Int) : Rat :=
  if d ≤ 0 then 1 else
  let x : Rat := twoPi * ((bw : Rat) / 100) * ((d : Rat) / (ticksPerSec : Rat))
  clampRat (if x < 1 then 1 - x else 0) (1 / (1 + x)) (Config.servoPoleFree bw d)

/-- One update of an estimator at a measured offset: a critically damped second-order tracking loop, whose two poles are equal (R45). DESIGN CHOICE, log entry 10. -/
def Estimator.update (e : Estimator) (bw : Nat) (t : T64) (offset : Rat) : Estimator :=
  let d := tDiff t e.updated
  let r := offset - e.predict t
  let p := servoPole bw d
  { phase := e.predict t + (1 - p * p) * r, freq := e.freq + (if d ≤ 0 then 0 else (1 - p) * (1 - p) / (d : Rat) * r), updated := t }

/-- The servo (R45): the active source's estimator sets the increment. Idle in increment mode (R46) and while no source is active. -/
def Timebase.servoStep (tb : Timebase) : Timebase :=
  if tb.cfg.servo then
    match tb.active with
    | some x =>
      match (tb.source x).est with
      | some e => tb.setIncr (tb.incrFor (e.freq + tb.phaseShare e.phase))
      | none => tb
    | none => tb
  else tb

/-- The interval of 2^log seconds in ticks. -/
def logTicks (l : Int) : Nat :=
  if 0 ≤ l then ticksPerSec * 2 ^ l.toNat else ticksPerSec / 2 ^ (-l).toNat

/-- The profile that serves a source. -/
def Timebase.gptp (tb : Timebase) : Src → Bool
  | .a => tb.cfg.domA.gptp | .b => tb.cfg.domB.gptp | .peer => true

/-- The Sync interval of a source (R53): its latest stated one, or the profile's; the peer's is 100 µs (R65). -/
def Timebase.syncTicks (tb : Timebase) (x : Src) : Nat :=
  match x with
  | .peer => 100 * ticksPerUs
  | _ => match (tb.source x).syncLog with
    | some l => logTicks l
    | none => if tb.gptp x then logTicks (-3) else logTicks 0

/-- The Announce interval of a source (R53). -/
def Timebase.announceTicks (tb : Timebase) (x : Src) : Nat :=
  match (tb.source x).announceLog with
  | some l => logTicks l
  | none => if tb.gptp x then logTicks 0 else logTicks 1

/-- The interval of a port's Pdelay_Req rate, on which the validity of a path delay rests (R53): the spec gives none; one second, the
default of both profiles. PRESUMED, log entry 137. -/
def pdelayTicks : Nat := ticksPerSec

/-- The path delay of a port while its measurement is no older than 3 intervals (R53). -/
def Timebase.pathDelay (tb : Timebase) (p : Fin 2) : Option Rat :=
  match tb.path[p] with
  | some d => if tDiff tb.now d.at_ ≤ 3 * pdelayTicks then some d.delay else none
  | none => none

/-- The source that a PTP message of a domain on a vehicle port belongs to (R49). -/
def Timebase.sourceOf (tb : Timebase) (p : Fin 2) (dom : BitVec 7) : Option Src :=
  let on (c : DomCfg) : Bool := c.enabled && c.domainNumber == dom && (if p = 0 then c.onP6 else c.onP7)
  if on tb.cfg.domA then some .a else if on tb.cfg.domB then some .b else none

/-- A source is a candidate while LOCKED; the peer only when neither A nor B is one (R54). -/
def Timebase.candidate (tb : Timebase) : Option Src :=
  let a := (tb.source .a).st == .locked
  let b := (tb.source .b).st == .locked
  if a && b then some (if tb.cfg.preferredB then .b else .a)
  else if a then some .a else if b then some .b
  else if (tb.source .peer).st == .locked then some .peer else none

/-- A magnitude of a rational. -/
def absRat (q : Rat) : Rat := if q < 0 then -q else q

/-- Take a candidate as the active source (R54): by rate where |δ| is within SWITCH_SLEW_LIMIT, else by a map jump that makes δ zero.
A jump moves every estimator's phase and every latest offset by as much, since they are offsets from mapped time. The offset of the map is
never below 0, so a jump that would make it negative leaves it at 0 (R47 gives SEC unsigned). The new source's estimator steers at once
(R45). DEDUCED, log entry 78. DESIGN CHOICE, log entry 138. -/
def Timebase.takeSource (tb : Timebase) (x : Src) : Timebase × List Ev :=
  let d := (tb.source x).offset
  if absRat d ≤ (tb.cfg.switchSlewUs * ticksPerUs : Nat) then
    (({ tb with active := some x } : Timebase).setMap { tb.latest with state := .slewing, domain := BitVec.ofNat 2 x.code } |>.servoStep, [])
  else
    let j := rneRat d
    let m := tb.latest
    let shift (v : Source) : Source :=
      { v with offset := v.offset - (j : Rat), est := v.est.map fun e => { e with phase := e.phase - (j : Rat) } }
    (({ tb with active := some x, settleAt := nextG tb.now, src := tb.src.map shift } : Timebase).setMap
      { m.withOffset ((m.offset : Int) + j).toNat with state := .settling, domain := BitVec.ofNat 2 x.code, mapSeq := m.mapSeq + 1 } |>.servoStep,
     [evtOpen .mapJump tbIsland 0])

/-- The grandmaster attributes announced on the sensor ports (R50). DESIGN CHOICE, log entry 36. -/
def Timebase.announced (tb : Timebase) : GmAttrs :=
  match tb.map.state with
  | .free => { identity := Config.clockIdentity, clockClass := 248, accuracy := Config.ownAccuracy, variance := Config.ownVariance,
               priority1 := Config.ownPriority1, priority2 := Config.ownPriority2, timeSource := Config.ownTimeSource }
  | .holdover => { tb.holdAttrs with clockClass := 7 }
  | _ => match tb.active with
    | some x => (tb.source x).gm
    | none => tb.holdAttrs

/-- The map state machine evaluated after a change of the sources (R54). Increment mode keeps the map in FREE (R46). DEDUCED, log entry 78. -/
def Timebase.evalMap (tb : Timebase) : Timebase × List Ev :=
  if tb.cfg.servo then
    match tb.latest.state with
    | .free | .holdover =>
      match tb.candidate with
      | some x => tb.takeSource x
      | none => (tb, [])
    | _ =>
      match tb.active with
      | some x =>
        if (tb.source x).st = .locked then
          if tb.latest.state == .slewing && (match (tb.source x).est with
              | some e => decide (absRat e.phase ≤ ((tb.cfg.lockNs * 8 : Nat) : Rat)) | none => false) then
            (tb.setMap { tb.latest with state := .locked }, [])
          else (tb, [])
        else
          match tb.candidate with
          | some y => tb.takeSource y
          | none =>
            ({ tb with holdAt := tb.now, holdAttrs := (tb.source x).gm, active := none }.setMap { tb.latest with state := .holdover },
             [evtOpen .holdover tbIsland 0])
      | none => (tb, [])
  else (tb, [])

/-- The source state machine at a measured offset (R53). -/
def Source.measured (v : Source) (cfg : TbCfg) (x : Src) (t : T64) (offset : Rat) : Source × List Ev :=
  let res : Rat := match v.est with | some e => absRat (offset - e.predict t) | none => 0
  let w := { v with offset := offset, est := some (match v.est with
      | some e => e.update cfg.servoBw t offset | none => { phase := offset, freq := 0, updated := t }) }
  match v.st with
  | .off => (v, [])
  | .listening =>
    if v.announced || x == .peer then ({ w with st := .acquiring, lockRun := 0, unlockRun := 0 }, []) else (w, [])
  | .acquiring =>
    if res ≤ (cfg.lockNs * 8 : Nat) then
      if cfg.lockCount ≤ v.lockRun + 1 then
        ({ w with st := .locked, lockRun := 0, unlockRun := 0 }, [evtOpen .srcLocked tbIsland x.code])
      else ({ w with lockRun := v.lockRun + 1 }, [])
    else ({ w with lockRun := 0 }, [])
  | .locked =>
    if (cfg.unlockNs * 8 : Nat) < res then
      if 3 ≤ v.unlockRun + 1 then
        ({ w with st := .acquiring, lockRun := 0, unlockRun := 0 }, [evtOpen .srcUnlocked tbIsland x.code])
      else ({ w with unlockRun := v.unlockRun + 1 }, [])
    else ({ w with unlockRun := 0 }, [])

/-- A measured offset of a source: its estimator and state, the map, and for the active source the increment (R45, R53, R54). DESIGN CHOICE, log entry 10. -/
def Timebase.measure (tb : Timebase) (x : Src) (t : T64) (offset : Rat) : Timebase × List Ev :=
  let (v, es) := (tb.source x).measured tb.cfg x t offset
  let tb1 := tb.setSource x v
  let (tb2, es2) := tb1.evalMap
  (if tb2.active = some x then tb2.servoStep else tb2, es ++ es2)

/-- A source falls back to LISTENING (R53, SRC_LOST). -/
def Timebase.loseSource (tb : Timebase) (x : Src) : Timebase × List Ev :=
  let v := tb.source x
  let (tb2, es) := (tb.setSource x { v with st := .listening, announced := false, lockRun := 0, unlockRun := 0 }).evalMap
  (tb2, evtOpen .srcLost tbIsland x.code :: es)

/-- Device time after `n` time-bus periods: the carry is exact (R44). -/
def Timebase.advance (tb : Timebase) (incr n : Nat) : Timebase :=
  let total := tb.now.toNat * 2 ^ 32 + tb.frac.toNat + n * incr
  { tb with now := BitVec.ofNat 64 (total / 2 ^ 32), frac := BitVec.ofNat 32 total }

/-- The frame period P in ticks (R59). -/
def TbCfg.period (c : TbCfg) : Nat := c.framePeriodMs * ticksPerMs

/-- The next boundary: B₀ before the first frame. -/
def Timebase.nextB (tb : Timebase) : T64 := match tb.frame with | some f => f.next | none => 0

/-- The stretch of a frame that opens at `b`: the smallest s that puts the next boundary on the anchored grid (R60). DEDUCED, log entry 77. -/
def Timebase.stretchAt (tb : Timebase) (b : T64) : Nat :=
  let p := tb.cfg.period
  let m := tb.map.mapped (b + tick p)
  (tb.cfg.framePhaseUs * ticksPerUs + (p - m % p)) % p

/-- A frame whose boundary lies at or after the guard cycle start of a jump is stretched; a grid anchored to device time is not (R59, R60). DEDUCED, log entry 77. -/
def Timebase.stretches (tb : Timebase) (b : T64) : Bool :=
  match tb.reanchor with
  | some g => tReached b g && tb.cfg.servo && !tb.cfg.anchorDevice
  | none => false

/-- Open the frame whose boundary has come (R60, R61). -/
def Timebase.openFrame (tb : Timebase) : Timebase × List Ev :=
  let b := tb.nextB
  let no : BitVec 64 := match tb.frame with | some f => f.no + 1 | none => 0
  let past := match tb.frame with | some f => (f :: tb.past).take 7 | none => []
  let p := tb.cfg.period
  -- every pulse of a frame ends within it (R62)
  let tb : Timebase := { tb with trigActive := Vector.replicate 16 false, trigEdges := Vector.replicate 16 0 }
  if tb.stretches b then
    let s := tb.stretchAt b
    ({ tb with frame := some ⟨no, b, b + tick (p + s), true⟩, past := past, reanchor := none, stretch := BitVec.ofNat 32 s },
     [evt .gridStretch tbIsland 0 s])
  else ({ tb with frame := some ⟨no, b, b + tick p, false⟩, past := past, reanchor := if tb.cfg.anchorDevice then none else tb.reanchor }, [])

/-- Is a device time within a frame. -/
def Frame.holds (f : Frame) (t : T64) : Bool := tReached t f.b && tLater f.next t

/-- The frame that a device time belongs to (R25): an opened one, or the one after the latest. -/
def Timebase.frameAt (tb : Timebase) (t : T64) : Option Frame :=
  match tb.frame with
  | none => if tLater (tick tb.cfg.period) t then some ⟨0, 0, tick tb.cfg.period, false⟩ else none
  | some f =>
    if tReached t f.next then
      let k := (tDiff t f.next).toNat / tb.cfg.period
      let b := f.next + tick (k * tb.cfg.period)
      some ⟨f.no + 1 + BitVec.ofNat 64 k, b, b + tick tb.cfg.period, false⟩
    else (f :: tb.past).find? (·.holds t)

/-- An opened frame by its number. -/
def Timebase.frameNo (tb : Timebase) (n : BitVec 64) : Option Frame :=
  match tb.frame with | none => none | some f => (f :: tb.past).find? (·.no == n)

/-- The number of the latest frame opened, 0 before B₀. -/
def Timebase.no (tb : Timebase) : BitVec 64 := match tb.frame with | some f => f.no | none => 0

/-- The boundary of the latest frame opened. -/
def Timebase.bn (tb : Timebase) : T64 := match tb.frame with | some f => f.b | none => 0

/-- The grid of a period until the first map jump: Bₙ = n·P (R60). -/
def gridFrame (p : Nat) (now : T64) : Frame :=
  let n := now.toNat / p
  ⟨BitVec.ofNat 64 n, tick (n * p), tick ((n + 1) * p), false⟩

/-- Install the Timebase section (R53, R60, R65): enabled sources start to listen; the peer is a source only in the unit with TWIN_ID 1. -/
def Timebase.install (tb : Timebase) (c : TbCfg) (twinId : Bool) : Timebase :=
  let on (b : Bool) (v : Source) : Source := { v with st := if b then .listening else .off }
  { tb with
    cfg := c, installed := true, incr := c.incr
    frame := tb.frame.map fun _ => gridFrame c.period tb.now, past := []
    map := { tb.map with sec := c.freeEpoch }
    src := ((tb.src.set 0 (on c.domA.enabled tb.src[0])).set 1 (on c.domB.enabled tb.src[1])).set 2
      (on (c.peerSource && twinId) tb.src[2]) }

end Sys2Proof.Machine
end

