-- ==== Sys2Proof/Machine/PoseOps.lean ====
section
/-! DEFINITION. The Pose Ladder's estimator, arbitration, modes and queries (spec 08_pose_ladder). -/

namespace Sys2Proof.Machine

open Sys2Proof

/-- MODE code (R206). -/
def PlMode.code : PlMode → Nat
  | .init => 0 | .full => 1 | .slip => 2 | .imuOnly => 3 | .wheelOnly => 4 | .coast => 5 | .lost => 6

/-- Bytes 0 to 59 of a pose record (R206). -/
def PoseRec.body (r : PoseRec) : Bytes :=
  packBytes 60 [(4, 1), (1, r.valid.toNat), (1, r.extrap.toNat), (1, r.still.toNat), (3, r.mode.code), (2, r.status.toNat),
    (2, r.primary.toNat), (2, 0), (8, r.encUsed.toNat), (4, r.imuUsed.toNat), (4, 0), (64, r.tov.toNat), (64, r.x.toNat), (64, r.y.toNat),
    (32, r.heading.toNat), (32, r.v.toNat), (32, r.omega.toNat), (32, r.acc.toNat), (32, r.span.toNat), (16, r.sdV.toNat),
    (16, r.sdOmega.toNat), (16, r.sdRelPos.toNat), (16, r.sdRelHead.toNat)]

/-- The 64 bytes of a pose record with its CRC-32C (R206). -/
def PoseRec.bytes (r : PoseRec) : Bytes := r.body ++ leBytes 4 (crc32c r.body)

/-- An answer that carries only its STATUS and the target time (R207). -/
def poseFail (status : BitVec 2) (t : T64) : PoseRec := { status := status, tov := t }

/-- A span of device time in seconds. -/
def secs (d : Int) : Rat := (d : Rat) / (ticksPerSec : Rat)

/-- Rung k's device time. -/
def rungT (k : Nat) : T64 := us k

/-- Q15.16, U16 roundings of a record field. -/
def plQ (v : Rat) : Word := BitVec.ofInt 32 (satInt 32 (rneRat (v * 65536)))
def plU16 (n : Nat) : BitVec 16 := BitVec.ofNat 16 (min n 65535)

/-- A value of the estimator's own format (R178): rounded once under RNE, saturated and the saturation counted (PL_SAT). DESIGN CHOICE, log entry 37. -/
def plFx (x : Rat) : Fx Rat := do
  let n ← fxSat Config.plWidth (rneRat (x * (2 ^ Config.plFrac : Nat)))
  return (n : Rat) / (2 ^ Config.plFrac : Nat)

/-- The propagate step of R200 on position and heading: exact products, one rounding to each format (R178). -/
def propagateXY (x y : Int) (psi : Word) (v omega a s : Rat) : Fx (Int × Int × Word) := do
  let d := v * s + a * s * s / 2
  let mid := psi + radToTurn (omega * s / 2)
  let x' ← fxSat 64 (x + rneRat (d * cosR mid * 4294967296))
  let y' ← fxSat 64 (y + rneRat (d * sinR mid * 4294967296))
  return (x', y', psi + radToTurn (omega * s))

/-- propagate(t0, t1) of R200 on the estimator's state. -/
def PoseLadder.propagate (pl : PoseLadder) (t : T64) : PoseLadder :=
  if tLater t pl.at_ then
    let s := secs (tDiff t pl.at_)
    let step : Fx ((Int × Int × Word) × Rat) := do
      let q ← propagateXY pl.x pl.y pl.psi pl.v pl.omega pl.a s
      let dv ← plFx (pl.a * s)
      return (q, ← plFx (pl.v + dv))
    let (((x, y, psi), v), n) := step.run 0
    { pl with x := x, y := y, psi := psi, v := v, at_ := t, sat := bumpBy pl.sat n }
  else pl

/-- Matrices as lists of rows. -/
abbrev Mat := List (List Rat)

def dot (a b : List Rat) : Rat := (List.zipWith (· * ·) a b).foldl (· + ·) 0
def Mat.col (m : Mat) (j : Nat) : List Rat := m.map fun r => r.getD j 0
def Mat.cols (m : Mat) : Nat := (m.getD 0 []).length
def Mat.t (m : Mat) : Mat := (List.range m.cols).map fun j => m.col j
def Mat.mul (a b : Mat) : Mat := let bt := b.t; a.map fun r => bt.map fun c => dot r c
def Mat.add (a b : Mat) : Mat := List.zipWith (List.zipWith (· + ·)) a b
def Mat.diag (d : List Rat) : Mat := (List.zip (List.range d.length) d).map fun (i, x) => (List.range d.length).map fun j => if i = j then x else 0
def Mat.at (m : Mat) (i j : Nat) : Rat := (m.getD i []).getD j 0

/-- The scaled units of the error state (R200). -/
def plUnits : List Rat := [1 / 1000, 1 / 10000, 1 / 1000, 1 / 10000, 1 / 10000]

/-- Round every entry of a covariance to Q15.16, counting saturations (R200). -/
def Mat.roundQ (m : Mat) : Fx Mat := m.mapM fun r => r.mapM fun v => do return ((← fxQ v : Int) : Rat) / 65536

/-- Inverse of a 2 × 2 matrix; zero where it has none. -/
def Mat.inv2 (m : Mat) : Mat :=
  let d := m.at 0 0 * m.at 1 1 - m.at 0 1 * m.at 1 0
  if d = 0 then [[0, 0], [0, 0]] else [[m.at 1 1 / d, -(m.at 0 1) / d], [-(m.at 1 0) / d, m.at 0 0 / d]]

/-- The noise and walk fields of PL_CFG in SI units (R212). -/
def PlCfg.gyroNoise (c : PlCfg) : Rat := (f32Val c.gyroF32).rat
def PlCfg.accNoise (c : PlCfg) : Rat := (f32Val c.accF32).rat
def PlCfg.bgWalk (c : PlCfg) : Rat := (f32Val c.bgF32).rat
def PlCfg.baWalk (c : PlCfg) : Rat := (f32Val c.baF32).rat
def PlCfg.scaleWalk (c : PlCfg) : Rat := (f32Val c.scaleF32).rat
def PlCfg.wheelVNoise (c : PlCfg) : Rat := (f32Val c.wheelVF32).rat
def PlCfg.wheelWNoise (c : PlCfg) : Rat := (f32Val c.wheelWF32).rat
def PlCfg.zuptNoise (c : PlCfg) : Rat := (f32Val c.zuptF32).rat

/-- The covariance at the exit from INIT (R550), in scaled units and Q15.16, with the saturations met (R200). -/
def PlCfg.initCov (c : PlCfg) : Fx Mat :=
  let sd : List Rat := [c.wheelVNoise, 1 / 100, 1 / 10, 1 / 100, 1 / 100]
  Mat.roundQ (Mat.diag (List.zipWith (fun s u => (s / u) * (s / u)) sd plUnits))

/-- Covariance predict over Δ seconds (R550). DESIGN CHOICE, log entry 37. -/
def PoseLadder.predict (pl : PoseLadder) (d : Rat) : PoseLadder :=
  let c := pl.cfg
  let f : Mat := [[1, 0, -d, 0, 0], [0, 1, 0, 0, 0], [0, 0, 1, 0, 0], [0, 0, 0, 1, 0], [0, 0, 0, 0, 1]]
  let q := List.zipWith (fun n u => n * n * d / (u * u)) [c.accNoise, c.bgWalk, c.baWalk, c.scaleWalk, c.scaleWalk] plUnits
  let (m, n) := (Mat.roundQ (((f.mul pl.p).mul f.t).add (Mat.diag q))).run 0
  { pl with p := m, sat := bumpBy pl.sat n }

/-- A measurement update of two rows in Joseph form (R200, R550): gains, their products with the residuals and the state in the estimator's own
format. DESIGN CHOICE, log entry 37. -/
def PoseLadder.measure2 (pl : PoseLadder) (h0 h1 : List Rat) (r0 r1 n0 n1 : Rat) : PoseLadder :=
  let h : Mat := [List.zipWith (· * ·) h0 plUnits, List.zipWith (· * ·) h1 plUnits]
  let rr := Mat.diag [n0, n1]
  let pht := Mat.mul pl.p h.t
  let step : Fx (Mat × List Rat × List Rat) := do
    let k : Mat ← (pht.mul ((h.mul pht).add rr).inv2).mapM fun r => r.mapM plFx
    let ikh : Mat := (Mat.diag [1, 1, 1, 1, 1]).add ((k.mul h).map fun r => r.map fun v => -v)
    let m ← Mat.roundQ (((ikh.mul pl.p).mul ikh.t).add ((k.mul rr).mul k.t))
    let dx ← (List.zip k plUnits).mapM fun (row, u) => do
      let a ← plFx (row.getD 0 0 * r0)
      let b ← plFx (row.getD 1 0 * r1)
      plFx ((a + b) * u)
    let e (i : Nat) := dx.getD i 0
    let st ← [pl.v + e 0, pl.bg + e 1, pl.ba + e 2, pl.sL + e 3, pl.sR + e 4].mapM plFx
    let rates ← if pl.primary.isSome then [pl.omega - e 1, pl.a - e 2].mapM plFx else pure [pl.omega, pl.a]
    return (m, st, rates)
  let ((m, st, rates), n) := step.run 0
  let x (i : Nat) := st.getD i 0
  { pl with p := m, sat := bumpBy pl.sat n, v := x 0, bg := x 1, ba := x 2, sL := x 3, sR := x 4, omega := rates.getD 0 0, a := rates.getD 1 0 }

/-- May a channel's or IMU's records be used (R194, R205). -/
def PoseLadder.encUsable (pl : PoseLadder) (i : Fin 8) : Bool :=
  let e := pl.encs[i]
  decide (i.val < pl.cfg.encs.length) && (e.st == .active || e.st == .waiting) && e.maskedAt.isNone
def PoseLadder.imuActive (pl : PoseLadder) (i : Fin 4) : Bool :=
  let e := pl.imus[i]
  decide (i.val < pl.cfg.imus.length) && e.st == .active && e.maskedAt.isNone

/-- Usable channels of a side, as indices. -/
def PoseLadder.side (pl : PoseLadder) (right : Bool) : List (Fin 8) :=
  (List.finRange 8).filter fun i => pl.encUsable i && (match pl.cfg.encs[i.val]? with | some e => e.right == right | none => false)

/-- The primary IMU: unmasked, ACTIVE, lowest headgate number (R203). -/
def PoseLadder.findPrimary (pl : PoseLadder) : Option (Fin 4) :=
  ((List.finRange 4).filter pl.imuActive).foldl (fun best i =>
    match best with
    | none => some i
    | some b => match pl.cfg.imus[i.val]?, pl.cfg.imus[b.val]? with
      | some x, some y => if x.headgate.val < y.headgate.val then some i else some b
      | _, _ => some b) none

/-- A change of the primary IMU: biases and their covariance are kept per IMU (R203, R550). -/
def PoseLadder.setPrimary (pl : PoseLadder) : PoseLadder :=
  let new := pl.findPrimary
  if new = pl.primary then pl else
  let imus := match pl.primary with
    | some o => pl.imus.set o { pl.imus[o] with bias := some (pl.bg, pl.ba), biasCov := some (Mat.at pl.p 1 1, Mat.at pl.p 1 2, Mat.at pl.p 2 2) }
    | none => pl.imus
  match new with
  | none => { pl with imus := imus, primary := none }
  | some i =>
    let c0 := (pl.cfg.initCov.run 0).1
    let (g, a) := (imus[i].bias).getD (0, 0)
    let (c11, c12, c22) := (imus[i].biasCov).getD (Mat.at c0 1 1, 0, Mat.at c0 2 2)
    let p := (List.range 5).map fun r => (List.range 5).map fun k =>
      if (r = 1 ∨ r = 2) ∧ (k = 1 ∨ k = 2) then (if r ≠ k then c12 else if r = 1 then c11 else c22)
      else if r = 1 ∨ r = 2 ∨ k = 1 ∨ k = 2 then 0 else Mat.at pl.p r k
    { pl with imus := imus, primary := some i, bg := g, ba := a, p := p }

/-- Median of rationals; an even count takes the mean of the two middle values (R204). -/
def medianRat (xs : List Rat) : Rat :=
  let s := xs.foldr (fun x l => (l.filter fun y => decide (y < x)) ++ x :: l.filter fun y => decide (¬ y < x)) []
  let n := s.length
  if n % 2 = 1 then s.getD (n / 2) 0 else (s.getD (n / 2 - 1) 0 + s.getD (n / 2) 0) / 2

/-- Speed of one channel at a wheel update instant (R201). DESIGN CHOICE, log entry 186. -/
def PlEncSt.speed (e : PlEncSt) (c : PlCfg) (mpc : Word) (u : T64) : Rat × Bool :=
  let es := e.edges.filter fun k => !(tLater k.stamp u)
  let m : Rat := (mpc.toNat : Rat) / 4294967296
  match es with
  | [] => (0, true)
  | e1 :: _ =>
    if decide (tDiff u e1.stamp > (c.stillTime * ticksPerUs : Nat)) then (0, true) else
    let win := es.filter fun k => k.line == e1.line && k.level == e1.level && decide (-(c.wheelWin * ticksPerUs : Nat) ≤ tDiff k.stamp e1.stamp)
    match win.getLast? with
    | some e0 =>
      if e0.stamp ≠ e1.stamp then ((((e1.count - e0.count).toInt : Int) : Rat) * m / secs (tDiff e1.stamp e0.stamp), false)
      else
        let cap := if u = e1.stamp then absRat e.prev else min (absRat e.prev) (4 * m / secs (tDiff u e1.stamp))
        ((if e.prev < 0 then -cap else cap), false)
    | none => (0, false)

/-- The speeds of every usable channel (R201). -/
def PoseLadder.speeds (pl : PoseLadder) (u : T64) : List (Fin 8 × Rat × Bool) :=
  ((List.finRange 8).filter pl.encUsable).map fun i =>
    let mpc := match pl.cfg.encs[i.val]? with | some e => e.mpc | none => 0
    (i, pl.encs[i].speed pl.cfg mpc u)

/-- Mean speed of some channels. -/
def meanOf (xs : List Rat) : Rat := if xs.isEmpty then 0 else xs.foldl (· + ·) 0 / (xs.length : Rat)

/-- R204 on one side: new deviation counts and the channel to mask, if any. DESIGN CHOICE, log entry 186. -/
def PoseLadder.judgeSide (pl : PoseLadder) (right : Bool) (sp : List (Fin 8 × Rat)) : List (Fin 8 × Nat) × Option (Fin 8) :=
  let c := pl.cfg
  let far (ref : Rat) (l : List (Fin 8 × Rat)) : Option (Fin 8) :=
    (l.foldl (fun (b : Option (Fin 8 × Rat)) (i, v) =>
      let d := absRat (v - ref)
      match b with | none => some (i, d) | some (j, e) => if e ≤ d then some (i, d) else some (j, e)) none).map (·.1)
  match sp with
  | [(i, a), (j, b)] =>
    let differs := decide (c.encTol * max (absRat a) (absRat b) + c.encTolAbs < absRat (a - b))
    let n := if differs then pl.encs[i].dev + 1 else 0
    let pred := pl.v + (if right then 1 else -1) * pl.omega * c.track / 2
    if differs && decide (c.slipCount ≤ n) then ([(i, 0), (j, 0)], far pred sp) else ([(i, n), (j, n)], none)
  | _ =>
    if sp.length < 3 then (sp.map fun (i, _) => (i, 0), none) else
    let med := medianRat (sp.map (·.2))
    let devs := sp.map fun (i, v) =>
      (i, if c.encTol * max (absRat v) (absRat med) + c.encTolAbs < absRat (v - med) then pl.encs[i].dev + 1 else 0)
    let out := sp.filter fun (i, _) => devs.any fun (j, n) => j == i && decide (c.slipCount ≤ n)
    match far med out with
    | some k => (devs.map fun (i, n) => (i, if i = k then 0 else n), some k)
    | none => (devs, none)

/-- Mask an encoder channel or an IMU (R203, R204): its headgate is masked with REASON EXTERNAL. -/
def PoseLadder.maskEnc (pl : PoseLadder) (i : Fin 8) (t : T64) : PoseLadder × List (Fin 64) × List Ev :=
  ({ pl with encs := pl.encs.set i { pl.encs[i] with maskedAt := some t, dev := 0 }, encReject := bump pl.encReject },
   (match pl.cfg.encs[i.val]? with | some e => [e.headgate] | none => []), [evtOpen .encReject 44 i.val])
def PoseLadder.maskImu (pl : PoseLadder) (i : Fin 4) (t : T64) : PoseLadder × List (Fin 64) × List Ev :=
  ({ pl with imus := pl.imus.set i { pl.imus[i] with maskedAt := some t, dev := 0 }, imuReject := bump pl.imuReject },
   (match pl.cfg.imus[i.val]? with | some e => [e.headgate] | none => []), [evtOpen .imuReject 44 i.val])

/-- Both sides have a usable channel; a primary IMU exists. -/
def PoseLadder.sidesOk (pl : PoseLadder) : Bool := !(pl.side false).isEmpty && !(pl.side true).isEmpty

/-- Change mode and its timers (R205). DESIGN CHOICE, log entry 186. -/
def PoseLadder.toMode (pl : PoseLadder) (m : PlMode) (t : T64) : PoseLadder :=
  let long (x : PlMode) : Bool := match x with | .slip | .imuOnly => true | _ => false
  { pl with mode := m
            imuOnlyAt := if long m then (if long pl.mode then pl.imuOnlyAt else some t) else none
            coastAt := if m = .coast then (if pl.mode = .coast then pl.coastAt else some t) else none
            slipRun := if m = .slip then pl.slipRun else 0, clearCount := 0 }

/-- The mode table (R205) after an event at `t`; of two rows that hold, the one nearer the bottom is taken. DEDUCED, log entry 28.
DESIGN CHOICE, log entry 186. -/
def PoseLadder.modeStep (pl : PoseLadder) (t : T64) : PoseLadder × List Ev :=
  let imu := pl.primary.isSome
  let both := pl.sidesOk
  let degraded := [evtOpen .poseDegraded 44 0]
  match pl.mode with
  | .init | .lost => (pl, [])
  | .coast =>
    if both && imu then (pl.toMode .full t, [])
    else if both then (pl.toMode .wheelOnly t, [])
    else if imu then (pl.toMode .imuOnly t, []) else (pl, [])
  | .imuOnly => if !imu then (pl.toMode .coast t, []) else if both then (pl.toMode .full t, []) else (pl, [])
  | .wheelOnly => if !both then (pl.toMode .coast t, []) else if imu then (pl.toMode .full t, []) else (pl, [])
  | .slip =>
    if !imu then (pl.toMode .coast t, degraded)
    else if !both then (pl.toMode .imuOnly t, degraded)
    else if pl.cfg.slipClear ≤ pl.clearCount.toNat then (pl.toMode .full t, [evtOpen .slipClear 44 0]) else (pl, [])
  | .full =>
    if !both then ((if imu then pl.toMode .imuOnly t else (pl.toMode .imuOnly t).toMode .coast t), degraded)
    else if pl.cfg.slipCount ≤ pl.slipRun then (pl.toMode .slip t, [evtOpen .wheelSlip 44 0])
    else if !imu then (pl.toMode .wheelOnly t, degraded) else (pl, [])

/-- The limits on the time in COAST and in SLIP with IMU_ONLY, judged at an instant before what else happens at it: their rows are the nearest
the bottom of the table (R205). -/
def PoseLadder.expire (pl : PoseLadder) (t : T64) : PoseLadder × List Ev :=
  let coast := match pl.mode, pl.coastAt with
    | .coast, some a => elapsed t a (pl.cfg.coastMax * ticksPerMs)
    | _, _ => false
  let long := match pl.imuOnlyAt with
    | some a => (pl.mode == .slip || pl.mode == .imuOnly) && decide (((pl.cfg.imuOnlyMax * ticksPerMs : Nat) : Int) < tDiff t a)
    | none => false
  if coast || long then (pl.toMode .lost t, [evtOpen .poseLost 44 0]) else (pl, [])

/-- Apply a wheel measurement, or a zero-velocity update when every channel is still (R201, R202, R550). DESIGN CHOICE, log entry 186. -/
def PoseLadder.applyWheel (pl : PoseLadder) (u : T64) (vw ww aw vL vR : Rat) (allStill : Bool) : PoseLadder :=
  let c := pl.cfg
  let pl' :=
    if allStill then
      match pl.primary with
      | some i =>
        let m := pl.imus[i]
        let span := match pl.cfg.imus[i.val]? with | some e => max (secs ((c.wheelPeriod * ticksPerUs : Nat) : Int)) (secs ((e.periodUs * ticksPerUs : Nat) : Int)) | none => 1
        if m.count = 0 then pl.measure2 [1, 0, 0, 0, 0] [0, 0, 0, 0, 0] (-pl.v) 0 (c.zuptNoise * c.zuptNoise) 1
        else pl.measure2 [1, 0, 0, 0, 0] [0, 1, 0, 0, 0] (-pl.v) (m.sum / (m.count : Rat) - pl.bg) (c.zuptNoise * c.zuptNoise) (c.gyroNoise * c.gyroNoise / span)
      | none => pl.measure2 [1, 0, 0, 0, 0] [0, 0, 0, 0, 0] (-pl.v) 0 (c.zuptNoise * c.zuptNoise) 1
    else
      pl.measure2 [1, 0, 0, vL / 2, vR / 2] [0, -1, 0, -vL / c.track, vR / c.track] (vw - pl.v) (ww - pl.omega)
        (c.wheelVNoise * c.wheelVNoise) (c.wheelWNoise * c.wheelWNoise)
  { pl' with wheelRef := some (u, aw, ww) }

/-- The wheel update instant (R201, R202, R204). DESIGN CHOICE, log entry 186. -/
def PoseLadder.wheelUpdate (pl : PoseLadder) (u : T64) : PoseLadder × List (Fin 64) × List Ev :=
  let sp := pl.speeds u
  let of (right : Bool) := sp.filter fun (i, _) => (pl.side right).contains i
  let (dl, ml) := pl.judgeSide false ((of false).map fun (i, v, _) => (i, v))
  let (dr, mr) := pl.judgeSide true ((of true).map fun (i, v, _) => (i, v))
  let encs := sp.foldl (fun (es : Vector PlEncSt 8) (i, v, s) => es.set i { es[i] with prev := v, still := s }) pl.encs
  let encs := (dl ++ dr).foldl (fun (es : Vector PlEncSt 8) (i, n) => es.set i { es[i] with dev := n }) encs
  let (pl, hs1, es1) := match ml with | some i => ({ pl with encs := encs } : PoseLadder).maskEnc i u | none => ({ pl with encs := encs }, [], [])
  let (pl, hs2, es2) := match mr with | some i => pl.maskEnc i u | none => (pl, [], [])
  -- a channel masked at this comparison is usable no more (R205)
  let sp := sp.filter fun (i, _) => pl.encUsable i
  let of (right : Bool) := sp.filter fun (i, _) => (pl.side right).contains i
  let pl := { pl with encUsed := BitVec.ofNat 8 (sp.foldl (fun (a : Nat) (x : Fin 8 × Rat × Bool) => a + 2 ^ x.1.val) 0)
                      still := !sp.isEmpty && sp.all fun (_, _, s) => s }
  let (pl, es3) := pl.modeStep u
  let clear (q : PoseLadder) : PoseLadder := { q with imus := q.imus.map fun (m : PlImuSt) => { m with sum := 0, count := 0 } }
  if !pl.sidesOk then (clear pl, hs1 ++ hs2, es1 ++ es2 ++ es3) else
  let vl0 := meanOf ((of false).map fun (_, v, _) => v)
  let vr0 := meanOf ((of true).map fun (_, v, _) => v)
  let allStill := pl.still
  let wheel : Fx (Rat × Rat × Rat) := do
    let vL ← plFx (vl0 * (1 + pl.sL))
    let vR ← plFx (vr0 * (1 + pl.sR))
    let vw ← if allStill then pure 0 else plFx ((vL + vR) / 2)
    let ww ← if allStill || pl.cfg.track = 0 then pure 0 else plFx ((vR - vL) / pl.cfg.track)
    return (vw, ww, ← plFx ((vw - pl.prevVw) / secs ((pl.cfg.wheelPeriod * ticksPerUs : Nat) : Int)))
  let ((vw, ww, aw), clipped) := wheel.run 0
  let pl := { pl with sat := bumpBy pl.sat clipped }
  match pl.primary with
  | none =>
    -- with no usable IMU the wheels give the rates and no residual is tested (R202)
    let n := pl.cfg.wheelVNoise / (1 / 1000)
    let (v00, sat) := (fxQ (n * n)).run 0
    let p := (List.range 5).map fun r => (List.range 5).map fun k => if r = 0 ∧ k = 0 then (v00 : Rat) / 65536 else Mat.at pl.p r k
    (clear { pl with v := vw, omega := ww, a := aw, prevVw := vw, p := p, sat := bumpBy pl.sat sat
                     wheelRef := some (u, aw, ww) }, hs1 ++ hs2, es1 ++ es2 ++ es3)
  | some _ =>
    let fails := decide (pl.cfg.slipV < absRat (vw - pl.v)) || decide (pl.cfg.slipOmega < absRat (ww - pl.omega))
    let pl : PoseLadder := { pl with prevVw := vw }
    let pl : PoseLadder :=
      if fails then { pl with slipRun := pl.slipRun + 1, clearCount := if pl.mode = .slip then 0 else pl.clearCount }
      else if pl.mode = .slip then
        let pl : PoseLadder := { pl with slipRun := 0, clearCount := if pl.clearCount = 255 then 255 else pl.clearCount + 1 }
        if pl.cfg.slipClear ≤ pl.clearCount.toNat then pl.applyWheel u vw ww aw vl0 vr0 allStill else pl
      else ({ pl with slipRun := 0 } : PoseLadder).applyWheel u vw ww aw vl0 vr0 allStill
    let (pl, es4) := pl.modeStep u
    (clear pl, hs1 ++ hs2, es1 ++ es2 ++ es3 ++ es4)

/-- The values that R203 compares: an IMU's sample less its own last bias estimate. -/
def PoseLadder.debiased (pl : PoseLadder) (i : Fin 4) : Option (T64 × Rat × Rat) :=
  (pl.imus[i].sample).map fun (t, w, a) =>
    let (g, b) := if pl.primary = some i then (pl.bg, pl.ba) else (pl.imus[i].bias).getD (0, 0)
    (t, w - g, a - b)

/-- IMU arbitration at a primary sample (R203). With two IMUs the wheel reference's acceleration is its change of v_w over WHEEL_PERIOD, as R202
forms it. DEDUCED, log entry 28. DESIGN CHOICE, log entry 186. -/
def PoseLadder.arbitrate (pl : PoseLadder) (t : T64) : PoseLadder × List (Fin 64) × List Ev :=
  let period (i : Fin 4) : Nat := match pl.cfg.imus[i.val]? with | some e => e.periodUs * ticksPerUs | none => 0
  let taking := (List.finRange 4).filter fun i => decide (i.val < pl.cfg.imus.length) && pl.imus[i].maskedAt.isNone
      && (pl.imus[i].st == .active || pl.imus[i].st == .probation)
  let cand := taking.filterMap fun i =>
    match pl.debiased i with
    | some (ts, w, a) => if decide ((tDiff t ts).natAbs ≤ period i) then some (i, w, a) else none
    | none => none
  let ref : Option (Rat × Rat) :=
    if 3 ≤ taking.length then some (medianRat (cand.map fun (_, w, _) => w), medianRat (cand.map fun (_, _, a) => a))
    else if taking.length = 2 then
      match pl.wheelRef with
      | some (u, aw, ww) => if pl.mode ≠ .slip ∧ tDiff t u ≤ (2 * pl.cfg.wheelPeriod * ticksPerUs : Nat) then some (ww, aw) else none
      | none => none
    else none
  match ref with
  | none => (pl, [], [])
  | some (rw, ra) =>
    cand.foldl (fun (acc : PoseLadder × List (Fin 64) × List Ev) (i, w, a) =>
      let (q, hs, es) := acc
      let bad := decide (q.cfg.imuTolOmega < absRat (w - rw)) || decide (q.cfg.imuTolAcc < absRat (a - ra))
      let n := if bad then q.imus[i].dev + 1 else 0
      if bad && decide (q.cfg.imuCount ≤ n) then
        let (q, h, e) := q.maskImu i t
        (q, hs ++ h, es ++ e)
      else ({ q with imus := q.imus.set i { q.imus[i] with dev := n } }, hs, es)) (pl, [], [])

/-- A sample of the primary IMU drives propagation (R200). -/
def PoseLadder.primarySample (pl : PoseLadder) (t : T64) (w a : Rat) : PoseLadder :=
  let step : Fx (Rat × Rat) := do return (← plFx (w - pl.bg), ← plFx (a - pl.ba))
  let ((omega, acc), n) := step.run 0
  let pl := { pl with omega := omega, a := acc, sat := bumpBy pl.sat n }
  let pl := match pl.lastPrimary with | some l => pl.predict (secs (tDiff t l)) | none => pl
  { pl with lastPrimary := some t }

/-- One input in TOV order (R200, R205). Before the origin rung nothing moves the pose. DEDUCED, log entry 28. -/
def PoseLadder.input (pl : PoseLadder) (origin : Bool) (t : T64) (x : PlInput) : PoseLadder × List (Fin 64) × List Ev :=
  match x with
  | .enc i code =>
    if h : i < 8 then
      let i : Fin 8 := ⟨i, h⟩
      if pl.encUsable i && !code.illegal && code.line != 2 then
        let keep := pl.encs[i].edges.filter fun k => decide (tDiff code.stamp k.stamp ≤ (20000 * ticksPerUs : Nat))
        let keep := if keep.isEmpty then pl.encs[i].edges.take 1 else keep
        ({ pl with encs := pl.encs.set i { pl.encs[i] with edges := code :: keep } }, [], [])
      else (pl, [], [])
    else (pl, [], [])
  | .imu i w a =>
    if h : i < 4 then
      let i : Fin 4 := ⟨i, h⟩
      let st := pl.imus[i].st
      if (st == .active || st == .probation) && pl.imus[i].maskedAt.isNone then
        let m := pl.imus[i]
        let pl := { pl with imus := pl.imus.set i { m with sample := some (t, w, a), sum := if st = .active then m.sum + w else m.sum, count := if st = .active then m.count + 1 else m.count } }
        if pl.primary = some i then
          let pl := if origin then pl.propagate t else pl
          let pl := if origin then pl.primarySample t w a else pl
          let (pl, hs, es) := pl.arbitrate t
          let (pl, es2) := pl.setPrimary.modeStep t
          (pl, hs, es ++ es2)
        else (pl, [], [])
      else (pl, [], [])
    else (pl, [], [])
  | .state isImu i st =>
    let pl := if origin then pl.propagate t else pl
    let pl :=
      if isImu then (if h : i < 4 then { pl with imus := pl.imus.set i { pl.imus[i] with st := st } } else pl)
      else (if h : i < 8 then { pl with encs := pl.encs.set i { pl.encs[i] with st := st } } else pl)
    let (pl, es) := pl.setPrimary.modeStep t
    (pl, [], es)

/-- Order of the inputs (R200): by TOV; at equal TOV edges and state changes, then the wheel update, then IMU samples by headgate number. DEDUCED, log entry 28. -/
def PoseLadder.rank (pl : PoseLadder) : PlInput → Nat
  | .enc .. => 0
  | .state .. => 1
  | .imu i _ _ => 3 + (match pl.cfg.imus[i]? with | some e => e.headgate.val | none => 0)

/-- Insert an input in order. -/
def PoseLadder.insert (pl : PoseLadder) (t : T64) (x : PlInput) : List (T64 × PlInput) → List (T64 × PlInput)
  | [] => [(t, x)]
  | (t', y) :: r => if tLater t' t || (t' == t && decide (pl.rank x < pl.rank y)) then (t, x) :: (t', y) :: r else (t', y) :: pl.insert t x r

/-- Standard deviations of a rung (R550), each rounded to its unit under RNE. -/
def PoseLadder.sds (pl : PoseLadder) : BitVec 16 × BitVec 16 × BitVec 16 × BitVec 16 :=
  let c := pl.cfg
  let u (i : Nat) : Rat := plUnits.getD i 0
  let pvv := Mat.at pl.p 0 0 * u 0 * u 0
  let pbg := Mat.at pl.p 1 1 * u 1 * u 1
  let sd (var unit : Rat) : BitVec 16 := plU16 (sqrtRne (var / (unit * unit)))
  let (w, h) : Rat × Rat := match pl.primary with
    | some i =>
      let per : Rat := match c.imus[i.val]? with | some e => (e.periodUs : Rat) / 1000000 | none => 1
      (pbg + c.gyroNoise * c.gyroNoise / per, c.gyroNoise * c.gyroNoise / 10 + pbg / 100)
    | none => (c.wheelWNoise * c.wheelWNoise, c.wheelWNoise * c.wheelWNoise * (1 / 10) * ((c.wheelPeriod : Rat) / 1000000))
  (sd pvv (1 / 10000), sd w (1 / 100000), sd (pvv / 100 + c.accNoise * c.accNoise / 3000) (1 / 1000000), sd h (1 / 1000000))

/-- The rates of a rung in Q15.16 (R206), with the saturations met (R200). -/
def PoseLadder.rates (pl : PoseLadder) : Fx (Int × Int × Int) := do return (← fxQ pl.v, ← fxQ pl.omega, ← fxQ pl.a)

/-- The record of rung k (R206). -/
def PoseLadder.rung (pl : PoseLadder) (k : Nat) : PoseRec :=
  let (a, b, c, d) := pl.sds
  let (v, w, acc) := (pl.rates.run 0).1
  { valid := pl.mode != .init && pl.mode != .lost, still := pl.still, mode := pl.mode
    primary := BitVec.ofNat 2 (match pl.primary with | some i => i.val | none => 0)
    encUsed := pl.encUsed
    imuUsed := BitVec.ofNat 4 (((List.finRange 4).filter fun i => decide (i.val < pl.cfg.imus.length) && pl.imus[i].maskedAt.isNone && pl.imus[i].st != .masked).foldl (fun s i => s + 2 ^ i.val) 0)
    tov := rungT k, x := BitVec.ofInt 64 pl.x, y := BitVec.ofInt 64 pl.y, heading := pl.psi
    v := BitVec.ofInt 32 v, omega := BitVec.ofInt 32 w, acc := BitVec.ofInt 32 acc, sdV := a, sdOmega := b, sdRelPos := c, sdRelHead := d }

/-- Leave INIT at the first rung after S1 entry (R193, R205, R550). -/
def PoseLadder.exitInit (pl : PoseLadder) (k : Nat) : PoseLadder :=
  let (p, n) := pl.cfg.initCov.run 0
  let pl := { pl with x := 0, y := 0, psi := 0, v := 0, omega := 0, a := 0, at_ := rungT k, p := p, sat := bumpBy pl.sat n }
  pl.toMode (if pl.sidesOk then .wheelOnly else .coast) (rungT k)

/-- RUNG_WRITE's computation of rung k (R197, R200): the inputs with TOV up to k µs, the wheel update where k is its instant, then the rung. -/
def PoseLadder.writeRung (pl : PoseLadder) (k : Nat) : PoseLadder × List (Fin 64) × List Ev :=
  let t := rungT k
  let first := pl.mode = .init
  let due := pl.inputs.filter fun (x, _) => !(tLater x t)
  let rest := pl.inputs.filter fun (x, _) => tLater x t
  let pl := { pl with inputs := rest }
  let step (acc : PoseLadder × List (Fin 64) × List Ev) (e : T64 × PlInput) : PoseLadder × List (Fin 64) × List Ev :=
    let (q, hs, es) := acc
    let (q, es0) := q.expire e.1
    let (q, h, x) := q.input (!first) e.1 e.2
    (q, hs ++ h, es ++ es0 ++ x)
  let wheel := decide (k % pl.cfg.wheelPeriod = 0)
  let before := due.filter fun (x, i) => !(x == t) || decide (pl.rank i < 2)
  let after := due.filter fun (x, i) => x == t && !(decide (pl.rank i < 2))
  let acc := before.foldl step (pl, [], [])
  let acc := if wheel && !first then
      let (q, hs, es) := acc
      let (q, es0) := q.expire t
      let (q, h, x) := (q.propagate t).wheelUpdate t
      (q, hs ++ h, es ++ es0 ++ x) else acc
  let (q, hs, es) := after.foldl step acc
  let q := if first then q.exitInit k else q.propagate t
  let (q, es2) := if first then q.setPrimary.modeStep t else (q, [])
  let (q, es3) := q.expire t
  ({ q with ladder := (q.rung k :: q.ladder).take 131072, nextK := some (k + 1), sat := bumpBy q.sat (q.rates.run 0).2 }, hs, es ++ es2 ++ es3)

/-- The newest rung's number. -/
def PoseLadder.head (pl : PoseLadder) : Option Nat :=
  match pl.nextK with | some k => if pl.ladder.isEmpty then none else some (k - 1) | none => none

/-- A rung by its number. -/
def PoseLadder.rungAt (pl : PoseLadder) (k : Nat) : Option PoseRec :=
  match pl.head with
  | some h => if k ≤ h then pl.ladder[h - k]? else none
  | none => none

/-- The larger of two U16 standard deviations. -/
def plMax (a b : BitVec 16) : BitVec 16 := if a.toNat < b.toNat then b else a

/-- Interpolation between rungs q and r at f of 8,000 ticks (R207). -/
def interpolate (q r : PoseRec) (t : T64) (f : Nat) : PoseRec :=
  let lin (w : Nat) (a b : Int) : Nat := codeInt w (rneDiv (a * 8000 + (b - a) * f) 8000)
  { r with valid := q.valid && r.valid, tov := t
           x := BitVec.ofNat 64 (lin 64 q.x.toInt r.x.toInt), y := BitVec.ofNat 64 (lin 64 q.y.toInt r.y.toInt)
           heading := BitVec.ofInt 32 (rneDiv ((q.heading.toNat : Int) * 8000 + (r.heading - q.heading).toInt * f) 8000)
           v := BitVec.ofNat 32 (lin 32 q.v.toInt r.v.toInt), omega := BitVec.ofNat 32 (lin 32 q.omega.toInt r.omega.toInt)
           acc := BitVec.ofNat 32 (lin 32 q.acc.toInt r.acc.toInt)
           sdV := plMax q.sdV r.sdV, sdOmega := plMax q.sdOmega r.sdOmega, sdRelPos := plMax q.sdRelPos r.sdRelPos
           sdRelHead := plMax q.sdRelHead r.sdRelHead }

/-- Extrapolation from a head rung to `t` (R210), with the saturations met. -/
def extrapolate (h : PoseRec) (t : T64) : PoseRec × Nat :=
  let span := tDiff t h.tov
  let s := secs span
  let v := qVal h.v
  let a := qVal h.acc
  let w := qVal h.omega
  let vEnd := v + a * s
  let stops := decide (v ≠ 0) && decide (v * vEnd < 0)
  let s' := if stops then -v / a else s
  let ((x, y, psi), n) := (propagateXY h.x.toInt h.y.toInt h.heading v w a s').run 0
  let (ve, nv) := (fxQ vEnd).run 0
  ({ h with extrap := true, tov := t, x := BitVec.ofInt 64 x, y := BitVec.ofInt 64 y, heading := psi
            v := if stops then 0 else BitVec.ofInt 32 ve, omega := if stops then 0 else h.omega, acc := if stops then 0 else h.acc
            span := BitVec.ofNat 32 (min span.toNat (2 ^ 32 - 1)) }, if stops then n else n + nv)

/-- The answer to a query (R207): none while its head is not visible. Where the head, or the rung of t, lies before the first rung, the ladder was in
INIT and the answer carries VALID = 0; a head that is overwritten gives EVICTED. DESIGN CHOICE, log entry 159. -/
def PoseLadder.answer (pl : PoseLadder) (t α : T64) (now : T64) : Option (PoseRec × Nat × Bool) :=
  if pl.dead then some (poseFail 0 t, 0, false) else
  match pl.start with
  | none => none
  | some k0 =>
    let lag := pl.cfg.lag
    let h : Int := (α.toNat / ticksPerUs : Nat) - (lag : Int)
    if h < (k0 : Int) then some (poseFail 0 t, 0, false)
    else if (match pl.head with | some top => decide ((top : Int) < h) | none => true) then none
    else
      let h := h.toNat
      let d := tDiff t (rungT h)
      let evicted : Option (PoseRec × Nat × Bool) := some (poseFail 3 t, 0, true)
      if d < -(120000 * ticksPerUs : Nat) then some (poseFail 1 t, 0, false)
      else if tReached now (us (t.toNat / ticksPerUs) + us (131072 + lag)) then evicted
      else if d ≤ 0 then
        let k := t.toNat / ticksPerUs
        let f := t.toNat % ticksPerUs
        if k < k0 then some (poseFail 0 t, 0, false) else
        match pl.rungAt k, pl.rungAt (k + 1) with
        | some q, some r => if f = 0 then some (q, 0, false) else some (interpolate q r t f, 0, false)
        | some q, none => if f = 0 then some (q, 0, false) else evicted
        | none, _ => evicted
      else if d ≤ (pl.cfg.extrapMax * ticksPerMs : Nat) then
        match pl.rungAt h with
        | some hr => let (r, n) := extrapolate hr t; some (r, n, false)
        | none => evicted
      else some (poseFail 2 t, 0, false)

/-- The live record for T (R211): its head is the newest visible rung at or before T − LAG. -/
def PoseLadder.liveAt (pl : PoseLadder) (t : T64) : PoseRec × Nat :=
  if pl.dead then (poseFail 0 t, 0) else
  match pl.head with
  | none => (poseFail 0 t, 0)
  | some top =>
    let k := min top (t.toNat / ticksPerUs - pl.cfg.lag)
    match pl.rungAt k with
    | none => (poseFail 2 t, 0)
    | some r =>
      if tDiff t r.tov ≤ (pl.cfg.extrapMax * ticksPerMs : Nat) then (if t = r.tov then (r, 0) else extrapolate r t)
      else (poseFail 2 t, 0)

end Sys2Proof.Machine
end

