-- ==== Sys2Proof/Machine/QsaOps.lean ====
section
/-! DEFINITION. The interior-point solve, the feeds and the motion command (spec 15_qp_solver_array R358 to R381). -/

namespace Sys2Proof.Machine

open Sys2Proof

/-- F32 operations under RNE that gather flags (R179, R188). -/
def qAdd (x y : Word) : Fm Word := f32Add false x y
def qSub (x y : Word) : Fm Word := f32Sub false x y
def qMul (x y : Word) : Fm Word := f32Mul false x y
def qDiv (x y : Word) : Fm Word := f32Div false x y

/-- One multiply-add of a sum (R364): fused or not is an implementation constant. DESIGN CHOICE, log entry 41. -/
def qMac (a x y : Word) : Fm Word := if Config.qsaFused then f32Fma false x y a else do qAdd a (← qMul x y)

/-- A sparse row: column and value, in ascending column. -/
abbrev SRow := List (Nat × Word)

/-- A problem of R358: H by full symmetric rows, A, C by rows, and the vectors. -/
structure Qp where
  n : Nat
  me : Nat
  mi : Nat
  h : List SRow
  g : List Word
  a : List SRow
  b : List Word
  c : List SRow
  d : List Word
deriving DecidableEq, Repr

def vAt (v : List Word) (i : Nat) : Word := v.getD i 0
def sAt (r : SRow) (j : Nat) : Word := match r.find? (·.1 == j) with | some (_, v) => v | none => 0

/-- Row times vector, in ascending index. -/
def sDot (r : SRow) (x : List Word) : Fm Word := r.foldlM (fun a e => qMac a e.2 (vAt x e.1)) 0

/-- Matrix times vector. -/
def sMul (m : List SRow) (x : List Word) : Fm (List Word) := m.mapM fun r => sDot r x

/-- Transposed matrix times vector, in ascending row. -/
def sMulT (m : List SRow) (n : Nat) (x : List Word) : Fm (List Word) :=
  (List.range n).mapM fun j => (List.zip m (List.range m.length)).foldlM (fun a e =>
    match e.1.find? (·.1 == j) with | some (_, v) => qMac a v (vAt x e.2) | none => pure a) 0

def vZip (f : Word → Word → Fm Word) (x y : List Word) : Fm (List Word) := (List.zip x y).mapM fun e => f e.1 e.2
def vNeg (x : List Word) : List Word := x.map f32Neg

/-- ∞-norm. -/
def vNorm (x : List Word) : Word := x.foldl (fun m v => let a := f32Abs v; if f32IsNan m || f32IsNan a then f32Nan else if f32Lt m a then a else m) 0

/-- What a solve gathers besides its iterate (R365 to R367). -/
structure SolveAcc where
  tiny : Bool := false
  zero : Bool := false
  refineFail : Bool := false
  inertia : Bool := false
  pivots : Nat := 0
  firstPivot : Nat := 255
  maxRefine : Nat := 0
deriving DecidableEq, Repr

/-- The reduced KKT matrix of an iteration, dense, position by position (R362). DESIGN CHOICE, log entry 189. -/
def Qp.kkt (q : Qp) (w : List Word) : Fm (List (List Word)) := do
  let cwc ← (List.range q.n).mapM fun i => (List.range q.n).mapM fun j => do
    if j < i then return 0 else
    (List.zip q.c w).foldlM (fun s e => do
      let ci := e.1.find? (·.1 == i)
      let cj := e.1.find? (·.1 == j)
      match ci, cj with
      | some (_, u), some (_, v) => qMac s (← qMul u e.2) v
      | _, _ => return s) (sAt (q.h.getD i []) j)
  let top (i j : Nat) : Word := if j < i then (cwc.getD j []).getD i 0 else (cwc.getD i []).getD j 0
  return (List.range (q.n + q.me)).map fun i => (List.range (q.n + q.me)).map fun j =>
    if i < q.n ∧ j < q.n then top i j
    else if i < q.n then sAt (q.a.getD (j - q.n) []) i
    else if j < q.n then sAt (q.a.getD (i - q.n) []) j
    else 0

def mAt (m : List (List Word)) (i j : Nat) : Word := (m.getD i []).getD j 0

/-- The LDLᵀ factor: rows of L and pivots, in ORDER. -/
structure Factor where
  order : List Nat
  l : List (List Word) := []
  dg : List Word := []
deriving DecidableEq, Repr

/-- Largest diagonal magnitude, at least 2⁻¹⁰⁰ (R365). -/
def dMax (k : List (List Word)) : Word :=
  (List.range k.length).foldl (fun m i => let a := f32Abs (mAt k i i); if f32Lt m a then a else m) 0x0D800000

/-- 2^−e in F32. -/
def f32Pow2 (e : Nat) : Word := BitVec.ofNat 32 ((127 - e) * 2 ^ 23)

/-- Factor by columns in ORDER with the pivot rule; none where a pivot of the wrong sign ends the solve (R365). A NaN has no sign to be wrong and ends
the solve as NUMERIC. DEDUCED, log entry 161. DESIGN CHOICE, log entry 189. -/
def factorSteps (c : QsaCfg) (k : List (List Word)) (n : Nat) (tau delta : Word) : List Nat → Factor → SolveAcc → Fm (Option Factor × SolveAcc)
  | [], f, s => pure (some f, s)
  | p :: rest, f, s => do
    -- row of L for position p: solved against the pivots before it, in ascending order
    let row ← (List.zip f.order (List.range f.order.length)).foldlM (fun (r : List Word) e => do
      let v ← (List.zip r (List.range r.length)).foldlM (fun a x => do
        qSub a (← qMul (← qMul x.1 (vAt f.dg x.2)) ((f.l.getD e.2 []).getD x.2 0))) (mAt k p e.1)
      return r ++ [← qDiv v (vAt f.dg e.2)]) []
    let q ← (List.zip row f.dg).foldlM (fun a e => do qSub a (← qMul (← qMul e.1 e.1) e.2)) (mAt k p p)
    let sigma : Bool := decide (n ≤ p)
    let repl : Word := if sigma then f32Neg delta else delta
    let first (s : SolveAcc) : SolveAcc := { s with firstPivot := if s.firstPivot = 255 then p else s.firstPivot }
    let go (d : Word) (s : SolveAcc) := factorSteps c k n tau delta rest { f with order := f.order ++ [p], l := f.l ++ [row], dg := f.dg ++ [d] } s
    if (f32Val q).isZero then go repl (first { s with zero := true, pivots := min 1023 (s.pivots + 1) })
    else if f32Lt (f32Abs q) tau then go repl (first { s with tiny := true, pivots := min 1023 (s.pivots + 1) })
    else if f32IsNan q then go q s
    else if (f32Val q).neg ≠ sigma then return (none, first { s with inertia := true })
    else go q s

/-- Factor the reduced KKT matrix (R362, R365). -/
def factor (c : QsaCfg) (k : List (List Word)) (n : Nat) (order : List Nat) (s : SolveAcc) : Fm (Option Factor × SolveAcc) := do
  let dm := dMax k
  let tau ← qMul (f32Pow2 c.tauExp) dm
  let delta ← qMul (f32Pow2 c.deltaExp) dm
  factorSteps c k n tau delta order { order := [] } s

/-- Solve with a factor: forward, diagonal, backward. -/
def Factor.solve (f : Factor) (r : List Word) : Fm (List Word) := do
  let m := f.order.length
  let y ← (List.range m).foldlM (fun (y : List Word) i => do
    let v ← (List.zip (f.l.getD i []) y).foldlM (fun a e => do qSub a (← qMul e.1 e.2)) (vAt r (f.order.getD i 0))
    return y ++ [v]) []
  let u ← vZip qDiv y f.dg
  let x ← (List.range m).reverse.foldlM (fun (x : List Word) i => do
    -- x holds positions i + 1 up; L entries of rows below i
    let v ← (List.zip x (List.range x.length)).foldlM (fun a e => do qSub a (← qMul ((f.l.getD (i + 1 + e.2) []).getD i 0) e.1)) (vAt u i)
    return v :: x) []
  return (List.range m).map fun p => match f.order.findIdx? (· == p) with | some i => vAt x i | none => 0

/-- A double-word value: the unevaluated sum of two F32 values. -/
abbrev DWord := Word × Word

/-- An exact two-sum: the rounded sum and its error (R366). -/
def twoSum (a b : Word) : DWord :=
  let s := (qAdd a b).go.1
  let bb := (qSub s a).go.1
  (s, (qAdd (qSub a (qSub s bb).go.1).go.1 (qSub b bb).go.1).go.1)

/-- An FMA-based exact product: the rounded product and its error (R366). -/
def twoProd (a b : Word) : DWord := let p := (qMul a b).go.1; (p, (f32Fma false a b (f32Neg p)).go.1)

/-- A double-word value plus another, by two-sums. DEDUCED, log entry 175. -/
def DWord.add (a b : DWord) : DWord :=
  let s := twoSum a.1 b.1
  let t := twoSum a.2 b.2
  let u := twoSum s.1 (qAdd s.2 t.1).go.1
  twoSum u.1 (qAdd u.2 t.2).go.1

/-- One element of the residual: r minus the products of a row, in ascending index, as a double-word value rounded once to F32; where a value is not
finite it is the exact sum (R366, R184). DEDUCED, log entry 175. -/
def residualOf (row : List Word) (r : Word) (x : List Word) : Fm Word := do
  let ps := (List.zip row x).filter fun p => !((f32Val p.1).isZero)
  let w : DWord := ps.foldl (fun (a : DWord) p => DWord.add a (twoProd (f32Neg p.1) p.2)) (r, 0)
  if f32IsFin w.1 && f32IsFin w.2 then toF32 false (← (f32Val w.1).add (f32Val w.2))
  else do
    let qs ← ps.mapM fun p => (f32Val (f32Neg p.1)).mul (f32Val p.2)
    toF32 false (← exactSum (f32Val r :: qs))

/-- The compensated residual r − KΔ (R366). -/
def residual (k : List (List Word)) (r x : List Word) : Fm (List Word) := (List.zip k r).mapM fun e => residualOf e.1 e.2 x

/-- Refinement from Δ_k (R366): the step taken, whether it met the tolerance and how many corrections it took. -/
def refine (k : List (List Word)) (f : Factor) (r : List Word) (limit : Word) : Nat → Nat → List Word → List (Word × List Word) → Fm (List Word × Bool × Nat)
  | 0, _, x, tried => do
    let rho ← residual k r x
    if f32Le (vNorm rho) limit then return (x, true, tried.length)
    let all := tried ++ [(vNorm rho, x)]
    let best := all.foldl (fun (b : Word × List Word) e => if f32Lt e.1 b.1 then e else b) (all.getD 0 (0, x))
    return (best.2, false, tried.length)
  | n + 1, i, x, tried => do
    let rho ← residual k r x
    if f32Le (vNorm rho) limit then return (x, true, tried.length)
    let dx ← f.solve rho
    refine k f r limit n (i + 1) (← vZip qAdd x dx) (tried ++ [(vNorm rho, x)])

/-- One linear solve with refinement (R366). -/
def linSolve (c : QsaCfg) (k : List (List Word)) (f : Factor) (r : List Word) (s : SolveAcc) : Fm (List Word × SolveAcc) := do
  let x0 ← f.solve r
  let limit ← qMul c.refineTol (vNorm r)
  let (x, ok, steps) ← refine k f r limit c.refineMax 0 x0 []
  return (x, { s with refineFail := s.refineFail || !ok, maxRefine := max s.maxRefine steps })

/-- An iterate. -/
structure Iterate where
  x : List Word
  y : List Word
  z : List Word
  s : List Word
deriving DecidableEq, Repr

/-- Residuals and mu of an iterate (R364). -/
structure Resid where
  rd : List Word
  re : List Word
  ri : List Word
  mu : Word
deriving DecidableEq, Repr

def Qp.resid (q : Qp) (t : Iterate) : Fm Resid := do
  let hx ← sMul q.h t.x
  let aty ← sMulT q.a q.n t.y
  let ctz ← sMulT q.c q.n t.z
  let rd ← vZip qAdd (← vZip qAdd (← vZip qAdd hx q.g) aty) ctz
  let re ← vZip qSub (← sMul q.a t.x) q.b
  let ri ← vZip qSub (← vZip qAdd (← sMul q.c t.x) t.s) q.d
  let mu ← if q.mi = 0 then pure 0 else do
    qDiv (← (List.zip t.s t.z).foldlM (fun a e => qMac a e.1 e.2) 0) (← toF32 false (intVal q.mi 0))
  return ⟨rd, re, ri, mu⟩

/-- A Newton direction with target s∘z = τ (R364): `rc` is s∘z − τ. DESIGN CHOICE, log entry 189. -/
def Qp.direction (q : Qp) (c : QsaCfg) (k : List (List Word)) (f : Factor) (t : Iterate) (r : Resid) (w rc : List Word) (s : SolveAcc) :
    Fm (Iterate × SolveAcc) := do
  let rcs ← vZip qDiv rc t.s
  let u ← vZip qSub (← vZip qMul w r.ri) rcs
  let top := vNeg (← vZip qAdd r.rd (← sMulT q.c q.n u))
  let (d, s) ← linSolve c k f (top ++ vNeg r.re) s
  let dx := d.take q.n
  let cdx ← vZip qAdd (← sMul q.c dx) r.ri
  let dz ← vZip qSub (← vZip qMul w cdx) rcs
  return (⟨dx, d.drop q.n, dz, vNeg cdx⟩, s)

/-- The largest step, at most `top`, that keeps s and z ≥ 0. DESIGN CHOICE, log entry 189. -/
def largestStep (top : Option Word) (t d : Iterate) : Fm (Option Word) :=
  (List.zip (t.s ++ t.z) (d.s ++ d.z)).foldlM (fun m e => do
    if f32Lt e.2 0 then
      let v ← qDiv (f32Neg e.1) e.2
      match m with
      | none => return some v
      | some u => return some (if f32Lt v u then v else u)
    else return m) top

/-- One step along a direction. -/
def Iterate.step (t d : Iterate) (a : Word) : Fm Iterate := do
  let go (v u : List Word) : Fm (List Word) := vZip (fun x y => qMac x a y) v u
  return ⟨← go t.x d.x, ← go t.y d.y, ← go t.z d.z, ← go t.s d.s⟩

/-- The predictor-corrector iteration (R364). DESIGN CHOICE, log entry 189. -/
def Qp.iterate (q : Qp) (c : QsaCfg) (order : List Nat) : Nat → Nat → Iterate → SolveAcc → Fm (SolveStatus × Nat × Iterate × Resid × SolveAcc)
  | 0, it, t, s => do return (.maxIter, it, t, ← q.resid t, s)
  | fuel + 1, it, t, s => do
    let r ← q.resid t
    let one : Word := 0x3F800000
    let lim (eps : Word) (v : List Word) : Fm Word := do qMul eps (← qAdd one (vNorm v))
    if f32Le (vNorm r.re) (← lim c.epsP q.b) && f32Le (vNorm r.ri) (← lim c.epsP q.d) && f32Le (vNorm r.rd) (← lim c.epsD q.g)
        && f32Le r.mu c.epsG then return (.converged, it + 1, t, r, s)
    let w ← vZip qDiv t.z t.s
    let k ← q.kkt w
    let (f?, s) ← factor c k q.n order s
    match f? with
    | none => return (.nonconvex, it + 1, t, r, s)
    | some f =>
      let sz ← vZip qMul t.s t.z
      let (aff, s) ← q.direction c k f t r w sz s
      let sigmaMu ← if q.mi = 0 then pure (0 : Word) else do
        let aAff := (← largestStep (some one) t aff).getD one
        let sa ← vZip (fun x y => qMac x aAff y) t.s aff.s
        let za ← vZip (fun x y => qMac x aAff y) t.z aff.z
        let m ← qDiv (← (List.zip sa za).foldlM (fun a e => qMac a e.1 e.2) 0) (← toF32 false (intVal q.mi 0))
        let rt ← qDiv m r.mu
        qMul (← qMul (← qMul rt rt) rt) r.mu
      let prod ← vZip qMul aff.s aff.z
      let rc ← (List.zip sz prod).mapM fun e => do qSub e.1 (← qSub sigmaMu e.2)
      let (dir, s) ← q.direction c k f t r w rc s
      let a ← match ← largestStep none t dir with
        | none => pure one
        | some m => do let v ← qMul 0x3F7D70A4 m; pure (if f32Lt v one then v else one)
      let t ← t.step dir a
      if (t.x ++ t.y ++ t.z ++ t.s).any (fun v => !(f32IsFin v)) then return (.numeric, it + 1, t, r, s)
      if f32Lt c.divLimit (vNorm t.x) || f32Lt c.divLimit (vNorm t.y) || f32Lt c.divLimit (vNorm t.z) then return (.diverged, it + 1, t, r, s)
      q.iterate c order fuel (it + 1) t s

/-- ½xᵀHx + gᵀx + COST0, summed exactly and rounded once (R369). -/
def Qp.objective (q : Qp) (x : List Word) (cost0 : Word) : Fm Word := do
  let hs ← (List.zip q.h x).flatMap (fun e => e.1.map fun c => (c.2, e.2, vAt x c.1)) |>.mapM fun p => do
    (← (← (f32Val p.1).mul (f32Val p.2.1)).mul (f32Val p.2.2)).mul (ratVal (1 / 2))
  let gs ← (List.zip q.g x).mapM fun e => (f32Val e.1).mul (f32Val e.2)
  toF32 false (← exactSum (hs ++ gs ++ [f32Val cost0]))

/-- Solve a problem (R364 to R369). -/
def Qp.solve (q : Qp) (c : QsaCfg) (order : List Nat) (cost0 : Word) : SolveResult :=
  let run : Fm SolveResult := do
    let one : Word := 0x3F800000
    let t : Iterate := ⟨List.replicate q.n 0, List.replicate q.me 0, List.replicate q.mi one, q.d.map fun d => if f32Lt one d then d else one⟩
    let (st, it, t, r, s) ← q.iterate c order c.iterMax 0 t {}
    let ratio (v w : List Word) : Fm Word := do qDiv (vNorm v) (← qAdd one (vNorm w))
    let p1 ← ratio r.re q.b
    let p2 ← ratio r.ri q.d
    return { status := st, iter := it, tiny := s.tiny, zero := s.zero, refineFail := s.refineFail, inertia := s.inertia, pivots := s.pivots
             firstPivot := s.firstPivot, maxRefine := s.maxRefine, objective := ← q.objective t.x cost0
             resP := if f32Lt p1 p2 then p2 else p1, resD := ← ratio r.rd q.g, mu := r.mu, x := t.x, y := t.y, z := t.z }
  let (res, f) := run.go
  { res with flags := f }

/-- ELIGIBLE (R367). -/
def SolveResult.eligible (r : SolveResult) : Bool := r.status == .converged && !r.zero && !r.refineFail

/-- STATUS code (R367). -/
def SolveStatus.code : SolveStatus → Nat
  | .converged => 0 | .maxIter => 1 | .diverged => 2 | .nonconvex => 3 | .numeric => 4 | .badInput => 5 | .aborted => 6 | .notRun => 7

/-- The solve result and the vectors that follow it (R369). CYCLES is a free value. DESIGN CHOICE, log entry 42. -/
def SolveResult.bytes (r : SolveResult) (lane : Nat) (too : T64) : Bytes :=
  let vec (v : List Word) (n : Nat) : Bytes := (List.range n).flatMap fun i => leBytes 4 (vAt v i).toNat
  packBytes 64 [(4, 1), (3, r.status.code), (1, r.eligible.toNat), (8, r.iter), (1, r.tiny.toNat), (1, r.zero.toNat), (1, r.refineFail.toNat),
    (1, r.inertia.toNat), (4, 0), (8, r.flags.toNat), (10, r.pivots), (6, 0), (8, r.firstPivot), (2, r.maxRefine), (6, 0), (32, r.objective.toNat),
    (32, r.resP.toNat), (32, r.resD.toNat), (32, r.mu.toNat), (32, (Config.solveCycles lane too).toNat), (64, too.toNat), (224, 0)]
  ++ vec r.x 64 ++ vec r.y 32 ++ vec r.z 128

/-! ### Value vectors (R359, R371, R372) -/

/-- NV (R359). -/
def QpStruct.nv (s : QpStruct) : Nat := s.hPat.length + s.n + s.aPat.length + s.me + s.cPat.length + s.mi + s.nParam

/-- Rows of a pattern with its values. -/
def rowsOf (m : Nat) (pat : List (Nat × Nat)) (v : List Word) : List SRow :=
  let es := List.zip pat v
  (List.range m).map fun i => (es.filter fun e => e.1.1 == i).map fun e => (e.1.2, e.2)

/-- Insert into a row in ascending column. -/
def sInsert (r : SRow) (j : Nat) (x : Word) : SRow := (r.filter fun e => decide (e.1 < j)) ++ (j, x) :: r.filter fun e => decide (j < e.1)

/-- The problem of a value vector (R359). -/
def QpStruct.problem (s : QpStruct) (v : List Word) : Qp :=
  let (hv, v) := v.splitAt s.hPat.length
  let (g, v) := v.splitAt s.n
  let (av, v) := v.splitAt s.aPat.length
  let (b, v) := v.splitAt s.me
  let (cv, v) := v.splitAt s.cPat.length
  let d := v.take s.mi
  let upper := rowsOf s.n s.hPat hv
  let full := (List.range s.n).map fun i =>
    let below := (List.range i).filterMap fun j => ((upper.getD j []).find? (·.1 == i)).map fun e => (j, e.2)
    (below ++ upper.getD i []).foldl (fun r e => sInsert r e.1 e.2) []
  { n := s.n, me := s.me, mi := s.mi, h := full, g := g, a := (rowsOf s.me s.aPat av).map fun r => r.foldl (fun r e => sInsert r e.1 e.2) [], b := b
    c := (rowsOf s.mi s.cPat cv).map fun r => r.foldl (fun r e => sInsert r e.1 e.2) [], d := d }

/-- A candidate header (R370). -/
structure Candidate where
  enable : Bool
  struct : Nat
  count : Nat
  offset : Nat
  cost0 : Word
deriving DecidableEq, Repr

/-- Candidate header ℓ of a feed region (R370). -/
def candidateAt (m : Memory) (region l : Nat) : Candidate :=
  let bs := m.read .cistern (region + 16 * l) 16
  { enable := fieldOf bs 0 1 == 1, struct := fieldOf bs 1 3, count := fieldOf bs 16 16, offset := fieldOf bs 32 32, cost0 := BitVec.ofNat 32 (fieldOf bs 64 32) }

/-- The pose values a batch takes, in F32 (R371, R372). -/
def PoseRec.src (p : PoseRec) : LiveSrc → Word
  | .v => (toF32 false (ratVal (qVal p.v))).go.1
  | .omega => (toF32 false (ratVal (qVal p.omega))).go.1
  | .acc => (toF32 false (ratVal (qVal p.acc))).go.1

/-- The native delta feed (R371): the value vector and the pairs ignored. -/
def QpStruct.delta (s : QpStruct) (cfg : QsaCfg) (m : Memory) (at_ count : Nat) (pose : PoseRec) : List Word × Nat :=
  let pairs := (List.range count).map fun i => (m.readNat .cistern (at_ + 8 * i) 2, BitVec.ofNat 32 (m.readNat .cistern (at_ + 8 * i + 4) 4))
  let v := pairs.foldl (fun (v : List Word) e => v.set e.1 e.2) s.base
  let v := cfg.live.foldl (fun (v : List Word) e => v.set e.1 (f32Fma false e.2.2 (pose.src e.2.1) (vAt v e.1)).go.1) v
  (v, (pairs.filter fun e => decide (s.nv ≤ e.1)).length)

/-- One block of a chain (R372). -/
structure QBlock where
  type : Nat
  rows : Nat
  cols : Nat
  data : List Word
deriving DecidableEq, Repr

/-- The blocks of a chain up to END (R372): none where END is not among `count` blocks. -/
def blocksFrom (m : Memory) : Nat → Nat → Option (List QBlock)
  | 0, _ => none
  | n + 1, a =>
    let h := m.read .cistern a 16
    let bytes := fieldOf h 64 32
    let b : QBlock := ⟨fieldOf h 0 8, fieldOf h 16 16, fieldOf h 32 16, (List.range (bytes / 4)).map fun i => BitVec.ofNat 32 (m.readNat .cistern (a + 16 + 4 * i) 4)⟩
    if b.type = 0xFF then some [] else (blocksFrom m n (a + 16 + bytes)).map (b :: ·)

/-- Does a chain, up to its END, hold a poisoned word (R472). -/
def chainPoisoned (m : Memory) : Nat → Nat → Bool
  | 0, _ => false
  | n + 1, a =>
    let h := m.read .cistern a 16
    let bytes := fieldOf h 64 32
    m.poisoned .cistern a 16 || (fieldOf h 0 8 != 0xFF && (m.poisoned .cistern (a + 16) bytes || chainPoisoned m n (a + 16 + bytes)))

/-- The matrices of an assembly problem. -/
structure Assembly where
  nx : Nat
  nu : Nat
  hz : Nat
  ad : List Word
  bd : List Word
  qx : List Word
  qu : List Word
  qn : List Word
  ref : List Word
  ulim : List Word
  xlim : List Word
  x0map : List Word
deriving DecidableEq, Repr

/-- Gather a chain's blocks (R372): the header's ROWS and COLS of DYN give nx and nx + nu, those of REF the horizon. None where a limit breaks.
DESIGN CHOICE, log entry 190. -/
def assemblyOf (bs : List QBlock) : Option Assembly :=
  let get (t : Nat) : Option QBlock := bs.find? (·.type == t)
  match get 1, get 2, get 3, get 6 with
  | some dyn, some cost, some ref, some x0 =>
    let nx := dyn.rows
    let nu := dyn.cols - dyn.rows
    let n := ref.rows
    let ul := match get 4 with | some b => b.data | none => []
    let xl := match get 5 with | some b => b.data | none => []
    if nx ≤ 8 ∧ nu ≤ 4 ∧ n * nu ≤ 64 ∧ 0 < nx ∧ 0 < nu ∧ 0 < n ∧ dyn.data.length = nx * (nx + nu) ∧ cost.data.length = 2 * nx * nx + nu * nu
        ∧ ref.data.length = n * nx ∧ x0.data.length = 4 * nx ∧ (ul = [] ∨ ul.length = 2 * n * nu) ∧ (xl = [] ∨ xl.length = 2 * n * nx)
        ∧ (bs.all fun b => [1, 2, 3, 4, 5, 6].contains b.type) = true then
      some ⟨nx, nu, n, dyn.data.take (nx * nx), dyn.data.drop (nx * nx), cost.data.take (nx * nx), slice32 cost.data (nx * nx) (nu * nu),
        cost.data.drop (nx * nx + nu * nu), ref.data, ul, xl, x0.data⟩
    else none
  | _, _, _, _ => none
where slice32 (l : List Word) (a n : Nat) : List Word := (l.drop a).take n

/-- Dense product of an r × k and a k × c matrix held row by row. -/
def dMul (r k c : Nat) (x y : List Word) : List Word :=
  (List.range (r * c)).map fun e => (List.range k).foldl (fun a l => (qMac a (vAt x (e / c * k + l)) (vAt y (l * c + e % c))).go.1) 0

/-- Transpose of an r × c matrix. -/
def dT (r c : Nat) (x : List Word) : List Word := (List.range (c * r)).map fun e => vAt x (e % r * c + e / r)

/-- Entry-wise sum and difference. -/
def dAdd (x y : List Word) : List Word := List.zipWith (fun a b => (qAdd a b).go.1) x y
def dSub (x y : List Word) : List Word := List.zipWith (fun a b => (qSub a b).go.1) x y

/-- A bound of magnitude 3.0 × 10³⁸ or more is absent (R372). -/
def boundPresent (w : Word) : Bool := match f32Val w with | .fin s n d => decide (absRat' (FVal.fin s n d).rat < 3 * 10 ^ 38) | _ => false
where absRat' (q : Rat) : Rat := if q < 0 then -q else q

/-- The condensed problem (R372); H is held by its upper triangle (R358). -/
def Assembly.condense (p : Assembly) (pose : PoseRec) : Qp :=
  let nx := p.nx
  let nu := p.nu
  let n := p.hz
  let x0 := dMul nx 4 1 p.x0map [pose.src .v, pose.src .omega, pose.src .acc, 0x3F800000]
  -- powers of A: Φ_k for k = 0 to N
  let eye : List Word := (List.range (nx * nx)).map fun e => if e / nx = e % nx then 0x3F800000 else 0
  let phis := (List.range n).foldl (fun (l : List (List Word)) _ => l ++ [dMul nx nx nx p.ad (l.getLastD eye)]) [eye]
  let phi (k : Nat) : List Word := phis.getD k eye
  let gam (k j : Nat) : List Word := dMul nx nx nu (phi (k - 1 - j)) p.bd
  -- Γ_k as nx × (N nu)
  let gamma (k : Nat) : List Word := (List.range (nx * (n * nu))).map fun e =>
    let r := e / (n * nu); let c := e % (n * nu); let j := c / nu
    if j < k then vAt (gam k j) (r * nu + c % nu) else 0
  let ks := (List.range n).map (· + 1)
  let qk (k : Nat) : List Word := if k < n then p.qx else p.qn
  let m := n * nu
  let h0 := ks.foldl (fun (h : List Word) k => dAdd h (dMul m nx m (dMul m nx nx (dT nx m (gamma k)) (qk k)) (gamma k))) (List.replicate (m * m) 0)
  let h := (List.range (m * m)).map fun e =>
    let r := e / m; let c := e % m
    if r / nu = c / nu then (qAdd (vAt h0 e) (vAt p.qu (r % nu * nu + c % nu))).go.1 else vAt h0 e
  let free (k : Nat) : List Word := dMul nx nx 1 (phi k) x0
  let g := ks.foldl (fun (g : List Word) k => dAdd g (dMul m nx 1 (dMul m nx nx (dT nx m (gamma k)) (qk k))
    (dSub (free k) ((List.range nx).map fun i => vAt p.ref ((k - 1) * nx + i))))) (List.replicate m 0)
  -- inequality rows in the order k, inputs, states, lower, upper, component
  let rows : List (SRow × Word) := (List.range n).flatMap fun k =>
    let u (hi : Bool) (i : Nat) : Option (SRow × Word) :=
      let b := vAt p.ulim ((if hi then n * nu else 0) + k * nu + i)
      if p.ulim ≠ [] ∧ boundPresent b then some ([(k * nu + i, if hi then 0x3F800000 else 0xBF800000)], if hi then b else f32Neg b) else none
    let x (hi : Bool) (i : Nat) : Option (SRow × Word) :=
      let b := vAt p.xlim ((if hi then n * nx else 0) + k * nx + i)
      if p.xlim ≠ [] ∧ boundPresent b then
        let row := (List.range m).filterMap fun c => let v := vAt (gamma (k + 1)) (i * m + c); if (f32Val v).isZero then none else some (c, if hi then v else f32Neg v)
        let f := vAt (free (k + 1)) i
        some (row, if hi then (qSub b f).go.1 else (qSub f b).go.1)
      else none
    (List.range nu).filterMap (u false) ++ (List.range nu).filterMap (u true) ++ (List.range nx).filterMap (x false) ++ (List.range nx).filterMap (x true)
  { n := m, me := 0, mi := rows.length, h := (List.range m).map fun r => (List.range m).map fun c => (c, vAt h (min r c * m + max r c)), g := g, a := [], b := []
    c := rows.map (·.1), d := rows.map (·.2) }

/-- Does an assembled problem fit a structure (R373); if so, the problem over the structure's pattern. -/
def QpStruct.fit (s : QpStruct) (q : Qp) : Option Qp :=
  let inH (i j : Nat) : Bool := s.hPat.contains (min i j, max i j)
  let okH := (List.zip q.h (List.range q.n)).all fun (r, i) => r.all fun (j, v) => (f32Val v).isZero || inH i j
  let okC := (List.zip q.c (List.range q.mi)).all fun (r, i) => r.all fun (j, v) => (f32Val v).isZero || s.cPat.contains (i, j)
  if q.n = s.n ∧ s.me = 0 ∧ q.mi = s.mi ∧ okH ∧ okC then
    some { q with h := (List.zip q.h (List.range q.n)).map fun (r, i) => r.filter fun e => inH i e.1 }
  else none

/-- One lane of a batch (R370 to R373): its result and what it counts: pairs ignored and a bad feed. DESIGN CHOICE, log entry 190. -/
def QsaCfg.lane (c : QsaCfg) (m : Memory) (region l : Nat) (pose : PoseRec) : SolveResult × Nat × Bool × List Word × Nat :=
  let k := candidateAt m region l
  if !k.enable then ({}, 0, false, [], 0) else
  match if h : k.struct < 8 then c.structs[k.struct] else none with
  | none => ({ status := .badInput }, 0, false, [], 0)
  | some s =>
    if m.poisoned .cistern (region + 16 * l) 16 ∨ (if c.assembly then chainPoisoned m k.count (region + k.offset) else m.poisoned .cistern (region + k.offset) (8 * k.count)) then
      ({ status := .numeric }, 0, false, [], k.struct)
    else if c.assembly then
      match (blocksFrom m k.count (region + k.offset)).bind assemblyOf with
      | none => ({ status := .badInput }, 0, true, [], k.struct)
      | some p =>
        match s.fit (p.condense pose) with
        | none => ({ status := .badInput }, 0, true, [], k.struct)
        | some q =>
          if (q.g ++ q.d ++ (q.h ++ q.c).flatMap fun r => r.map (·.2)).any (fun w => !(f32IsFin w)) then ({ status := .badInput }, 0, false, [], k.struct)
          else (q.solve c s.order k.cost0, 0, false, s.base.drop (s.nv - s.nParam), k.struct)
    else
      let (v, bad) := s.delta c m (region + k.offset) k.count pose
      if v.any (fun w => !(f32IsFin w)) then ({ status := .badInput }, bad, false, [], k.struct)
      else ((s.problem v).solve c s.order k.cost0, bad, false, v.drop (s.nv - s.nParam), k.struct)

/-- Value of an output row (R377): the offset plus the fma chain of the terms. -/
def OutRow.value (r : OutRow) (x params : List Word) : Word :=
  r.terms.foldl (fun a e => (f32Fma false e.2 (vAt x e.1) a).go.1) (match r.offset with | some i => vAt params i | none => 0)

/-- Clamp a value at ± a limit and round it to Q15.16; true if it was clamped (R378). DEDUCED, log entry 121. DESIGN CHOICE, log entry 190. -/
def clampQ (lim : Rat) (w : Word) : Word × Bool :=
  match f32Val w with
  | .nan => (0, true)
  | .inf s => (BitVec.ofInt 32 (satInt 32 (rneRat ((if s then -lim else lim) * 65536))), true)
  | v => let q := clampRat (-lim) lim v.rat; (BitVec.ofInt 32 (satInt 32 (rneRat (q * 65536))), q != v.rat)

/-- The steps of the stop command (R378). DEDUCED, log entry 121. -/
def QsaCfg.stopSteps (c : QsaCfg) (pose : PoseRec) : List (Word × Word) :=
  let v := qVal pose.v
  let av := if v < 0 then -v else v
  let dt := match c.structs[0] with | some s => s.outDt | none => 100
  let curv : Rat := if (1 : Rat) / 20 ≤ av then clampRat (-c.kappaMax) c.kappaMax (qVal pose.omega / v) else 0
  (List.range 8).map fun i =>
    let t : Rat := (c.lead : Rat) / 1000000 + ((i * dt : Nat) : Rat) / 1000
    let sp := max 0 (av - c.stopDecel * t)
    (BitVec.ofInt 32 (rneRat ((if v < 0 then -sp else sp) * 65536)), BitVec.ofInt 32 (satInt 32 (rneRat (curv * 65536))))

/-- The selected lane (R378): the eligible one with the lowest objective, the lowest lane on a tie. -/
def selectLane (rs : List SolveResult) : Option Nat :=
  (List.range rs.length).foldl (fun (b : Option Nat) l =>
    let r := rs.getD l {}
    if !r.eligible then b else
    match b with
    | none => some l
    | some k => if f32Lt r.objective (rs.getD k {}).objective then some l else some k) none

/-- The QP of the alignment step as a problem (R381): per variable a lower and then an upper row. -/
def AlignQp.problem (q : AlignQp) : Qp :=
  { n := q.n, me := 0, mi := 2 * q.n, h := q.h.map fun r => List.zip (List.range q.n) r, g := q.g, a := [], b := []
    c := (List.range q.n).flatMap fun i => [[(i, 0xBF800000)], [(i, 0x3F800000)]]
    d := (List.range q.n).flatMap fun i => [f32Neg (vAt q.lo i), vAt q.hi i] }

/-- A value of the alignment problem's vector is NaN or ±∞ (R367, R381). -/
def AlignQp.bad (q : AlignQp) : Bool := (q.h.flatten ++ q.g ++ q.lo ++ q.hi).any fun w => !(f32IsFin w)

/-- The alignment solve (R381): BAD_INPUT for a value that is not finite. DESIGN CHOICE, log entry 190. -/
def AlignQp.solve (q : AlignQp) (c : QsaCfg) : SolveResult :=
  if q.bad then { status := .badInput } else q.problem.solve c (List.range q.n) 0

/-- The motion command's bytes (R379). -/
def MotionCmd.bytes (c : MotionCmd) : Bytes :=
  packBytes 32 [(4, 1), (1, c.valid.toNat), (1, c.stop.toNat), (1, c.noFeed.toNat), (1, 0), (6, c.lane.toNat), (2, c.stage.toNat), (3, c.cls.toNat),
    (4, c.pair.toNat), (9, 0), (32, c.batch.toNat), (64, c.tov.toNat), (32, c.aoc.toNat), (32, c.frame.toNat), (7, c.eligible.toNat), (25, 0),
    (32, c.objective.toNat)]
  ++ ((List.range 8).flatMap fun i => let s := c.steps.getD i (0, 0); leBytes 4 s.1.toNat ++ leBytes 4 s.2.toNat)
  ++ padTo 16 c.digest ++ List.replicate 16 0

end Sys2Proof.Machine
end

