-- ==== Sys2Proof/Machine/PauOps.lean ====
section
/-! DEFINITION. Compensation and projection of points, occlusion, alignment residuals and steps (spec 09_projection_and_alignment). -/

namespace Sys2Proof.Machine

open Sys2Proof

/-- Islands of the PAU: pipes 0–3 on 46 and 47, projection on 48, alignment on 49 (R214). -/
def pipeIsland (p : Fin 4) : Nat := 46 + p.val / 2
def alignIsland : Nat := 49

/-- Rz(yaw) · Ry(pitch) · Rx(roll) in Q15.16, each entry rounded once (R215). -/
def Extrinsic.matrix (e : Extrinsic) : List (List Int) :=
  let sr := sinTurn e.roll
  let cr := cosTurn e.roll
  let sp := sinTurn e.pitch
  let cp := cosTurn e.pitch
  let sy := sinTurn e.yaw
  let cy := cosTurn e.yaw
  let o : Int := 2 ^ 30
  let q (n : Int) : Int := satInt 32 (rneDiv n (2 ^ 74))
  [[q (cy * cp * o), q (cy * sp * sr - sy * cr * o), q (cy * sp * cr + sy * sr * o)],
   [q (sy * cp * o), q (sy * sp * sr + cy * cr * o), q (sy * sp * cr - cy * sr * o)],
   [q (-sp * o * o), q (cp * sr * o), q (cp * cr * o)]]

/-- Entry (i, j) of an integer matrix. -/
def iAt (m : List (List Int)) (i j : Nat) : Int := (m.getD i []).getD j 0

/-- A Q15.16 product rounded once, and a sum that saturates (R178, R221). -/
def qMulI (a b : Int) : Int := satInt 32 (rneDiv (a * b) 65536)
def qSum (l : List Int) : Int := satInt 32 (l.foldl (· + ·) 0)

/-- The extrinsic in force: nominal plus the set's deviation (R223, R234). DESIGN CHOICE, log entry 187. -/
def Geometry.inForce (g : Geometry) (d : Deviation) : Extrinsic :=
  { roll := g.ext.roll + radToTurn (d.roll / 1000), pitch := g.ext.pitch + radToTurn (d.pitch / 1000), yaw := g.ext.yaw + radToTurn (d.yaw / 1000)
    x := g.ext.x + BitVec.ofInt 32 (rneRat (d.x * 65536 / 1000)), y := g.ext.y + BitVec.ofInt 32 (rneRat (d.y * 65536 / 1000))
    z := g.ext.z + BitVec.ofInt 32 (rneRat (d.z * 65536 / 1000)) }

/-- The time offset in force, in ticks. -/
def Geometry.dt (g : Geometry) (d : Deviation) : Int := g.dtNom + rneRat (d.dt * ticksPerUs)

/-- The set in force for a frame (R223). -/
def Pau.setFor (p : Pau) (n : BitVec 64) : ExtSet :=
  match p.sets.find? fun e => decide (e.1.toNat ≤ n.toNat) with | some e => e.2 | none => {}

/-- What is known of a frame's reference pose (R219, R222): none while undecided. -/
def Pau.refFor (p : Pau) (n : BitVec 64) : Option (Option PoseRec) := (p.refs.find? fun e => e.1 == n).map (·.2)

/-- Decide the reference poses that a live record at `t` decides (R219, R222). DEDUCED, log entry 108. -/
def Pau.decideRefs (p : Pau) (frames : List Frame) (live : PoseRec) (dead : Bool) : Pau :=
  frames.foldr (fun (f : Frame) (p : Pau) =>
    if (p.refFor f.no).isSome then p
    else if dead then { p with refs := ((f.no, none) :: p.refs).take 16 }
    else if tReached live.tov f.b then
      (if live.valid then { p with refs := ((f.no, some live) :: p.refs).take 16 }
       else if live.mode = .lost then { p with refs := ((f.no, none) :: p.refs).take 16 } else p)
    else p) p

/-- Is a record a DEPTH_PIXEL (R230). -/
def RecBody.isPixel : RecBody → Bool | .depthPixel .. => true | _ => false

/-- A coordinate of the ray of a depth pixel, (u − CX) / FX, rounded once to Q15.16 (R178, R218); the spec states no value where the quotient is
none. DESIGN CHOICE, log entry 185. -/
def depthRay (u : BitVec 16) (c f : Word) : Int :=
  if f32IsFin c ∧ f32IsFin f ∧ (f32Val f).isZero = false then satInt 32 (rneRat (((u.toNat : Rat) - (f32Val c).rat) / (f32Val f).rat * 65536))
  else (Config.depthRay u c f).toInt

/-- A POINT or DEPTH_PIXEL record as a point in the sensor frame, with its range (R218); under RADIAL the ray's length and the scale are each rounded
once to Q15.16. DESIGN CHOICE, log entry 185. -/
def RsCfg.sensorPoint (c : RsCfg) (b : RecBody) : Option (Int × Int × Int × Word) :=
  match b with
  | .point az el r _ _ _ _ _ =>
    let a : Word := az.setWidth 32 <<< 16
    let e : Word := el.setWidth 32 <<< 16
    let h := satInt 32 (qTrig r.toInt (cosTurn e))
    some (satInt 32 (qTrig h (cosTurn a)), satInt 32 (qTrig h (sinTurn a)), satInt 32 (qTrig r.toInt (sinTurn e)), r)
  | .depthPixel col row d _ =>
    let rx := depthRay col c.cx c.fx
    let ry := depthRay row c.cy c.fy
    if c.radial then
      let len : Int := (sqrtRne ((rx * rx + ry * ry + 65536 * 65536 : Int) : Rat) : Nat)
      let s := if len = 0 then 0 else satInt 32 (rneRat ((d.toInt * 65536 : Int) / (len : Rat)))
      some (qMulI rx s, qMulI ry s, s, d)
    else some (qMulI rx d.toInt, qMulI ry d.toInt, d.toInt, d)
  | _ => none

/-- Rotate by an angle, each product rounded once and each sum saturated (R221). -/
def rotQ (a : Word) (x y : Int) : Int × Int :=
  (qSum [qTrig x (cosTurn a), -qTrig y (sinTurn a)], qSum [qTrig x (sinTurn a), qTrig y (cosTurn a)])

/-- Counts of an L64 difference that saturates (R221). -/
def l64Sats (a b : BitVec 64) : Nat := if rneDiv (a.toInt - b.toInt) 65536 = l64DiffQ a b then 0 else 1

/-- What a pose answer gives against a reference pose: displacement, turn and saturations (R221). -/
def poseDelta (a ref : PoseRec) : Int × Int × Word × Nat :=
  let d := rotQ (-ref.heading) (l64DiffQ a.x ref.x) (l64DiffQ a.y ref.y)
  (d.1, d.2, a.heading - ref.heading, l64Sats a.x ref.x + l64Sats a.y ref.y)

/-- How a pipe fares with the point at its head. -/
inductive Compensated where
  | wait
  | discard (lost : Bool) (sat : Nat)
  | core (c : Core) (sat : Nat)
deriving DecidableEq, Repr

/-- Compensation of one point (R218 to R223); `crcBad`: the CRC of the pose answer fails. DESIGN CHOICE, log entry 166.
DESIGN CHOICE, log entry 187. -/
def Pau.compensate (p : Pau) (c : RsCfg) (it : PipeItem) (frame : Option Frame) (crcBad : Bool) (query : T64 → T64 → Option PoseRec) : Compensated :=
  match frame with
  | none => .discard false 0
  | some f =>
    let set := p.setFor f.no
    let dev := set.dev[it.sensor.val]!
    let t := it.r.tov + BitVec.ofInt 64 (c.geo.dt dev)
    match query t (t + us c.asof) with
    | none => .wait
    | some a =>
      if crcBad || !a.valid then .discard (!crcBad && a.mode == .lost) 0 else
      match p.refFor f.no with
      | none => .wait
      | some none => .discard false 0
      | some (some ref) =>
        match c.sensorPoint it.r.body with
        | none => .discard false 0
        | some (sx, sy, sz, range) =>
          let e := c.geo.inForce dev
          let m := e.matrix
          let row (i : Nat) (t : Word) : Int := qSum [qSum [qMulI (iAt m i 0) sx, qMulI (iAt m i 1) sy, qMulI (iAt m i 2) sz], t.toInt]
          let vx := row 0 e.x
          let vy := row 1 e.y
          let vz := row 2 e.z
          let (dx, dy, dpsi, sat) := poseDelta a ref
          let x := qSum [dx, qTrig vx (cosTurn dpsi), -qTrig vy (sinTurn dpsi)]
          let y := qSum [dy, qTrig vx (sinTurn dpsi), qTrig vy (cosTurn dpsi)]
          let base : Core :=
            { frame := f.no, sensor := it.sensor, hg := it.r.hg, sector := 0, extrap := a.extrap, depth := it.r.body.isPixel, probation := it.r.probation
              conf := it.r.conf, tov := it.r.tov, at_ := t, x := BitVec.ofInt 32 x, y := BitVec.ofInt 32 y, z := BitVec.ofInt 32 vz
              range := range, intensity := 0, sflags := 0, channel := 0, line := 0, along := 0
              dx := dx, dy := dy, dpsi := dpsi, v := a.v, omega := a.omega }
          match it.r.body with
          | .point az _ _ i ch _ fl sec =>
            .core { base with sector := sec, intensity := i, sflags := fl, channel := ch, line := ch.toNat, along := az.toNat } sat
          | .depthPixel col row _ conf => .core { base with intensity := conf, line := row.toNat, along := col.toNat } sat
          | _ => .core base sat

/-- Bit depth and samples of a row by its data type: RAW in MIPI CSI-2 packing, YUV422 as U Y V Y (R120, R227, R252). PRESUMED, log entry 104. -/
def rowBits (dt : BitVec 6) : Nat := match dt.toNat with | 0x2B => 10 | 0x2C => 12 | 0x2D => 14 | 0x2E => 16 | _ => 8

/-- Pixels of a row of a number of bytes. -/
def rowWidth (dt : BitVec 6) (bytes : Nat) : Nat := if dt = 0x1E then bytes / 2 else bytes * 8 / rowBits dt

/-- The sample at a column: the raw value or Y. PRESUMED, log entry 104. -/
def rowSample (dt : BitVec 6) (bs : Bytes) (col : Nat) : Nat :=
  let b (i : Nat) : Nat := (bs.getD i 0).toNat
  match dt.toNat with
  | 0x1E => b (2 * col + 1)
  | 0x2B => let k := col / 4 * 5; b (k + col % 4) * 4 + fieldNat (b (k + 4)) (2 * (col % 4)) 2
  | 0x2C => let k := col / 2 * 3; b (k + col % 2) * 16 + fieldNat (b (k + 2)) (4 * (col % 2)) 4
  | 0x2D => let k := col / 4 * 7; b (k + col % 4) * 64 + fieldNat (b (k + 4) + 256 * b (k + 5) + 65536 * b (k + 6)) (6 * (col % 4)) 6
  | 0x2E => b (2 * col) * 256 + b (2 * col + 1)
  | _ => b col

/-- The chroma sample at a column: U at an even column, V at an odd one; 0 for RAW (R227). PRESUMED, log entry 104. -/
def rowChroma (dt : BitVec 6) (bs : Bytes) (col : Nat) : Nat :=
  if dt = 0x1E then (bs.getD (col / 2 * 4 + if col % 2 = 0 then 0 else 2) 0).toNat else 0

/-- Row r of an image. -/
def Image.row (i : Image) (r : Nat) : Option (T64 × BitVec 6 × Bytes) := (i.rows.find? (·.1 == r)).map (·.2)

/-- The image of camera c for frame n (R225): none while it is not known, `some none` where no image exists. -/
def Pau.imageFor (p : Pau) (c : Fin 16) (n : BitVec 64) (closed : Bool) : Option (Option Image) :=
  let mine := p.images.filter fun i => i.cam == c
  let upto := mine.filter fun i => match i.frame with | some f => decide (f.toNat ≤ n.toNat) | none => false
  let later := mine.any fun i => match i.frame with | some f => decide (n.toNat < f.toNat) | none => false
  let top := upto.foldl (fun a i => match i.frame with | some f => max a f.toNat | none => a) 0
  let best := upto.find? fun i => match i.frame with | some f => f.toNat == top | none => false
  match best with
  | some i => if top = n.toNat || later || closed then some (some i) else none
  | none => if later || closed then some none else none

/-- The exposure time of an image in ticks (R226), and whether EXPOSURE fell back. -/
def CamCfg.exposureOf (c : CamCfg) (i : Image) : Int × Bool :=
  match c.embedded with
  | none => ((c.exposure * ticksPerUs : Nat), false)
  | some (off, type, big, scale, bias) =>
    match i.embedded.find? fun b => decide (off + rawSize type ≤ b.length) with
    | some b => (rneRat ((f32Val (scaled type (rawBits b type big off) scale bias)).rat * ticksPerUs), false)
    | none => ((c.exposure * ticksPerUs : Nat), true)

/-- floor(v + 0.5) in F32 arithmetic, where finite. -/
def fRound (w : Word) : Option Int :=
  match f32Val (fAdd w 0x3F000000) with | .fin s n d => some ((FVal.fin s n d).rat.floor) | _ => none

/-- A projection in F32 under RNE (R227): camera coordinates to u and v. DEDUCED, log entry 111. -/
def CamCfg.distort (c : CamCfg) (x y : Word) : Word × Word :=
  let s := fAdd (fMul x x) (fMul y y)
  let s2 := fMul s s
  let k := fAdd (fAdd (fAdd 0x3F800000 (fMul c.k1 s)) (fMul c.k2 s2)) (fMul c.k3 (fMul s2 s))
  let two : Word := 0x40000000
  let u := fAdd (fAdd (fMul x k) (fMul (fMul (fMul two c.p1) x) y)) (fMul c.p2 (fAdd s (fMul (fMul two x) x)))
  let v := fAdd (fAdd (fMul y k) (fMul c.p1 (fAdd s (fMul (fMul two y) y)))) (fMul (fMul (fMul two c.p2) x) y)
  (fAdd (fMul c.fx u) c.cx, fAdd (fMul c.fy v) c.cy)

/-- A word of Q15.16 as F32. -/
def fOfQ (v : Int) : Word := fOfRat ((v : Rat) / 65536)

/-- The camera coordinates of a compensated point at a pose `b` (R227), with the point in the vehicle frame at b. DEDUCED, log entry 111. -/
def CamCfg.place (e : Extrinsic) (q : Core) (b ref : PoseRec) : Word × Word × Word × Word × Word × Word :=
  let (bx, by_, bpsi, _) := poseDelta b ref
  let cs := fOfRat (cosR bpsi)
  let sn := fOfRat (sinR bpsi)
  let rx := fSub (fOfQ q.x.toInt) (fOfQ bx)
  let ry := fSub (fOfQ q.y.toInt) (fOfQ by_)
  let px := fAdd (fMul cs rx) (fMul sn ry)
  let py := fSub (fMul cs ry) (fMul sn rx)
  let m := e.matrix
  let dx := fSub px (fOfQ e.x.toInt)
  let dy := fSub py (fOfQ e.y.toInt)
  let dz := fSub (fOfQ q.z.toInt) (fOfQ e.z.toInt)
  let c (j : Nat) : Word := fAdd (fAdd (fMul (fOfQ (iAt m 0 j)) dx) (fMul (fOfQ (iAt m 1 j)) dy)) (fMul (fOfQ (iAt m 2 j)) dz)
  (c 0, c 1, c 2, px, py, bpsi)

/-- A time difference in µs, to nearest, as S16 with saturation (R230). DESIGN CHOICE, log entry 187. -/
def dtMicros (d : Int) : BitVec 16 := BitVec.ofInt 16 (satInt 16 (rneDiv d ticksPerUs))

/-- What a projection needs beside the camera: its extrinsic and time offset, the image and its height, LAG and the query. -/
structure ProjEnv where
  cfg : CamCfg
  cam : Fin 16
  ext : Extrinsic
  dt : Int
  img : Image
  rows : Nat
  lag : Nat
  ref : PoseRec
  closed : Bool
  query : T64 → T64 → Option PoseRec

/-- A slot as it was tried: what it holds, whether EXPOSURE fell back, and the pose queries it took as (target, as-of) (R226, R227). -/
structure SlotTry where
  st : SlotSt
  fell : Bool := false
  queries : List (T64 × T64) := []

/-- One pass of R227's row iteration, up to `fuel` of them; the slot waits where a row is not there yet (R228), or the rung of its pose (R207), at
the close of the frame too. DESIGN CHOICE, log entry 43. DESIGN CHOICE, log entry 187. -/
def ProjEnv.iterate (e : ProjEnv) (q : Core) : Nat → Nat → List (T64 × T64) → SlotTry
  | 0, _, qs => { st := .out 0, queries := qs }
  | fuel + 1, r, qs =>
    let absent : SlotSt := if e.closed || e.img.ended then .missing else .waiting
    match e.img.row r with
    | none => { st := absent, queries := qs }
    | some (tov, dt, bytes) =>
      let m := tov + BitVec.ofInt 64 (e.dt - (e.cfg.exposureOf e.img).1 / 2)
      let d := tDiff m q.at_
      let out (qs : List (T64 × T64)) : SlotTry := { st := .out (dtMicros d), queries := qs }
      if (e.cfg.maxDt * ticksPerMs : Nat) < d.natAbs then out qs else
      let asof := (if tLater m q.at_ then m else q.at_) + us (e.lag + 1)
      let qs := qs ++ [(m, asof)]
      match e.query m asof with
      | none => { st := .waiting, queries := qs }
      | some b =>
        if !b.valid then (match Config.poselessSlot q.frame e.cam q.at_ with | none => out qs | some p => { st := .projected p, queries := qs }) else
        let (cx, cy, cz, px, py, bpsi) := CamCfg.place e.ext q b e.ref
        if f32Le cz 0x3D4CCCCD then out qs else
        let (u, v) := e.cfg.distort (fDiv cx cz) (fDiv cy cz)
        match fRound u, fRound v with
        | some col, some row =>
          if row < 0 || (e.rows : Int) ≤ row || col < 0 || (rowWidth dt bytes.length : Int) ≤ col then out qs
          else if row.toNat ≠ r && fuel ≠ 0 then e.iterate q fuel row.toNat qs
          else match e.img.row row.toNat with
            | none => { st := absent, queries := qs }
            | some (_, dt', bs') =>
              { st := .projected
                  { u := u, v := v, col := col.toNat, row := row.toNat, p0 := BitVec.ofNat 16 (rowSample dt' bs' col.toNat)
                    p1 := BitVec.ofNat 16 (rowChroma dt' bs' col.toNat), dtCam := dtMicros d, cz := cz, bits := rowBits dt'
                    px := px, py := py, bpsi := bpsi, bv := b.v, bomega := b.omega }
                queries := qs }
        | _, _ => out qs

/-- One waiting slot of a point, tried again (R227, R228). An exposure time is used as soon as the first row is there (R226). -/
def Pau.projectSlot (p : Pau) (q : Core) (c : Fin 16) (rows : Fin 64 → Nat) (lag : Nat) (closed : Bool) (query : T64 → T64 → Option PoseRec) : SlotTry :=
  match p.cfg.cams[c] with
  | none => { st := .out 0 }
  | some cam =>
    if p.masked.getLsbD cam.geo.hg.val then { st := .missing } else
    match p.imageFor c q.frame closed, p.refFor q.frame with
    | none, _ => { st := .waiting }
    | some none, _ => { st := .out 0 }
    | some (some img), some (some ref) =>
      let dev := (p.setFor q.frame).dev[8 + c.val]!
      let e : ProjEnv := { cfg := cam, cam := c, ext := cam.geo.inForce dev, dt := cam.geo.dt dev, img := img, rows := rows cam.geo.hg, lag := lag, ref := ref
                           closed := closed, query := query }
      { e.iterate q 3 (e.rows / 2) [] with fell := (img.row (e.rows / 2)).isSome && (cam.exposureOf img).2 }
    | some (some _), _ => { st := .missing }

/-- What trying a point's slots counts: the fall-backs and the pose queries of the slots that are decided now (R207, R226). -/
structure Tried where
  falls : Nat := 0
  queries : List (T64 × T64) := []

def Tried.add (a b : Tried) : Tried := { falls := a.falls + b.falls, queries := a.queries ++ b.queries }

/-- Try every waiting slot of a point. -/
def Pau.projectPoint (p : Pau) (pt : Point) (rows : Fin 64 → Nat) (lag : Nat) (closed : Bool) (query : T64 → T64 → Option PoseRec) : Point × Tried :=
  let r : List ((Fin 16 × SlotSt) × Tried) := pt.slots.map fun (c, s) =>
    if s = SlotSt.waiting then
      (let x := p.projectSlot pt.core c rows lag closed query
       ((c, x.st), if x.st = SlotSt.waiting then {} else { falls := if x.fell then 1 else 0, queries := x.queries }))
    else ((c, s), {})
  ({ pt with slots := r.map (·.1) }, r.foldl (fun a x => a.add x.2) {})

/-- A point still has a slot to decide. -/
def Point.undecided (p : Point) : Bool := p.slots.any fun s => s.2 == SlotSt.waiting

/-- Points in the pending store (R228). -/
def Pau.pendingCount (p : Pau) : Nat := (p.points.filter Point.undecided).length

/-- Frame n has closed for the PAU. -/
def Pau.isClosed (p : Pau) (n : BitVec 64) : Bool := match p.closed with | some c => decide (n.toNat ≤ c.toNat) | none => false

/-- A row record of a camera's flume joins its image (R225, R226). -/
def Pau.takeRow (p : Pau) (c : Fin 16) (tov : T64) (frame : Option (BitVec 64)) (row : Nat) (dt : BitVec 6) (emb : Bool) (bytes : Bytes) : Pau :=
  let old := p.images.filter fun i => i.cam == c && !i.ended
  let cur : Option Image := old.getLast?
  let goesOn : Bool := match cur with
    | none => false
    | some i => emb || i.rows.all fun r => decide (r.1 < row)
  let i : Image := match cur with | some i => if goesOn then i else { cam := c } | none => { cam := c }
  let i : Image := if emb then (if i.rows.isEmpty then { i with embedded := i.embedded ++ [bytes] } else i)
    else { i with rows := i.rows ++ [(row, tov, dt, bytes)], frame := if row = 0 then frame else i.frame }
  let rest := p.images.filter fun x => !(x.cam == c && !x.ended)
  { p with images := (if goesOn then rest else rest ++ old.map fun (x : Image) => { x with ended := true }) ++ [i] }

/-- FRAME_END of a camera closes its image (R228). -/
def Pau.endImage (p : Pau) (c : Fin 16) : Pau :=
  { p with images := p.images.map fun (i : Image) => if i.cam = c then { i with ended := true } else i }

/-- The camera and the range sensor that a headgate feeds. -/
def Pau.camOf (p : Pau) (h : Fin 64) : Option (Fin 16) :=
  (List.finRange 16).find? fun c => match p.cfg.cams[c] with | some k => k.geo.hg == h | none => false
def Pau.rsOf (p : Pau) (h : Fin 64) : Option (Fin 8) :=
  (List.finRange 8).find? fun s => match p.rs[s] with | some k => k.geo.hg == h | none => false

/-! ### Occlusion (R229) -/

/-- The projection of a slot that takes part in the depth buffer. -/
def SlotSt.proj : SlotSt → Option Projection | .projected p => some p | .visible p => some p | _ => none

/-- The depth-buffer cell of a projection. -/
def cellOf (z : Nat) (p : Projection) : Nat × Nat := (p.row / z, p.col / z)

/-- Judge the projections of a frame's points against the smallest c.z of their cells. -/
def Pau.occlude (p : Pau) (pts : List Point) : List Point :=
  let z (c : Fin 16) : Nat := match p.cfg.cams[c] with | some k => k.zcell | none => 1
  let all : List (Fin 16 × (Nat × Nat) × Rat) := pts.flatMap fun pt => pt.slots.filterMap fun (c, s) => s.proj.map fun q => (c, cellOf (z c) q, (f32Val q.cz).rat)
  let least (c : Fin 16) (k : Nat × Nat) (own : Rat) : Rat :=
    all.foldl (fun m (c', k', v) => if c' == c && k' == k && decide (v < m) then v else m) own
  pts.map fun pt => { pt with slots := pt.slots.map fun (c, s) =>
    (c, match s with
      | .projected q =>
        let v := (f32Val q.cz).rat
        if v ≤ least c (cellOf (z c) q) v + p.cfg.zTolAbs + p.cfg.zTolRel * v then .visible q else .occluded { q with p0 := 0, p1 := 0 }
      | .waiting => .missing
      | s => s) }

/-- VIS code (R230). -/
def SlotSt.vis : SlotSt → Nat | .visible _ => 1 | .occluded _ => 2 | .missing => 3 | _ => 0

/-- A pixel coordinate in 2⁻³ pixel as U16 (R230). DESIGN CHOICE, log entry 187. -/
def pixel8 (w : Word) : BitVec 16 := BitVec.ofInt 16 (clampInt 0 65535 (rneRat ((f32Val w).rat * 8)))

/-- The 64 bytes of a decorated point record (R230). -/
def Point.bytes (p : Point) : Bytes :=
  let c := p.core
  let slot (j : Nat) : List (Nat × Nat) :=
    match p.slots[j]? with
    | none => [(16, 0), (16, 0), (16, 0), (16, 0), (16, 0), (4, 15), (2, 0), (10, 0)]
    | some (cam, .visible q) | some (cam, .occluded q) | some (cam, .projected q) =>
      [(16, (pixel8 q.u).toNat), (16, (pixel8 q.v).toNat), (16, q.p0.toNat), (16, q.p1.toNat), (16, q.dtCam.toNat), (4, cam.val),
        (2, (p.slots.getD j (cam, .waiting)).2.vis), (10, 0)]
    | some (cam, .out d) => [(16, 0), (16, 0), (16, 0), (16, 0), (16, d.toNat), (4, cam.val), (2, 0), (10, 0)]
    | some (cam, s) => [(16, 0), (16, 0), (16, 0), (16, 0), (16, 0), (4, cam.val), (2, s.vis), (10, 0)]
  packBytes 64 ([(4, 1), (6, c.hg.val), (9, c.sector.toNat), (1, c.extrap.toNat), (1, c.depth.toNat), (1, c.probation.toNat), (2, 0), (8, c.conf.toNat),
    (32, (t32 c.tov).toNat), (32, c.x.toNat), (32, c.y.toNat), (32, c.z.toNat), (32, c.range.toNat), (16, c.intensity.toNat),
    (8, c.sflags.toNat), (8, c.channel.toNat)] ++ slot 0 ++ slot 1 ++ slot 2)

/-! ### Alignment residuals (R232 to R234) -/

/-- Three-vectors of rationals. -/
abbrev V3 := Rat × Rat × Rat
def V3.add (a b : V3) : V3 := (a.1 + b.1, a.2.1 + b.2.1, a.2.2 + b.2.2)
def V3.sub (a b : V3) : V3 := (a.1 - b.1, a.2.1 - b.2.1, a.2.2 - b.2.2)
def V3.smul (k : Rat) (a : V3) : V3 := (k * a.1, k * a.2.1, k * a.2.2)
def V3.dot (a b : V3) : Rat := a.1 * b.1 + a.2.1 * b.2.1 + a.2.2 * b.2.2
def V3.cross (a b : V3) : V3 := (a.2.1 * b.2.2 - a.2.2 * b.2.1, a.2.2 * b.1 - a.1 * b.2.2, a.1 * b.2.1 - a.2.1 * b.1)
/-- Rotation about z by a table angle. -/
def V3.rotZ (a : Word) (v : V3) : V3 := (cosR a * v.1 - sinR a * v.2.1, sinR a * v.1 + cosR a * v.2.1, v.2.2)

/-- A residual: value, weight and derivative by (sensor, component) (R234). -/
structure Residual where
  e : Rat
  w : Rat
  sensors : List (Fin 24)
  j : List (Fin 24 × Fin 7 × Rat)

/-- The rotation axes of roll, pitch and yaw in vehicle axes (R215). -/
def Extrinsic.axes (e : Extrinsic) : List V3 :=
  [(cosR e.yaw * cosR e.pitch, sinR e.yaw * cosR e.pitch, -sinR e.pitch), (-sinR e.yaw, cosR e.yaw, 0), (0, 0, 1)]

def Extrinsic.origin (e : Extrinsic) : V3 := (qVal e.x, qVal e.y, qVal e.z)

/-- A compensated point in metres. -/
def Core.at3 (c : Core) : V3 := (qVal c.x, qVal c.y, qVal c.z)

/-- Derivatives of a compensated point by its range sensor's parameters, in mrad, mm and µs (R234). -/
def Core.derivs (c : Core) (e : Extrinsic) : List V3 :=
  let q := c.at3
  let d : V3 := ((c.dx : Rat) / 65536, (c.dy : Rat) / 65536, 0)
  let pv := V3.rotZ (-c.dpsi) (q.sub d)
  let arm := pv.sub e.origin
  (e.axes.map fun a => V3.rotZ c.dpsi ((a.cross arm).smul (1 / 1000)))
  ++ ([(1, 0, 0), (0, 1, 0), (0, 0, 1)] : List V3).map (fun a => V3.rotZ c.dpsi (a.smul (1 / 1000)))
  ++ [(V3.add (V3.smul (qVal c.v) (cosR c.dpsi, sinR c.dpsi, 0)) (V3.smul (qVal c.omega) (V3.cross (0, 0, 1) (q.sub d)))).smul (1 / 1000000)]

/-- Rows of the transposed camera rotation applied to a vector. -/
def camAxes (e : Extrinsic) (v : V3) : V3 :=
  let m := e.matrix
  let col (j : Nat) : V3 := ((iAt m 0 j : Rat) / 65536, (iAt m 1 j : Rat) / 65536, (iAt m 2 j : Rat) / 65536)
  ((col 0).dot v, (col 1).dot v, (col 2).dot v)

/-- Derivatives of the camera coordinates by the camera's own parameters (R234). -/
def Projection.camDerivs (p : Projection) (z : Rat) (e : Extrinsic) : List V3 :=
  let pv : V3 := ((f32Val p.px).rat, (f32Val p.py).rat, z)
  let arm := pv.sub e.origin
  (e.axes.map fun a => camAxes e ((a.cross arm).smul (-1 / 1000)))
  ++ (([(1, 0, 0), (0, 1, 0), (0, 0, 1)] : List V3).map fun a => camAxes e (a.smul (-1 / 1000)))
  ++ [camAxes e ((V3.add (qVal p.bv, 0, 0) ((V3.cross (0, 0, 1) pv).smul (qVal p.bomega))).smul (-1 / 1000000))]

/-- Derivative of (u, v) along a change of the camera coordinates (R227, R234). -/
def CamCfg.pixelDeriv (c : CamCfg) (at_ d : V3) : Rat × Rat :=
  let r (w : Word) : Rat := (f32Val w).rat
  let z := at_.2.2
  if z = 0 then (0, 0) else
  let x := at_.1 / z
  let y := at_.2.1 / z
  let dx := (d.1 - x * d.2.2) / z
  let dy := (d.2.1 - y * d.2.2) / z
  let s := x * x + y * y
  let ds := 2 * x * dx + 2 * y * dy
  let k := 1 + r c.k1 * s + r c.k2 * s * s + r c.k3 * s * s * s
  let dk := (r c.k1 + 2 * r c.k2 * s + 3 * r c.k3 * s * s) * ds
  (r c.fx * (dx * k + x * dk + 2 * r c.p1 * (dx * y + x * dy) + r c.p2 * (ds + 4 * x * dx)),
   r c.fy * (dy * k + y * dk + r c.p1 * (ds + 4 * y * dy) + 2 * r c.p2 * (dx * y + x * dy)))

/-- Sobel gradient at a pixel with taps 2 pixels apart; none where a tap lies outside the image (R232). DESIGN CHOICE, log entry 44. -/
def Image.sobel (i : Image) (col row : Int) : Option (Rat × Rat) :=
  let tap (a b : Int) : Option Rat :=
    let y := row + 2 * b
    let x := col + 2 * a
    if x < 0 || y < 0 then none else
    match i.row y.toNat with
    | some (_, dt, bs) => if x < (rowWidth dt bs.length : Int) then some ((rowSample dt bs x.toNat : Nat) : Rat) else none
    | none => none
  match tap (-1) (-1), tap 0 (-1), tap 1 (-1), tap (-1) 0, tap 1 0, tap (-1) 1, tap 0 1, tap 1 1 with
  | some a, some b, some c, some d, some e, some f, some g, some h => some (c + 2 * e + h - a - 2 * d - f, f + 2 * g + h - a - 2 * b - c)
  | _, _, _, _, _, _, _, _ => none

/-- The square root of the alignment arithmetic (R232): to the nearest multiple of a free precision. DESIGN CHOICE, log entry 44. -/
def alignSqrt (x : Rat) : Rat := (sqrtRne (x * (4 ^ Config.alignFrac : Nat)) : Nat) / (2 ^ Config.alignFrac : Nat)

/-- The edge residual of a VISIBLE slot (R232): value, weight and unit gradient. DESIGN CHOICE, log entry 187. -/
def PauCfg.edgeResidual (c : PauCfg) (i : Image) (p : Projection) : Option (Rat × Rat × Rat × Rat) :=
  match i.sobel p.col p.row with
  | none => none
  | some (gx, gy) =>
    if gx = 0 ∧ gy = 0 then none else
    let g := alignSqrt (gx * gx + gy * gy)
    let ux := gx / g
    let uy := gy / g
    let mag (k : Int) : Rat := match i.sobel (p.col + rneRat (ux * k)) (p.row + rneRat (uy * k)) with
      | some (a, b) => alignSqrt (a * a + b * b) | none => 0
    let ks : List Int := (List.range (2 * c.search + 1)).map fun (n : Nat) => (n : Int) - (c.search : Int)
    let k := ks.foldl (fun b k => if mag b < mag k then k else b) 0
    let a := mag (k - 1)
    let m := mag k
    let b := mag (k + 1)
    let den := a - 2 * m + b
    let f : Rat := if den = 0 then 0 else (a - b) / (2 * den)
    let e := (k : Rat) + f + ((p.col : Rat) - (f32Val p.u).rat) * ux + ((p.row : Rat) - (f32Val p.v).rat) * uy
    if c.outlierPx < absRat e then none else
    let w := g / c.gRef
    some (e, if 1 < w then 1 else w, ux, uy)

/-- A sorted copy by a key, ties in list order. -/
def sortKey {α : Type} (key : α → Nat) (l : List α) : List α :=
  l.foldr (fun x r => (r.takeWhile fun y => decide (key y < key x)) ++ x :: r.dropWhile fun y => decide (key y < key x)) []

/-- The depth-edge points of one sensor's frame, each once: along each channel, the nearer of two adjacent returns (R232). -/
def depthEdges (jump : Rat) (pts : List Point) : List Point :=
  let s := sortKey (fun p => p.core.line * 65536 + p.core.along) pts
  let nearer (a : Point) (o : Option Point) : Bool :=
    match o with
    | some b => a.core.line == b.core.line && decide (jump < qVal b.core.range - qVal a.core.range)
    | none => false
  s.zipIdx.filterMap fun (a, i) => if nearer a (if i = 0 then none else s[i - 1]?) || nearer a s[i + 1]? then some a else none

/-- Every edge residual of a frame (R232, R234). -/
def Pau.edgeResiduals (p : Pau) (n : BitVec 64) (pts : List Point) : List Residual :=
  (List.finRange 8).flatMap fun s =>
    (depthEdges p.cfg.edgeJump (pts.filter fun q => q.core.sensor == s)).flatMap fun pt =>
      pt.slots.filterMap fun (c, st) =>
        match st, p.cfg.cams[c], p.rs[s], p.imageFor c n true with
        | .visible q, some cam, some rs, some (some img) =>
          match p.cfg.edgeResidual img q with
          | none => none
          | some (e, w, ux, uy) =>
            let set := p.setFor n
            let ce := cam.geo.inForce (set.dev[8 + c.val]!)
            let re := rs.geo.inForce (set.dev[s.val]!)
            let pv : V3 := ((f32Val q.px).rat, (f32Val q.py).rat, qVal pt.core.z)
            let at_ := camAxes ce (pv.sub ce.origin)
            let de (d : V3) : Rat := let (du, dv) := cam.pixelDeriv at_ d; -(ux * du + uy * dv)
            let rj := (List.zip (List.finRange 7) (pt.core.derivs re)).map fun (k, d) =>
              ((⟨s.val, by omega⟩ : Fin 24), k, de (camAxes ce (V3.rotZ (-q.bpsi) d)))
            let cj := (List.zip (List.finRange 7) (q.camDerivs (qVal pt.core.z) ce)).map fun (k, d) => ((⟨8 + c.val, by omega⟩ : Fin 24), k, de d)
            some { e := e, w := w, sensors := [⟨s.val, by omega⟩, ⟨8 + c.val, by omega⟩], j := rj ++ cj }
        | _, _, _, _ => none

/-- The voxel of a point for the plane fit (R233). -/
def planeCell (size : Rat) (c : Core) : Int × Int × Int :=
  if size = 0 then (0, 0, 0) else ((qVal c.x / size).floor, (qVal c.y / size).floor, (qVal c.z / size).floor)

/-- Mean and covariance of a set of points. -/
def meanCov (ps : List V3) : V3 × List Rat :=
  let k : Rat := 1 / (ps.length : Rat)
  let m := (ps.foldl V3.add (0, 0, 0)).smul k
  let ds := ps.map fun q => V3.sub q m
  let s (f g : V3 → Rat) : Rat := k * ds.foldl (fun a d => a + f d * g d) 0
  let x : V3 → Rat := fun v => v.1
  let y : V3 → Rat := fun v => v.2.1
  let z : V3 → Rat := fun v => v.2.2
  (m, [s x x, s x y, s x z, s y y, s y z, s z z])

/-- The plane of a voxel (R233): the number of points, their mean, the eigenvalues with their vectors, and the points with their derivatives (R234). -/
structure Plane where
  mu : V3
  eig : List (Rat × V3)
  ps : List (V3 × List V3)

/-- The rows of a covariance (xx, xy, xz, yy, yz, zz) less x on its diagonal. -/
def covRows (cov : List Rat) (x : Rat) : List V3 :=
  let c (i : Nat) : Rat := cov.getD i 0
  [(c 0 - x, c 1, c 2), (c 1, c 3 - x, c 4), (c 2, c 4, c 5 - x)]

/-- How many eigenvalues of a covariance lie below x: the sign changes of the characteristic polynomial of the shifted matrix, all of whose roots
are real (R233). -/
def eigBelow (cov : List Rat) (x : Rat) : Nat :=
  match covRows cov x with
  | [r, s, t] =>
    let trace := r.1 + s.2.1 + t.2.2
    let minors := r.1 * s.2.1 - r.2.1 * s.1 + r.1 * t.2.2 - r.2.2 * t.1 + s.2.1 * t.2.2 - s.2.2 * t.2.1
    let cs := [1, trace, minors, V3.dot r (V3.cross s t)].filter fun (c : Rat) => c != 0
    ((List.zip cs cs.tail).filter fun (a, b) => decide (a * b < 0)).length
  | _ => 0

/-- The least n up to hi, from lo on, at which a monotone test holds, by halving. -/
def leastFrom (test : Nat → Bool) : Nat → Nat → Nat → Nat
  | 0, _, hi => hi
  | fuel + 1, lo, hi =>
    if hi ≤ lo then lo else
    let m := (lo + hi) / 2
    if test m then leastFrom test fuel lo m else leastFrom test fuel (m + 1) hi

/-- The i-th smallest eigenvalue of a covariance, to the nearest multiple of a free precision (R233). DESIGN CHOICE, log entry 44. -/
def eigenvalue (cov : List Rat) (i : Nat) : Rat :=
  let unit : Rat := 1 / (2 ^ Config.alignFrac : Nat)
  let most := ((cov.getD 0 0 + cov.getD 3 0 + cov.getD 5 0) / unit).ceil.toNat
  (leastFrom (fun n => decide (i < eigBelow cov (((n : Rat) + 1 / 2) * unit))) (Nat.log2 most + 2) 0 most : Nat) * unit

/-- The unit eigenvector of the i-th smallest eigenvalue (R233): square to the rows of the matrix less that eigenvalue. DESIGN CHOICE, log entry 44. -/
def eigenvector (cov : List Rat) (i : Nat) : V3 :=
  match covRows cov (eigenvalue cov i) with
  | [r, s, t] =>
    let v := [V3.cross r t, V3.cross s t].foldl (fun (a b : V3) => if V3.dot a a < V3.dot b b then b else a) (V3.cross r s)
    let n := alignSqrt (V3.dot v v)
    if n = 0 then Config.planeDir cov i else V3.smul (1 / n) v
  | _ => Config.planeDir cov i

/-- The plane through sensor a's points of a voxel: mean, and the eigenvalues of the covariance with their vectors, smallest first (R233). -/
def Plane.fit (ps : List (V3 × List V3)) : Plane :=
  let (mu, cov) := meanCov (ps.map (·.1))
  { mu := mu, eig := (List.range 3).map fun i => (eigenvalue cov i, eigenvector cov i), ps := ps }

def Plane.eigAt (p : Plane) (i : Nat) : Rat × V3 := p.eig.getD i (0, (0, 0, 0))
def Plane.normal (p : Plane) : V3 := (p.eigAt 0).2

/-- The smallest eigenvalue against the middle one (R233). -/
def Plane.planar (p : Plane) (planarity : Rat) : Bool := decide ((p.eigAt 0).1 ≤ planarity * (p.eigAt 1).1)

/-- Change of n · (q − μ) with parameter k of the sensor that the plane comes from: the mean moves with its points, and the normal turns with their
covariance (R234). DEDUCED, log entry 162. -/
def Plane.deriv (p : Plane) (q : V3) (k : Nat) : Rat :=
  let c : Rat := 1 / (p.ps.length : Rat)
  let dOf (x : V3 × List V3) : V3 := x.2.getD k (0, 0, 0)
  let dmu : V3 := V3.smul c (p.ps.foldl (fun (a : V3) x => V3.add a (dOf x)) (0, 0, 0))
  let n := p.normal
  -- dC n, where dC is the change of the covariance
  let dcn : V3 := V3.smul c (p.ps.foldl (fun (a : V3) x =>
      let d := V3.sub x.1 p.mu
      let dd := V3.sub (dOf x) dmu
      V3.add a (V3.add (V3.smul (V3.dot d n) dd) (V3.smul (V3.dot dd n) d))) (0, 0, 0))
  let turn (i : Nat) : V3 :=
    let x := p.eigAt i
    let gap := (p.eigAt 0).1 - x.1
    if gap = 0 then (0, 0, 0) else V3.smul (V3.dot x.2 dcn / gap) x.2
  V3.dot (V3.add (turn 1) (turn 2)) (V3.sub q p.mu) - V3.dot n dmu

/-- Every overlap residual of a frame (R233, R234). -/
def Pau.overlapResiduals (p : Pau) (n : BitVec 64) (pts : List Point) : List Residual :=
  let part (s : Fin 8) : Bool := (p.rs[s]).isSome && (s.val == p.cfg.anchor.val || p.cfg.alignSet.any fun k => k.val == s.val)
  let key (s : Fin 8) : Nat := match p.rs[s] with | some c => c.geo.hg.val | none => 64
  let set := p.setFor n
  let ext (s : Fin 8) : Extrinsic := match p.rs[s] with | some c => c.geo.inForce (set.dev[s.val]!) | none => {}
  (List.finRange 8).flatMap fun (a : Fin 8) => (List.finRange 8).flatMap fun (b : Fin 8) =>
    if part a && part b && Nat.blt (key a) (key b) then
      let pa := pts.filter fun q => q.core.sensor == a
      let pb := pts.filter fun q => q.core.sensor == b
      pb.filterMap fun q =>
        let cell := planeCell p.cfg.planeVoxel q.core
        let ps := (pa.filter fun x => planeCell p.cfg.planeVoxel x.core == cell).map fun x => (x.core.at3, x.core.derivs (ext a))
        if ps.length < p.cfg.planeMin then none else
        let pl := Plane.fit ps
        if !(pl.planar p.cfg.planarity) then none else
        let e := pl.normal.dot (q.core.at3.sub pl.mu)
        if p.cfg.outlierM < absRat e then none else
        let jb := (List.zip (List.finRange 7) (q.core.derivs (ext b))).map fun (k, d) => ((⟨b.val, by omega⟩ : Fin 24), k, pl.normal.dot d)
        let ja := (List.finRange 7).map fun k => ((⟨a.val, by omega⟩ : Fin 24), k, pl.deriv q.core.at3 k.val)
        some { e := e, w := 1, sensors := [⟨a.val, by omega⟩, ⟨b.val, by omega⟩], j := ja ++ jb }
    else []

/-- The parameters of the alignment problem: seven for each sensor of ALIGN_SET but the anchor (R234). -/
def PauCfg.params (c : PauCfg) : List (Fin 24 × Fin 7) :=
  ((c.alignSet.filter fun s => s.val != c.anchor.val).take 8).flatMap fun s => (List.finRange 7).map fun k => (s, k)

/-- Entry of a derivative row. -/
def Residual.at_ (r : Residual) (x : Fin 24 × Fin 7) : Rat := match r.j.find? fun e => e.1 == x.1 && e.2.1 == x.2 with | some e => e.2.2 | none => 0

/-- Add residuals into H and g, each term a multiple of 2⁻²⁴ (R234). DESIGN CHOICE, log entry 44. -/
def Pau.accumulate (p : Pau) (rs : List Residual) : Pau :=
  let ps := p.cfg.params
  let q (v : Rat) : Int := rneRat (v * 16777216)
  let row (h : List (List Int)) (g : List Int) (r : Residual) : List (List Int) × List Int :=
    let j := ps.map r.at_
    ((List.zip (List.range ps.length) ps).map fun (i, _) =>
        (List.zip (List.range ps.length) j).map fun (k, jk) => iAt h i k + q (r.w * j.getD i 0 * jk),
     (List.zip (List.range ps.length) j).map fun (i, ji) => g.getD i 0 + q (r.w * ji * r.e))
  let (h, g) := rs.foldl (fun (hg : List (List Int) × List Int) r => row hg.1 hg.2 r) (p.h, p.g)
  { p with h := h, g := g, counts := rs.foldl (fun (c : Vector Nat 24) (r : Residual) => r.sensors.foldl (fun c s => modAt c s (· + 1)) c) p.counts }

/-- A component of a deviation. -/
def Deviation.get (d : Deviation) (k : Fin 7) : Rat :=
  match k with | 0 => d.roll | 1 => d.pitch | 2 => d.yaw | 3 => d.x | 4 => d.y | 5 => d.z | 6 => d.dt
def Deviation.bump (d : Deviation) (k : Fin 7) (v : Rat) : Deviation :=
  match k with
  | 0 => { d with roll := d.roll + v } | 1 => { d with pitch := d.pitch + v } | 2 => { d with yaw := d.yaw + v }
  | 3 => { d with x := d.x + v } | 4 => { d with y := d.y + v } | 5 => { d with z := d.z + v } | 6 => { d with dt := d.dt + v }

/-- Geometry of a sensor by its number (R449). -/
def Pau.geometry (p : Pau) (s : Fin 24) : Option Geometry :=
  if h : s.val < 8 then (p.rs[s.val]'h).map (·.geo) else (p.cfg.cams[s.val - 8]'(by omega)).map (·.geo)

/-- STEP, BOUND and tolerance of a component (R216, R237, R239). -/
def PauCfg.stepOf (c : PauCfg) (k : Fin 7) : Rat := if k.val < 3 then c.stepRot else if k.val < 6 then c.stepTrans else c.stepDt
def PauCfg.tolOf (c : PauCfg) (k : Fin 7) : Rat := if k.val < 3 then c.convRot else if k.val < 6 then c.convTrans else c.convDt
def Geometry.boundOf (g : Geometry) (k : Fin 7) : Rat := if k.val < 3 then g.rotBound else if k.val < 6 then g.transBound else g.dtBound

/-- The problem of a closed window (R235). DESIGN CHOICE, log entry 187. -/
def Pau.formWork (p : Pau) (n : BitVec 64) : AlignWork :=
  let ps := p.cfg.params
  let hr (i j : Nat) : Rat := (iAt p.h i j : Rat) / 16777216
  let set := p.setFor n
  let held (i : Nat) (x : Fin 24 × Fin 7) : Bool :=
    decide (hr i i < p.cfg.minInfo) || p.entries[x.1].st == .misaligned || p.entries[x.1].st == .held
  let ix := List.zip (List.range ps.length) ps
  let heldAt := ix.map fun (i, x) => held i x
  let entry (i j : Nat) : Rat :=
    if heldAt.getD i false || heldAt.getD j false then (if i = j then 1 + p.cfg.damp else 0)
    else hr i j + (if i = j then p.cfg.damp * hr i i else 0)
  let value (x : Fin 24 × Fin 7) : Rat := (set.dev[x.1]).get x.2
  let bound (x : Fin 24 × Fin 7) : Rat := match p.geometry x.1 with | some g => g.boundOf x.2 | none => 0
  let mx (a b : Rat) : Rat := if a < b then b else a
  { frame := n, params := ps
    qp := { n := ps.length
            h := ix.map fun (i, _) => ix.map fun (j, _) => fOfRat (entry i j)
            g := ix.map fun (i, _) => fOfRat (if heldAt.getD i false then 0 else (p.g.getD i 0 : Rat) / 16777216)
            lo := ps.map fun x => fOfRat (mx (-p.cfg.stepOf x.2) (-bound x - value x))
            hi := ps.map fun x => fOfRat (-(mx (-p.cfg.stepOf x.2) (-(bound x - value x)))) }
    bounds := ps.map fun x =>
      let near := decide (bound x - absRat (value x) < p.cfg.stepOf x.2)
      (near && decide (value x ≤ 0), near && decide (0 ≤ value x)) }

/-- The window of a frame closes (R234): the problem is formed, the deviations are estimated, and H and g are cleared. DESIGN CHOICE, log entry 45. -/
def Pau.closeWindow (p : Pau) (n : BitVec 64) : Pau :=
  if p.cfg.alignFrames = 0 ∨ n.toNat % p.cfg.alignFrames ≠ p.cfg.alignFrames - 1 then p else
  let ps := p.cfg.params
  let entries := (List.finRange 24).foldl (fun (v : Vector AlignEntry 24) s =>
    modAt v s fun (e : AlignEntry) =>
      let e := { e with residuals := BitVec.ofNat 16 (min (p.counts[s] / 16) 65535) }
      match ps.findIdx? fun x => x.1 == s with
      | some i => { e with sdRot := Config.alignSd p.h i false, sdTrans := Config.alignSd p.h i true }
      | none => e) p.entries
  { p with work := some (p.formWork n), entries := entries, h := [], g := [], counts := Vector.replicate 24 0 }

/-- PAU_CLOSE_PASS of frame n (R228 to R234): decide every slot, judge occlusion, accumulate residuals and hand over to the PCU; with
the pose queries that it takes. -/
def Pau.closePass (p : Pau) (n : BitVec 64) (rows : Fin 64 → Nat) (lag : Nat) (query : T64 → T64 → Option PoseRec) : Option (Pau × List (T64 × T64)) :=
  let mine := p.points.filter fun q => q.core.frame == n
  let tried := mine.map fun q => p.projectPoint q rows lag true query
  if tried.any fun q => q.1.undecided then none else
  let all := tried.foldl (fun (a : Tried) q => a.add q.2) {}
  let pts := p.occlude (tried.map (·.1))
  let p1 := p.accumulate (p.edgeResiduals n pts ++ p.overlapResiduals n pts)
  let p2 := p1.closeWindow n
  let ordered := sortKey (fun q => q.core.hg.val) pts
  let keep (i : Image) : Bool :=
    match i.frame with
    | none => !i.ended
    | some f => decide (n.toNat ≤ f.toNat) ||
        (match p.imageFor i.cam n true with | some (some x) => x.frame == some f | _ => false)
  some ({ p2 with
    points := p.points.filter fun q => decide (n.toNat < q.core.frame.toNat)
    images := p.images.filter keep
    expFallback := bumpBy p2.expFallback all.falls
    handed := if n.toNat % 2 = 0 then p2.handed.set 0 (some ⟨n, ordered⟩) else p2.handed.set 1 (some ⟨n, ordered⟩) }, all.queries)

/-! ### Alignment steps (R236, R237) -/

/-- A sensor is pushed: the multiplier of one of its bound constraints exceeds PUSH_MIN (R236). -/
def AlignWork.pushed (w : AlignWork) (r : SolveResult) (pushMin : Word) (s : Fin 24) : Bool :=
  (List.zip (List.range w.params.length) w.params).any fun (i, x) =>
    let (lo, hi) := w.bounds.getD i (false, false)
    x.1 == s && ((lo && f32Lt pushMin (vAt r.z (2 * i))) || (hi && f32Lt pushMin (vAt r.z (2 * i + 1))))

/-- One sensor at an applied step (R237): its next state, whether it is masked now, and its events. DEDUCED, log entry 110. -/
def AlignEntry.applied (e : AlignEntry) (c : PauCfg) (ds : List (Fin 7 × Rat)) (pushed : Bool) (s : Nat) (now : T64) : AlignEntry × Bool × List Ev :=
  let calm := ds.all fun (k, d) => decide (absRat d ≤ c.tolOf k)
  let moved := ds.any fun (k, d) => decide (2 * c.tolOf k < absRat d)
  let run := if pushed then e.pushed + 1 else 0
  match e.st with
  | .nominal => ({ e with st := .converging, steps := e.steps + 1, calm := 0, pushed := run }, false, [])
  | .converging | .converged =>
    if c.misCount ≤ run then
      ({ e with st := .misaligned, steps := e.steps + 1, calm := 0, pushed := 0, masks := min 7 (e.masks + 1), maskedAt := some now }, true,
       [evtOpen .sensorMisaligned alignIsland s])
    else
      let k := if calm then e.calm + 1 else 0
      if e.st = .converging ∧ 2 ≤ k then
        ({ e with st := .converged, steps := e.steps + 1, calm := k, pushed := run }, false, [evtOpen .alignConverged alignIsland s])
      else if e.st = .converged ∧ moved = true then
        ({ e with st := .converging, steps := e.steps + 1, calm := 0, pushed := run }, false, [evtOpen .alignMoved alignIsland s])
      else ({ e with steps := e.steps + 1, calm := k, pushed := run }, false, [])
  | _ => (e, false, [])

/-- Discard an alignment step (R236). DEDUCED, log entry 110. -/
def Pau.discardStep (p : Pau) : Pau × List Ev :=
  match p.work with
  | none => (p, [])
  | some _ => ({ p with work := none, alignFails := bump p.alignFails }, [evtOpen .alignStepFail alignIsland 0])

/-- Apply the outcome of a solve (R236, R237): the sensors masked now come with it. DEDUCED, log entry 110. -/
def Pau.applyStep (p : Pau) (now : T64) : Pau × List (Fin 24) × List Ev :=
  match p.work with
  | none => (p, [], [])
  | some w =>
    match w.solved with
    | none => (p, [], [])
    | some r =>
      if !(r.eligible) then (let x := p.discardStep; (x.1, [], x.2)) else
      let cur := p.setFor (w.frame + 2)
      let ix := List.zip (List.range w.params.length) w.params
      let delta (i : Nat) : Rat := (f32Val (vAt r.x i)).rat
      let dev := ix.foldl (fun (v : Vector Deviation 24) (i, x) => modAt v x.1 fun (d : Deviation) => d.bump x.2 (delta i)) cur.dev
      let dev := (List.finRange 24).foldl (fun (v : Vector Deviation 24) s => if p.entries[s].resetDue then v.set s {} else v) dev
      let (entries, masked, es) := (List.finRange 24).foldl (fun (a : Vector AlignEntry 24 × List (Fin 24) × List Ev) s =>
        if p.cfg.params.any fun x => x.1 == s then
          let ds := ix.filterMap fun (i, x) => if x.1 = s then some (x.2, delta i) else none
          let (e, m, es) := (a.1[s]).applied p.cfg ds (w.pushed r p.cfg.pushMin s) s.val now
          (a.1.set s { e with resetDue := false }, if m then a.2.1 ++ [s] else a.2.1, a.2.2 ++ es)
        else a) (p.entries, [], [])
      ({ p with work := none, entries := entries, sets := (((w.frame + 2), ⟨cur.seq + 1, dev⟩) :: p.sets).take 8, alignSteps := bump p.alignSteps },
       masked, evtOpen .alignStep alignIsland 0 :: es)

/-- MIS_HOLD elapsed (R237): the mask is released and the sensor starts from nominal, or it is held. -/
def Pau.holdExpiry (p : Pau) (s : Fin 24) (now : T64) : Pau × Bool × List Ev :=
  let e := p.entries[s]
  match e.st, e.maskedAt with
  | .misaligned, some t =>
    if elapsed now t (p.cfg.misHold * ticksPerSec) then
      if e.masks < p.cfg.misLimit then
        ({ p with entries := p.entries.set s { e with st := .nominal, maskedAt := none, resetDue := true, calm := 0, pushed := 0 } }, true, [])
      else ({ p with entries := p.entries.set s { e with st := .held, maskedAt := none } }, false, [evtOpen .alignHeld alignIsland s.val])
    else (p, false, [])
  | _, _ => (p, false, [])

/-- STATE code of R238. -/
def AlignSt.code : AlignSt → Nat
  | .nominal => 0 | .converging => 1 | .converged => 2 | .misaligned => 3 | .held => 4 | .fixed => 5

/-- The alignment record of a sensor for a set (R238). -/
def Pau.alignRecord (p : Pau) (s : Fin 24) (set : ExtSet) : Bytes :=
  let e := p.entries[s]
  let d := set.dev[s]
  let ang (v : Rat) : Nat := codeInt 16 (satInt 16 (rneRat (v / 1000 * 4194304 / twoPi)))
  let len (v : Rat) : Nat := codeInt 16 (satInt 16 (rneRat (v / 1000 * 262144)))
  packBytes 32 [(4, 1), (6, match p.geometry s with | some g => g.hg.val | none => 0), (3, e.st.code), (3, e.masks), (16, e.steps.toNat),
    (16, ang d.roll), (16, ang d.pitch), (16, ang d.yaw), (16, len d.x), (16, len d.y), (16, len d.z), (16, codeInt 16 (satInt 16 (rneRat (d.dt * 4)))),
    (16, e.sdRot.toNat), (16, e.sdTrans.toNat), (16, e.residuals.toNat), (32, set.seq.toNat)]

end Sys2Proof.Machine
end

