-- ==== Sys2Proof/Machine/PcuOps.lean ====
section
/-! DEFINITION. The frame task of the Point Cloud Unit (spec 10_point_cloud_unit R247 to R270). -/

namespace Sys2Proof.Machine

open Sys2Proof

/-- cos and sin of 0 to 90 degrees, rounded to 2⁻³⁰ (R249). -/
def sinDeg90 (s : Nat) : Int :=
  if s = 0 then 0 else if s = 90 then 2 ^ 30 else
  let x := piScaled * (s : Int) / 180
  rneDiv (sinSeries 18 (x * x / 2 ^ 120) x x) (2 ^ 90)

/-- Direction d_s (R249). -/
def sectorDir (s : Nat) : Int × Int :=
  let r := s % 90
  match s / 90 % 4 with
  | 0 => (sinDeg90 (90 - r), sinDeg90 r)
  | 1 => (-sinDeg90 r, sinDeg90 (90 - r))
  | 2 => (-sinDeg90 (90 - r), -sinDeg90 r)
  | _ => (sinDeg90 r, -sinDeg90 (90 - r))

/-- The 360 directions. -/
def sectorDirs : List (Int × Int) := (List.range 360).map sectorDir

/-- The assembly sector of a point (R249). -/
def assemblySector (dirs : List (Int × Int)) (x y : Int) : Nat :=
  if x = 0 ∧ y = 0 then 0 else
  let crs (d : Int × Int) : Int := d.1 * y - d.2 * x
  match (List.range 360).find? fun s => decide (0 ≤ crs (dirs.getD s (0, 0))) && decide (crs (dirs.getD ((s + 1) % 360) (0, 0)) < 0) with
  | some s => s
  | none => 0

/-- The planar distance ρ² in 2⁻³² m² (R249). DEDUCED, log entry 29. -/
def rho2 (x y : Int) : Nat := (x * x + y * y).toNat

/-- A point of the frame set with its sector and planar distance; `ord` is its place in the assembly order. -/
structure SetPoint where
  pt : Point
  ord : Nat
  sector : Nat
  rho : Nat

/-- A point is cropped (R248). -/
def PcuCfg.crops (c : PcuCfg) (q : Core) : Bool :=
  decide (c.cropXy ≤ q.x.toInt.natAbs) || decide (c.cropXy ≤ q.y.toInt.natAbs) || decide (q.z.toInt < c.zMin) || decide (c.zMax ≤ q.z.toInt)

/-- The crowded sector of R250: most points, lowest index on a tie. -/
def crowded (ss : List (List SetPoint)) : Nat :=
  (List.zip (List.range ss.length) ss).foldl (fun b (i, l) => if (ss.getD b []).length < l.length then i else b) 0

/-- Remove `k` points by the procedure of R250; each sector is in rising ρ², then assembly order. -/
def evict : Nat → List (List SetPoint) → List (List SetPoint)
  | 0, ss => ss
  | k + 1, ss => let s := crowded ss; evict k (ss.set s (ss.getD s []).dropLast)

/-- Points in frame order (R247 to R252) with the counts handed over, cropped and capped. -/
def PcuCfg.frameSet (c : PcuCfg) (pts : List Point) : List SetPoint × Nat × Nat :=
  let dirs := sectorDirs
  let all := (List.zip (List.range pts.length) pts).filterMap fun (i, p) =>
    if c.crops p.core then none
    else
      let x := p.core.x.toInt
      let y := p.core.y.toInt
      some ({ pt := p, ord := i, sector := assemblySector dirs x y, rho := rho2 x y } : SetPoint)
  let sectors := (List.range 360).map fun s => sortKey (fun p : SetPoint => p.rho) (all.filter fun p => p.sector == s)
  let excess := all.length - c.pointCap
  let kept := (evict excess sectors).flatten
  (kept, pts.length - all.length, excess)

/-- A place for a frame's parity (R267). -/
def ParityPlace.at_ (p : ParityPlace) (n : BitVec 64) : Place := if n.toNat % 2 = 0 then p.even else p.odd

/-- The 16 features of a point in F32 (R252). -/
def SetPoint.features (p : SetPoint) (b : T64) (period : Nat) : List Word :=
  let c := p.pt.core
  let q (w : Word) : Word := fOfQ w.toInt
  let vis (j : Nat) : Option Projection := match p.pt.slots[j]? with | some (_, .visible x) => some x | _ => none
  let sample (j : Nat) (f : Projection → BitVec 16) : Word := match vis j with
    | some x => fOfRat (((f x).toNat : Rat) / ((2 ^ x.bits : Nat) : Rat)) | none => 0
  [q c.x, q c.y, q c.z, q c.range, fOfRat ((c.intensity.toNat : Rat) / 65536),
   fOfRat ((tDiff c.tov b : Rat) / (period : Rat)), fOfRat ((c.conf.toNat : Rat) / 256),
   sample 0 (·.p0), sample 0 (·.p1), sample 1 (·.p0), sample 1 (·.p1), sample 2 (·.p0), sample 2 (·.p1)]
  ++ (List.range 3).map fun j => if (vis j).isSome then (0x3F800000 : Word) else 0

/-- A feature in FEAT_FMT (R252). -/
def PcuCfg.featBytes (c : PcuCfg) (w : Word) : Bytes :=
  if c.featF32 then leBytes 4 w.toNat else leBytes 2 (fmtH16.encode {} (f32Val w)).go.1

/-- What the coverage record takes of a range sensor: its headgate, kind, latest record and stream state (R253). -/
structure CoverSrc where
  hg : Fin 64
  depth : Bool
  last : Option Rec
  st : HgSt

/-- One entry of the coverage record (R253). -/
def coverBytes (s : Option CoverSrc) (next : T64) : Bytes :=
  match s with
  | none => List.replicate 64 0
  | some c =>
    let (cov, par, no) : Nat × Bool × Nat := match (c.last.map fun (r : Rec) => r.body) with
      | some (.sweepEnd m p n) => (m.toNat, p, n.toNat)
      | some (.frameEnd _ complete n) => (if complete then 2 ^ 360 - 1 else 0, !complete, n.toNat % 256)
      | _ => (0, false, 0)
    let age := match c.last with | some r => min ((tDiff next r.tov).toNat / ticksPerUs) (2 ^ 32 - 1) | none => 0
    packBytes 64 [(360, cov), (1, par.toNat), (1, c.last.isSome.toNat), (1, c.depth.toNat), (5, 0), (8, no), (6, c.hg.val), (2, 0), (32, age), (4, c.st.code)]

/-- A level of sites (R255, R259): origin, cell sizes, dimensions and sites in ascending key. -/
structure Level where
  x0 : Int := 0
  y0 : Int := 0
  z0 : Int := 0
  sx : Nat := 1
  sy : Nat := 1
  sz : Nat := 1
  nx : Nat := 0
  ny : Nat := 0
  nz : Nat := 0
  sites : List (Nat × Nat × Nat) := []

/-- Key of a site (R255). -/
def Level.key (l : Level) (s : Nat × Nat × Nat) : Nat := (s.2.2 * l.ny + s.2.1) * l.nx + s.1

/-- Centre of a cell along an axis in Q15.16, ties to even (R257). DEDUCED, log entry 29. -/
def cellCentre (o : Int) (s i : Nat) : Int := o + rneDiv (((2 * i + 1) * s : Nat) : Int) 2

/-- Centre of a site. -/
def Level.centre (l : Level) (s : Nat × Nat × Nat) : Int × Int × Int := (cellCentre l.x0 l.sx s.1, cellCentre l.y0 l.sy s.2.1, cellCentre l.z0 l.sz s.2.2)

/-- Keep at most `cap` sites with the smallest planar distance of their centres, ties to the smaller key, in ascending key (R255, R260). -/
def Level.capped (l : Level) (cap : Nat) (sites : List (Nat × Nat × Nat)) : List (Nat × Nat × Nat) :=
  let byKey := sortKey l.key sites
  if byKey.length ≤ cap then byKey
  else
    let near := (sortKey (fun s => let c := l.centre s; rho2 c.1 c.2.1) byKey).take cap
    sortKey l.key near

/-- The voxel of a point (R254). -/
def VoxCfg.cell (g : VoxCfg) (c : Core) : Option (Nat × Nat × Nat) :=
  let ix := (c.x.toInt - g.x0).fdiv g.sx
  let iy := (c.y.toInt - g.y0).fdiv g.sy
  let iz := (c.z.toInt - g.z0).fdiv g.sz
  if 0 ≤ ix ∧ ix < g.nx ∧ 0 ≤ iy ∧ iy < g.ny ∧ 0 ≤ iz ∧ iz < g.nz then some (ix.toNat, iy.toNat, iz.toNat) else none

/-- The result of one grid: its level, the kept frame indices per site, and the counts outside, over MAX_PTS and of dropped sites (R254 to R256). -/
structure Voxels where
  level : Level := {}
  kept : List (List Nat) := []
  out : Nat := 0
  ptDrop : Nat := 0
  siteDrop : Nat := 0

/-- Voxelise the frame set into one grid (R254 to R256). -/
def VoxCfg.run (g : VoxCfg) (ps : List SetPoint) : Voxels :=
  if g.enable then
    let cells := (List.zip (List.range ps.length) ps).map fun (i, p) => (i, p.rho, g.cell p.pt.core)
    let inside := cells.filterMap fun (i, r, c) => c.map fun x => (i, r, x)
    let l : Level := { x0 := g.x0, y0 := g.y0, z0 := g.z0, sx := g.sx, sy := g.sy, sz := g.sz, nx := g.nx, ny := g.ny, nz := g.nz }
    let sites := l.capped g.maxVoxels (inside.map fun x => x.2.2).eraseDups
    let members := sites.map fun s => sortKey (fun x : Nat × Nat × (Nat × Nat × Nat) => x.2.1) (inside.filter fun x => x.2.2 == s)
    let total := members.foldl (fun a m => a + m.length) 0
    let kept := members.map fun m => (m.take g.maxPts).map (·.1)
    { level := { l with sites := sites }, kept := kept, out := cells.length - inside.length
      ptDrop := total - kept.foldl (fun a m => a + m.length) 0, siteDrop := inside.length - total }
  else {}

/-- Write one grid's tensors (R256). -/
def PcuCfg.writeVox (c : PcuCfg) (g : Fin 2) (v : Voxels) (n : BitVec 64) (m : Memory) : Memory :=
  let s32 (i : Nat) : Bytes := leBytes 4 i
  let maxPts := (c.vox[g]).maxPts
  let m := m.writeAt ((c.voxCoord[g]).at_ n) 0 (v.level.sites.flatMap fun (x, y, z) => s32 x ++ s32 y ++ s32 z ++ s32 0)
  let m := m.writeAt ((c.voxCount[g]).at_ n) 0 (v.kept.flatMap fun k => leBytes 2 k.length)
  m.writeAt ((c.voxGather[g]).at_ n) 0 (v.kept.flatMap fun k => k.flatMap s32 ++ (List.replicate (maxPts - k.length) (s32 0xFFFFFFFF)).flatten)

/-- A source point of a sampling pass (R257). -/
abbrev FpsPoint := Int × Int × Int

/-- Squared distance under the metric (R258). -/
def fpsDist (xy : Bool) (a b : FpsPoint) : Nat :=
  let dx := a.1 - b.1
  let dy := a.2.1 - b.2.1
  let dz := if xy then 0 else a.2.2 - b.2.2
  (dx * dx + dy * dy + dz * dz).toNat

/-- The remaining samples of a pass (R258): `d` holds each point's distance to the samples so far. -/
def fpsSteps (xy : Bool) (ps : List FpsPoint) : Nat → List Nat → List Nat
  | 0, _ => []
  | k + 1, d =>
    let best := (List.zip (List.range d.length) d).foldl (fun b (i, v) => if d.getD b 0 < v then i else b) 0
    let p := ps.getD best (0, 0, 0)
    best :: fpsSteps xy ps k (List.zipWith (fun v q => min v (fpsDist xy q p)) d ps)

/-- The samples of a pass, as source indices (R258). -/
def FpsCfg.run (f : FpsCfg) (ps : List FpsPoint) : List Nat :=
  if ps.isEmpty then [] else
  let r (i : Nat) : Nat := let p := ps.getD i (0, 0, 0); rho2 p.1 p.2.1
  let first := if f.first then 0 else (List.range ps.length).foldl (fun b i => if r i < r b then i else b) 0
  let p := ps.getD first (0, 0, 0)
  first :: fpsSteps f.xy ps (min f.k ps.length - 1) (ps.map fun q => fpsDist f.xy q p)

/-- Write one pass's tensors (R258). -/
def PcuCfg.writeFps (c : PcuCfg) (p : Fin 4) (ps : List FpsPoint) (samples : List Nat) (n : BitVec 64) (m : Memory) : Memory :=
  let k := (c.fps[p]).k
  let short := k - samples.length
  let f (v : Int) : Bytes := leBytes 4 (fOfQ v).toNat
  let m := m.writeAt ((c.fpsIdx[p]).at_ n) 0 (samples.flatMap (leBytes 4) ++ (List.replicate short (leBytes 4 0xFFFFFFFF)).flatten)
  m.writeAt ((c.fpsXyz[p]).at_ n) 0
    ((samples.flatMap fun i => let q := ps.getD i (0, 0, 0); f q.1 ++ f q.2.1 ++ f q.2.2 ++ leBytes 4 0) ++ List.replicate (16 * short) 0)

/-- A built rulebook: its output level, its pairs by offset index, and the pairs into dropped sites (R260). -/
structure Built where
  level : Level := {}
  groups : List (List (Nat × Nat)) := []
  drop : Nat := 0

/-- The displacements of a kernel in offset-index order (R260). -/
def RbCfg.offsets (r : RbCfg) : List (Int × Int × Int) :=
  (List.range r.kz).flatMap fun (z : Nat) => (List.range r.ky).flatMap fun (y : Nat) => (List.range r.kx).map fun (x : Nat) =>
    ((x : Int) - (((r.kx - 1) / 2 : Nat) : Int), (y : Int) - (((r.ky - 1) / 2 : Nat) : Int), (z : Int) - (((r.kz - 1) / 2 : Nat) : Int))

/-- The output level's grid (R259). -/
def RbCfg.outLevel (r : RbCfg) (l : Level) : Level :=
  if r.regular then
    { l with nx := (l.nx + r.sx - 1) / r.sx, ny := (l.ny + r.sy - 1) / r.sy, nz := (l.nz + r.sz - 1) / r.sz
             sx := l.sx * r.sx, sy := l.sy * r.sy, sz := l.sz * r.sz, sites := [] }
  else l

/-- The output coordinate that an input site gives under an offset (R260). -/
def RbCfg.target (r : RbCfg) (o : Level) (s : Nat × Nat × Nat) (d : Int × Int × Int) : Option (Nat × Nat × Nat) :=
  let one (i : Nat) (di : Int) (st n : Nat) : Option Nat :=
    let v := (i : Int) - di
    if 0 ≤ v ∧ v % (st : Int) = 0 ∧ v / (st : Int) < (n : Int) then some (v / (st : Int)).toNat else none
  let st (k : Nat) : Nat := if r.regular then k else 1
  match one s.1 d.1 (st r.sx) o.nx, one s.2.1 d.2.1 (st r.sy) o.ny, one s.2.2 d.2.2 (st r.sz) o.nz with
  | some x, some y, some z => some (x, y, z)
  | _, _, _ => none

/-- Build one rulebook (R260). DEDUCED, log entry 29. -/
def RbCfg.run (r : RbCfg) (l : Level) : Built :=
  let o := r.outLevel l
  let all : List (Nat × Nat × Nat) := if r.regular then (l.sites.flatMap fun s => r.offsets.filterMap (r.target o s)).eraseDups else l.sites
  let sites := if r.regular then o.capped r.maxOut all else all
  let groups := r.offsets.map fun d =>
    sortKey (fun (x : Nat × Nat) => x.2) ((List.zip (List.range l.sites.length) l.sites).filterMap fun (i, s) =>
      match r.target o s d with | some t => (sites.findIdx? (· == t)).map fun k => (i, k) | none => none)
  let pairs := l.sites.foldl (fun a s => a + (r.offsets.filterMap (r.target o s)).length) 0
  { level := { o with sites := sites }, groups := groups, drop := if r.regular then pairs - groups.foldl (fun a g => a + g.length) 0 else 0 }

/-- The bytes of a rulebook (R261). -/
def RbCfg.bytes (r : RbCfg) (inSites : Nat) (b : Built) : Bytes :=
  let total := b.groups.foldl (fun a g => a + g.length) 0
  let starts := (List.range b.groups.length).map fun k => (b.groups.take k).foldl (fun a g => a + g.length) 0
  packBytes 16 [(4, 1), (1, r.regular.toNat), (7, r.kx * r.ky * r.kz), (20, 0), (32, inSites), (32, b.level.sites.length), (32, total)]
  ++ ((List.zip starts b.groups).flatMap fun (s, g) => leBytes 4 s ++ leBytes 4 g.length)
  ++ b.groups.flatten.flatMap fun (i, o) => leBytes 4 i ++ leBytes 4 o

/-- Write one rulebook and, where REGULAR, its output coordinates (R261). -/
def PcuCfg.writeRb (c : PcuCfg) (i : Fin 8) (inSites : Nat) (b : Built) (n : BitVec 64) (m : Memory) : Memory :=
  let r := c.rb[i]
  let m := m.writeAt ((c.rbAt[i]).at_ n) 0 (r.bytes inSites b)
  if r.regular then
    m.writeAt ((c.outCoord[i]).at_ n) 0 (b.level.sites.flatMap fun (x, y, z) => leBytes 4 x ++ leBytes 4 y ++ leBytes 4 z ++ leBytes 4 0)
  else m

/-- An entry of BEV_IDX (R264). -/
def BevCfg.index (b : BevCfg) (l : Level) (s : Nat × Nat × Nat) : Option Nat :=
  let cell : Int := b.cell
  let r := (s.1 : Int) + (l.x0 - b.x0) / cell
  let c := (s.2.1 : Int) + (l.y0 - b.y0) / cell
  if 0 ≤ r ∧ r < b.h ∧ 0 ≤ c ∧ c < b.w then some ((r.toNat * b.w + c.toNat) * (b.cFeat * l.nz) + s.2.2 * b.cFeat) else none

/-- The completion record's bytes (R270). -/
def PcuDone.bytes (d : PcuDone) : Bytes :=
  packBytes 64 [(4, 1), (1, d.done.toNat), (1, d.aborted.toNat), (1, if d.capDrop = 0 then 0 else 1), (1, d.anyPartial.toNat), (1, d.frame.toNat % 2),
    (4, d.step), (19, 0), (64, d.frame.toNat), (32, d.nIn), (32, d.cropDrop), (32, d.capDrop), (32, d.n), (19, d.v0), (19, d.v1), (26, 0),
    (32, d.voxOut), (32, d.voxPtDrop), (32, d.voxSiteDrop), (32, d.rbSiteDrop), (32, d.bevOut), (4, d.fpsShort.toNat)]

/-- The section that governs a frame (R268). -/
def Pcu.sectionFor (p : Pcu) (n : BitVec 64) : Option PcuSection := p.sections.find? fun s => decide (s.first.toNat ≤ n.toNat)

/-- CLOSE_DELAY of a frame in ticks (R245). -/
def Pcu.closeTicks (p : Pcu) (n : BitVec 64) : Nat := (match p.sectionFor n with | some s => s.cfg.closeDelay | none => 2000) * ticksPerUs

/-- What the task of frame n takes from outside the PCU. -/
structure PcuEnv where
  n : BitVec 64
  b : T64
  next : T64
  period : Nat
  points : List Point
  cover : List (Option CoverSrc)
  /-- The last step that completes, 8 for the whole task. -/
  last : Nat

/-- Does step 1 of frame n read a poisoned word: one of the BEV_IDX last written for its buffer (R266, R472). Every other tensor that a step reads
was written by an earlier step of the same task. -/
def Pcu.readsPoison (p : Pcu) (n : BitVec 64) (m : Memory) : Bool :=
  match p.sectionFor n with
  | none => false
  | some sec =>
    let at_ := sec.cfg.bevIdx.at_ n
    sec.cfg.bev.enable && m.poisoned at_.space at_.addr (4 * (sec.clear.toList.getD (n.toNat % 2) []).length)

/-- The levels of the rulebooks, in order (R259). -/
def PcuCfg.rulebooks (c : PcuCfg) (v : Fin 2 → Level) : List (Fin 8 × Level × Built) :=
  (List.finRange 8).foldl (fun (acc : List (Fin 8 × Level × Built)) i =>
    let r := c.rb[i]
    if r.enable then
      let l : Level := match r.src with
        | .grid g => v g
        | .out j => match acc.find? fun x => x.1 == j with | some x => x.2.2.level | none => {}
      acc ++ [(i, l, r.run l)]
    else acc) []

/-- The sampling passes, in order: source points and samples (R257, R258). -/
def PcuCfg.passes (c : PcuCfg) (frame : List FpsPoint) (v : Fin 2 → Level) : List (Fin 4 × List FpsPoint × List Nat) :=
  (List.finRange 4).foldl (fun (acc : List (Fin 4 × List FpsPoint × List Nat)) p =>
    let f := c.fps[p]
    if f.enable then
      let src : List FpsPoint := match f.src with
        | .frame => frame
        | .voxel g => (v g).sites.map (v g).centre
        | .pass q => match acc.find? fun x => x.1 == q with | some x => x.2.2.map fun i => x.2.1.getD i (0, 0, 0) | none => []
      acc ++ [(p, src, f.run src)]
    else acc) []

/-- PCU_TASK (R243): the steps of frame n, up to the step at whose completion an abort takes effect (R269), and the completion record. -/
def Pcu.task (p : Pcu) (e : PcuEnv) (m : Memory) : Pcu × Memory × List Ev :=
  match p.sectionFor e.n with
  | none => (p, m, [])
  | some sec =>
    let c := sec.cfg
    let par := e.n.toNat % 2
    let ran (k : Nat) : Bool := decide (k ≤ e.last)
    -- step 1
    let buf := c.bevBuf.at_ e.n
    let m1 := if ran 1 && c.bev.enable then
        ((sec.clear.toList.getD par []).filter (· != 0xFFFFFFFF)).foldl (fun m i => m.zero buf.space (buf.addr + i * c.bev.fmt.bytes) (c.bev.cFeat * c.bev.fmt.bytes)) m else m
    -- steps 2 and 3
    let (set, crop, cap) : List SetPoint × Nat × Nat := if ran 2 then c.frameSet e.points else ([], 0, 0)
    let cover := (List.range 8).flatMap fun s => coverBytes (e.cover.getD s none) e.next
    let m3 := if ran 3 then
        let m := m1.writeAt (c.ptRec.at_ e.n) 0 (set.flatMap fun q => q.pt.bytes)
        let m := m.writeAt (c.ptFeat.at_ e.n) 0 (set.flatMap fun q => (q.features e.b e.period).flatMap c.featBytes)
        m.writeAt (c.cover.at_ e.n) 0 cover
      else m1
    -- step 4
    let vox (g : Fin 2) : Voxels := if ran 4 then (c.vox[g]).run set else {}
    let v0 := vox 0
    let v1 := vox 1
    let m4 := if ran 4 then
        let m := if (c.vox[0]).enable then c.writeVox 0 v0 e.n m3 else m3
        if (c.vox[1]).enable then c.writeVox 1 v1 e.n m else m
      else m3
    let lv (g : Fin 2) : Level := if g = 0 then v0.level else v1.level
    -- step 5
    let frame : List FpsPoint := set.map fun q => (q.pt.core.x.toInt, q.pt.core.y.toInt, q.pt.core.z.toInt)
    let ps := if ran 5 then c.passes frame lv else []
    let m5 := ps.foldl (fun m (i, src, sm) => c.writeFps i src sm e.n m) m4
    let short : BitVec 4 := ps.foldl (fun b (i, _, sm) => if sm.length < (c.fps[i]).k then b ||| BitVec.ofNat 4 (2 ^ i.val) else b) 0
    -- step 6
    let rbs := if ran 6 then c.rulebooks lv else []
    let m6 := rbs.foldl (fun m (i, l, b) => c.writeRb i l.sites.length b e.n m) m5
    let rbDrop := rbs.foldl (fun a (_, _, b) => a + b.drop) 0
    -- step 7
    let src : Level := match c.bev.src with
      | .grid g => lv g
      | .out j => match rbs.find? fun x => x.1 == j with | some x => x.2.2.level | none => {}
    let idx := src.sites.map (c.bev.index src)
    let bev := ran 7 && c.bev.enable
    let m7 := if bev then m6.writeAt (c.bevIdx.at_ e.n) 0 (idx.flatMap fun i => leBytes 4 (i.getD 0xFFFFFFFF)) else m6
    let bevOut := if bev then (idx.filter (·.isNone)).length else 0
    let sec' : PcuSection := if bev then
        { sec with clear := let l := idx.map fun i => i.getD 0xFFFFFFFF; if par = 0 then sec.clear.set 0 l else sec.clear.set 1 l } else sec
    -- step 8
    let part := e.cover.any fun s => match s with
      | some c => (match (c.last.map fun (r : Rec) => r.body) with | some (.sweepEnd _ p _) => p | some (.frameEnd _ k _) => !k | _ => false)
      | none => false
    let d : PcuDone :=
      { done := ran 8, aborted := !(ran 8), anyPartial := ran 3 && part, step := min e.last 8, frame := e.n
        nIn := if ran 2 then e.points.length else 0, cropDrop := crop, capDrop := cap, n := set.length
        v0 := v0.level.sites.length, v1 := v1.level.sites.length, voxOut := v0.out + v1.out, voxPtDrop := v0.ptDrop + v1.ptDrop
        voxSiteDrop := v0.siteDrop + v1.siteDrop, rbSiteDrop := rbDrop, bevOut := bevOut, fpsShort := short }
    let drops := d.voxPtDrop + d.voxSiteDrop
    ({ p with
       sections := p.sections.map fun s => if s.first = sec.first then sec' else s
       last := some d, nIn := bumpBy p.nIn d.nIn, cropDrop := bumpBy p.cropDrop d.cropDrop, capDrop := bumpBy p.capDrop d.capDrop
       voxOut := bumpBy p.voxOut d.voxOut, voxPtDrop := bumpBy p.voxPtDrop d.voxPtDrop, voxSiteDrop := bumpBy p.voxSiteDrop d.voxSiteDrop
       rbSiteDrop := bumpBy p.rbSiteDrop d.rbSiteDrop, bevOut := bumpBy p.bevOut d.bevOut
       fpsShort := bumpBy p.fpsShort (ps.filter fun (i, _, sm) => decide (sm.length < (c.fps[i]).k)).length
       aborted := bumpIf d.aborted p.aborted },
     m7.writeAt (c.doneRec.at_ e.n) 0 d.bytes,
     (if cap = 0 then [] else [evt .pointCap 50 0 (min cap (2 ^ 32 - 1))])
     ++ (if drops = 0 then [] else [evt .voxelDrop 51 0 (min drops (2 ^ 32 - 1))])
     ++ (if rbDrop = 0 then [] else [evt .rbDrop 54 0 (min rbDrop (2 ^ 32 - 1))]))

end Sys2Proof.Machine
end

