-- ==== Sys2Proof/Machine/HeadgateOps.lean ====
section
/-! DEFINITION. A headgate's check chain, state machine, coverage and data flume (spec 06_headgates, spec 20 R479 to R483). -/

namespace Sys2Proof.Machine

open Sys2Proof

/-- REASON codes of a STATE record (R153). -/
def reasonCheck : BitVec 8 := 1
def reasonTimeout : BitVec 8 := 2
def reasonExternal : BitVec 8 := 3
def reasonScript : BitVec 8 := 4
def reasonInit : BitVec 8 := 5
def reasonMisaligned : BitVec 8 := 6

/-- Island of a headgate (spec 06, its opening). -/
def hgIsland (h : Fin 64) : Nat := 34 + h.val / 8

/-- Put a record behind the records that wait for the flume. -/
def Headgate.emit (g : Headgate) (os : List OutRec) : Headgate := { g with out := g.out ++ os }

/-- A record with the stream's epoch, confidence, probation and item count (R151). -/
def Headgate.record (g : Headgate) (h : Fin 64) (tov : T64) (body : RecBody) : Rec :=
  { hg := h, epoch := g.epoch, conf := g.conf, probation := g.st == .probation, tov := tov, itemNo := g.itemNo, body := body }

/-- End what an item writes, or records that come from no item (R151). -/
def Headgate.endItem (g : Headgate) (last : Bool) : Headgate := g.emit [.itemEnd last]

/-- Enter a state and write its STATE record, whose REASON HG_STATE shows (R153, R165). DESIGN CHOICE, log entry 191. -/
def Headgate.enter (g : Headgate) (h : Fin 64) (now : T64) (new : HgSt) (reason : BitVec 8) : Headgate :=
  let g' := { g with st := new, reason := reason, maskLog := if (new == HgSt.masked) = (g.st == HgSt.masked) then g.maskLog else ((now, new == HgSt.masked) :: g.maskLog).take 16 }
  g'.emit [.data (g'.record h now (.state new g.st reason))]

/-- The confidence ceiling of the state (R168). -/
def Headgate.ceiling (g : Headgate) : Nat :=
  match g.st, g.cfg with
  | .active, _ => 255
  | .probation, some c => c.probConf
  | _, _ => 0

/-- FRAME_NO of a FRAME_END (R153). -/
def Headgate.frameBits (g : Headgate) : BitVec 16 := BitVec.ofInt 16 (g.frameNo.getD 0)

/-- Close the open unit as partial: SWEEP_END with PARTIAL, or FRAME_END with COMPLETE 0 (R165). -/
def Headgate.closeUnit (g : Headgate) (h : Fin 64) : Headgate :=
  match g.cfg with
  | none => g
  | some c =>
    match c.kind with
    | .points =>
      if g.unitOpen then
        { g with unitOpen := false, sweepNo := g.sweepNo + 1 }.emit
          [.runBreak, .sweepEnd (g.record h 0 (.sweepEnd 0 true g.sweepNo)) true]
      else g.emit [.runBreak]
    | .depth | .camera =>
      if g.unitOpen then
        { g with unitOpen := false, awaitFs := c.kind == HgKind.camera, rows := 0 }.emit
          [.frameEnd (g.record h 0 (.frameEnd g.rows false g.frameBits))]
      else g
    | _ => g

/-- Mask a stream, or add a reason to its mask (R165); what closes its unit carries the confidence of a masked stream (R168). -/
def Headgate.mask (g : Headgate) (h : Fin 64) (now : T64) (reason : BitVec 8) : Headgate × List Ev :=
  if g.st = .off then (g, []) else
  let g := if g.st = .masked then g else ({ g with conf := 0 } : Headgate).closeUnit h
  let g := { g with reasons := if g.reasons.contains reason then g.reasons else reason :: g.reasons, reason := reason, conf := 0
                    recoverRun := if reason = reasonCheck then 0 else g.recoverRun }
  (g.enter h now .masked reason, [evtOpen .streamMasked (hgIsland h) h.val])

/-- Clear what a resynchronisation fixes anew: references, filters, run and unit (R159, R160). -/
def Headgate.toResync (g : Headgate) : Headgate :=
  { g with st := .resync, accEpoch := none, seqRef := none, window := [], lastItem := none, unitOpen := false, owedStart := false
           awaitFs := false, probCount := 0, probBad := false, conf := 0 }

/-- Release one reason of a mask; the last one moves the stream to RESYNC (R165). SCRIPT and INIT are never released. -/
def Headgate.release (g : Headgate) (h : Fin 64) (now : T64) (reason : BitVec 8) : Headgate :=
  if g.st = .masked ∧ g.reasons.contains reason = true then
    let left := g.reasons.filter (· != reason)
    if left.isEmpty then { (g.enter h now .resync 0).toResync with reasons := [], reason := 0, failRun := 0, recoverRun := 0 }
    else { g with reasons := left }
  else g

/-- At FAIL_MASK consecutive failures the stream is masked (R167). -/
def Headgate.masksAt (g : Headgate) (c : HgCfg) : Bool := decide (g.failRun.toNat = c.failMask) && !(g.reasons.contains reasonCheck)

/-- A failure counted under R167: the count and the confidence, 0 where it masks the stream (R168). -/
def Headgate.countFail (g : Headgate) (c : HgCfg) : Headgate :=
  let g := { g with failRun := if g.failRun = 255 then 255 else g.failRun + 1, probCount := 0, probBad := true }
  { g with conf := if g.masksAt c then 0 else BitVec.ofNat 8 (g.conf.toNat - c.confStep) }

def Headgate.failMask (g : Headgate) (h : Fin 64) (now : T64) (c : HgCfg) : Headgate × List Ev :=
  if g.masksAt c then g.mask h now reasonCheck else (g, [])

/-- The held record of a failed SCALAR item (R161); AGE is taken when it is written. -/
def Headgate.hold (g : Headgate) (h : Fin 64) : List OutRec :=
  match g.cfg, g.lastItem with
  | some c, some it =>
    if c.kind = .scalar ∧ g.st ≠ .timedOut ∧ g.st ≠ .resync ∧ g.st ≠ .masked ∧ g.st ≠ .waiting then
      [.data { g.record h it.tov (.scalar it.ctr 0 (List.zipWith FieldEntry.toOut c.values it.values)) with held := true }]
    else []
  | _, _ => []

/-- Reject an item: its failure is counted where R157 says so, the wraps that it holds close their sweeps (`close`), its run breaks, and it is
held (R161); CONF is the value after its own outcome (R168). Accepted items are no longer consecutive (R167). DEDUCED, log entry 13. -/
def Headgate.reject (g : Headgate) (h : Fin 64) (now : T64) (c : HgCfg) (counts holds : Bool) (close : Headgate → Headgate := id) :
    Headgate × List Ev :=
  let g := close { (if counts then g.countFail c else g) with recoverRun := 0 }
  let g := g.emit (if holds then g.hold h else [])
  let g := if c.kind = .points ∧ g.st ≠ .masked then g.emit [.runBreak] else g
  let g := if c.kind = .camera ∨ c.kind = .depth then { g with whole := false } else g
  if counts then g.failMask h now c else (g, [])

/-- The counter that an item carries (R160), CTR_BITS wide. -/
def counterOf (c : HgCfg) (t : Option Template) (it : Item) : Option Nat :=
  if c.ctrBits = 0 then none else
  match it with
  | .frame _ p _ =>
    if c.kind = .scalar then (c.fields.find? (·.role == .counter)).map fun f => rawBits p f.type f.big f.offset % 2 ^ c.ctrBits
    else t.bind fun t => (t.find 2).map fun e => t.raw p e 0 0 % 2 ^ c.ctrBits
  | .sample _ p | .can _ p => (c.fields.find? (·.role == .counter)).map fun f => rawBits p f.type f.big f.offset % 2 ^ c.ctrBits
  | .csi _ (.frameStart n) _ => some (n.toNat % 2 ^ c.ctrBits)
  | _ => none

/-- Pin stamp of an item. -/
def Item.stamp : Item → T64
  | .frame t _ _ => t | .csi t _ _ => t | .sample t _ => t | .can t _ => t | .edge c => c.stamp

/-- Port mark of an item (R157 check 1). -/
def Item.crcBad : Item → Bool | .frame _ _ b => b | .csi _ _ b => b | _ => false

/-- Bytes of a SCALAR or framed item. -/
def Item.payload : Item → Bytes | .frame _ p _ => p | .sample _ p => p | .can _ p => p | _ => []

/-- Checks 2 and 3 of an item (R134, R158). -/
def parseOk (c : HgCfg) (t : Option Template) (it : Item) : Bool :=
  match c.kind with
  | .points | .depth => match t with | some t => t.parses c.profile it.payload | none => false
  | .scalar => c.fits it.payload
  | _ => true

def integrityOk (c : HgCfg) (t : Option Template) (it : Item) : Bool :=
  match c.kind with
  | .points | .depth =>
    match t with
    | some t => (match t.profileCheck with
      | some e => profileOk c it.payload e.offset (t.raw it.payload e 0 0)
      | none => true)
    | none => true
  | .scalar =>
    match c.fields.find? (·.role == .check) with
    | some f => profileOk c it.payload f.offset (rawBits it.payload f.type f.big f.offset)
    | none => true
  | _ => true

/-- Base time of a frame or TOV of another item, for R155. -/
def Headgate.timeOf (g : Headgate) (c : HgCfg) (it : Item) (offset : Nat) : T64 :=
  match c.kind, g.templ with
  | .points, some t | .depth, some t => t.base it.payload it.stamp offset
  | _, _ => it.stamp - BitVec.ofInt 64 c.latency

/-- Check 7 (R155). -/
def timeOk (c : HgCfg) (stamp base : T64) : Bool :=
  decide (-(c.stampWindow * ticksPerUs : Nat) ≤ tDiff base stamp) && decide (tDiff base stamp ≤ (c.timeTol * ticksPerUs : Nat))

/-- Is the item a unit start (R165). DESIGN CHOICE, log entry 183. -/
def Headgate.unitStart (g : Headgate) (c : HgCfg) (it : Item) (wraps : List Nat) : Bool :=
  match c.kind with
  | .points => !wraps.isEmpty || g.owedStart
  | .depth => match g.templ with
    | some t => g.frameNo != some (t.int it.payload 4 0 0)
    | none => false
  | .camera => match it with | .csi _ (.frameStart _) _ => true | _ => false
  | _ => true

/-- Values of a SCALAR item fail check 9: outside [MIN, MAX] or NaN. -/
def rangeOk (c : HgCfg) (vs : List Word) : Bool :=
  (List.zip c.values vs).all fun (f, v) => f32Le f.min v && f32Le v f.max

/-- A rate lies within ±SLEW_MAX and is no NaN (R157, R159): the change between two values over a time in seconds. DESIGN CHOICE, log entry 183. -/
def rateOk (limit a b : Word) (dt : Rat) : Bool :=
  if f32IsFin a && f32IsFin b && dt ≠ 0 then
    !(f32IsFin limit) || decide (absRat (((f32Val b).rat - (f32Val a).rat) / dt) ≤ (f32Val limit).rat)
  -- an infinite rate lies within ±∞ only; 0 / 0 and ∞ − ∞ are NaN
  else !(f32IsFin limit) && !(f32Eq a b)

/-- Check 10: the rate against the previous accepted value and its TOV. -/
def slewOk (c : HgCfg) (prev : Option ScalarItem) (vs : List Word) (tov : T64) : Bool :=
  match prev with
  | none => true
  | some p =>
    let dt : Rat := (tDiff tov p.tov : Rat) / (ticksPerSec : Rat)
    (List.zip c.values (List.zip p.values vs)).all fun (f, a, b) => f32Eq f.slewMax 0 || rateOk f.slewMax a b dt

/-- The output record of a SCALAR stream once its windows are full (R159). -/
def Headgate.scalarOut (g : Headgate) (h : Fin 64) (c : HgCfg) : List OutRec :=
  let d := c.delay
  if g.window.length = 2 * d + 1 then
    match g.window[d]? with
    | none => []
    | some mid =>
      let outs := (List.zip (List.range c.values.length) c.values).map fun (i, f) =>
        filterOut f.filter f.spikeLimit d (g.window.map fun w => w.values.getD i 0)
      [.data { g.record h mid.tov (.scalar mid.ctr 0 (List.zipWith FieldEntry.toOut c.values outs)) with
               filtered := outs != mid.values }]
  else []

/-- The records of an accepted item's points from block `b0` to before block `b1`, and how many points were dropped (R132, R157). -/
def Headgate.pointRecs (g : Headgate) (h : Fin 64) (ps : List PointOut) : List OutRec × Nat :=
  (ps.filterMap fun | .point tov body k => some (.data (g.record h tov body) k) | .dropped => none,
   (ps.filter (· == .dropped)).length)

/-- The confidence after an accepted item in a state (R168). -/
def Headgate.rise (g : Headgate) (c : HgCfg) (st : HgSt) : Headgate :=
  { g with conf := BitVec.ofNat 8 (min ({ g with st := st } : Headgate).ceiling (g.conf.toNat + c.confRise)), failRun := 0 }

/-- The move out of WAITING or RESYNC, out of GAP, and the confidence of an accepted item, which the STATE record carries too (R165, R168).
DEDUCED, log entry 13. -/
def Headgate.takeIn (g : Headgate) (h : Fin 64) (now : T64) (c : HgCfg) : Headgate :=
  match g.st with
  | .waiting | .resync =>
    let new : HgSt := if c.probation = 0 then .active else .probation
    let g := if g.st = .resync then { g with epoch := g.epoch + 1 } else g
    let g := { g with conf := BitVec.ofNat 8 c.probConf, probCount := 0, probBad := false, window := [], lastItem := none }
    (g.rise c new).enter h now new 0
  | .gap => { g with st := g.before }.rise c g.before
  | st => g.rise c st

/-- A unit has ended in PROBATION (R165): it counts where it was whole and without a failure; else the count starts again. What makes a unit
whole R165 does not say. DESIGN CHOICE, log entry 181. -/
def Headgate.unitDone (g : Headgate) (h : Fin 64) (now : T64) (c : HgCfg) (whole : Bool) : Headgate × List Ev :=
  if g.st = .probation then
    if g.probBad || !whole then ({ g with probCount := 0 }, [])
    else if c.probation ≤ g.probCount + 1 then ({ g with probCount := 0 }.enter h now .active 0, [evtOpen .probationEnd (hgIsland h) h.val])
    else ({ g with probCount := g.probCount + 1 }, [])
  else (g, [])

/-- A unit opens: `start` says that it opens at a unit start and not in the middle (R165). -/
def Headgate.openUnit (g : Headgate) (start : Bool) : Headgate :=
  { g with unitOpen := true, owedStart := false, whole := start, probBad := g.probBad && !start }.emit [.unitOpen]

/-- Accepted counter: references fixed or stepped, and the loss of a step above 1 (R160). -/
def Headgate.stepCounter (g : Headgate) (c : HgCfg) (ctr : Option Nat) : Headgate × Bool :=
  match ctr with
  | none => (g, false)
  | some v =>
    let w := c.ctrBits - c.epochBits
    let lost := match g.seqRef with | some r => (v % 2 ^ w + 2 ^ w - r) % 2 ^ w - 1 | none => 0
    ({ g with accEpoch := some (v / 2 ^ w), seqRef := some (v % 2 ^ w), lost := bumpBy g.lost lost }, lost != 0)

/-- A wrap closes the sweep before it, partial where none was open, and opens the next one (R150, R164). -/
def Headgate.wrapUnit (g : Headgate) (h : Fin 64) (now : T64) (c : HgCfg) : Headgate × List Ev :=
  let g' := { g with sweepNo := g.sweepNo + 1 }.emit [.sweepEnd (g.record h 0 (.sweepEnd 0 false g.sweepNo)) (!g.unitOpen)]
  let r := g'.unitDone h now c (g.unitOpen && g.whole)
  (r.1.openUnit true, r.2)

/-- The points of the blocks of an accepted POINTS item from `b0` to before `b1` are written (R132, R157). -/
def Headgate.putBlocks (g : Headgate) (h : Fin 64) (c : HgCfg) (t : Template) (p : Bytes) (base : T64) (b0 b1 : Nat) : Headgate :=
  let x := g.pointRecs h (((List.range b1).drop b0).flatMap fun b => t.blockPoints c p base b)
  { g with rangeDrop := bumpBy g.rangeDrop x.2 }.emit x.1

/-- The accepted item of a POINTS stream (R150, R164): each wrap closes the sweep before its block and opens the next one. Of an item that
ends WAITING or RESYNC only the units that it opens are written (R157). -/
def Headgate.acceptPoints (g : Headgate) (h : Fin 64) (now : T64) (c : HgCfg) (t : Template) (p : Bytes) (base : T64) (wraps : List Nat)
    (fresh lost : Bool) : Headgate × List Ev :=
  let g := if fresh || lost then { g.emit [.runBreak] with whole := g.whole && !lost } else g
  let put (g : Headgate) := g.putBlocks h c t p base
  -- from the wrap `w` on, to the next one or the end
  let from_ (x : Headgate × List Ev) (w : Nat) : Headgate × List Ev := (put x.1 w ((wraps.find? fun n => decide (w < n)).getD t.blockCount), x.2)
  let first := wraps.head?.getD t.blockCount
  let rest (x : Headgate × List Ev) (ws : List Nat) : Headgate × List Ev :=
    ws.foldl (fun (x : Headgate × List Ev) w => let y := x.1.wrapUnit h now c; from_ (y.1, x.2 ++ y.2) w) x
  if fresh && !wraps.isEmpty then rest (from_ (g.openUnit true, []) first) wraps.tail
  else
    let g := if g.unitOpen || first == 0 then g else { g.openUnit (fresh || g.owedStart) with whole := (fresh || g.owedStart) && !lost }
    rest (put g 0 first, []) wraps

/-- The accepted item of a DEPTH stream (R133): another FRAME value closes the frame before it and opens the next one. R153 does not say what
ROWS and COMPLETE of a depth frame count. DESIGN CHOICE, log entry 181. DESIGN CHOICE, log entry 183. -/
def Headgate.acceptDepth (g : Headgate) (h : Fin 64) (now : T64) (c : HgCfg) (t : Template) (p : Bytes) (base : T64) (lost : Bool) :
    Headgate × List Ev :=
  let no := t.int p 4 0 0
  let opens := g.frameNo != some no
  let closes := opens && g.unitOpen
  let whole := g.whole && !lost
  let g := if closes then g.emit [.frameEnd (g.record h 0 (.frameEnd g.rows whole g.frameBits))] else g
  let r := if closes then g.unitDone h now c whole else (g, [])
  let g := r.1
  let g :=
    if opens then { (g.openUnit true) with frameNo := some no, frameBase := base, rows := 0, whole := !lost }
    else if g.unitOpen then { g with whole := whole } else g.openUnit false
  let x := g.pointRecs h ((List.range t.blockCount).flatMap fun b => t.runPixels c p g.frameBase b)
  ({ g with rows := g.rows + BitVec.ofNat 16 t.blockCount, rangeDrop := bumpBy g.rangeDrop x.2 }.emit x.1, r.2)

/-- The accepted item of a CAMERA stream. -/
def Headgate.acceptCamera (g : Headgate) (h : Fin 64) (now : T64) (c : HgCfg) (base : T64) (it : CsiItem) : Headgate × List Ev :=
  match it with
  | .frameStart no => ({ (g.openUnit true) with frameNo := some no.toNat, rows := 0, awaitFs := false }, [])
  | .row r dt vc emb bs =>
    ({ g with rows := if emb then g.rows else g.rows + 1 }.emit [.data (g.record h base (.pixelRow (BitVec.ofNat 16 r) dt vc emb bs))], [])
  | .frameEnd _ =>
    if g.unitOpen then
      let complete := g.whole && g.rows.toNat == c.rows
      ({ g with unitOpen := false }.emit [.frameEnd (g.record h 0 (.frameEnd g.rows complete g.frameBits))]).unitDone h now c complete
    else (g, [])

/-- A SCALAR item in the filter windows (R159). -/
def ScalarItem.of (c : HgCfg) (t : Option Template) (it : Item) (base : T64) : ScalarItem :=
  { values := c.values.map fun f => f.val it.payload, tov := base, ctr := match counterOf c t it with | some v => BitVec.ofNat 32 v | none => 0 }

/-- Write the records of an accepted item (R150 to R154). The stream is not masked. -/
def Headgate.acceptItem (g : Headgate) (h : Fin 64) (now : T64) (c : HgCfg) (it : Item) (base : T64) (wraps : List Nat)
    (fresh lost : Bool) : Headgate × List Ev :=
  match c.kind, it with
  | .points, .frame _ p _ =>
    match g.templ with
    | none => (g, [])
    | some t => g.acceptPoints h now c t p base wraps fresh lost
  | .depth, .frame _ p _ =>
    match g.templ with
    | none => (g, [])
    | some t => g.acceptDepth h now c t p base lost
  | .camera, .csi _ ci _ => g.acceptCamera h now c base ci
  | .scalar, it =>
    let x := ScalarItem.of c g.templ it base
    let g := { g with window := (x :: g.window).take (2 * c.delay + 1), lastItem := some x, probBad := false }
    (g.emit (g.scalarOut h c)).unitDone h now c true
  | .edge, .edge code => ({ g with probBad := false }.emit [.data (g.record h base (.edge code))]).unitDone h now c true
  | _, _ => (g, [])

/-- One item through the check chain (R157) and the stream state (R165). `settling` and `offset` come from the time map. DEDUCED, log entry 13. -/
def Headgate.judge (g : Headgate) (h : Fin 64) (now : T64) (settling : Bool) (offset : Nat) (c : HgCfg) (it : Item) : Headgate × List Ev :=
  let g := if g.st = .timedOut then g.toResync else g
  -- checks 1 to 3
  if it.crcBad then { g with checkFail := bump g.checkFail }.reject h now c true true
  else if !(parseOk c g.templ it) then
    { g with parseFail := bump g.parseFail, checkFail := bump g.checkFail }.reject h now c true true
  else if !(integrityOk c g.templ it) then { g with checkFail := bump g.checkFail }.reject h now c true true
  else
  let wraps := match c.kind, g.templ with | .points, some t => t.wraps it.payload g.prevAz | _, _ => []
  let lastAz := match c.kind, g.templ with | .points, some t => (t.azimuths it.payload g.prevAz).getLast? | _, _ => g.prevAz
  let start := g.unitStart c it wraps
  let fresh := g.st = .waiting ∨ g.st = .resync
  let g := { g with prevAz := lastAz }
  -- the wraps held by an item rejected from here on still close their sweeps (R150)
  let closeRejected (g : Headgate) : Headgate :=
    if ¬ fresh ∧ g.st ≠ .masked then
      wraps.foldl (fun (g : Headgate) _ =>
        { g with sweepNo := g.sweepNo + 1, owedStart := true, unitOpen := false, probCount := 0 }.emit
          [.runBreak, .sweepEnd (g.record h 0 (.sweepEnd 0 false g.sweepNo)) true]) g
    else { g with owedStart := g.owedStart || !wraps.isEmpty }
  let ctr := counterOf c g.templ it
  let w := c.ctrBits - c.epochBits
  -- checks 4 and 5
  let epochBad := match ctr, g.accEpoch with | some v, some e => v / 2 ^ w != e | _, _ => false
  let step := match ctr, g.seqRef with | some v, some r => some ((v % 2 ^ w + 2 ^ w - r) % 2 ^ w) | _, _ => none
  if epochBad then { g with staleId := bump g.staleId }.reject h now c false false closeRejected
  else if step = some 0 then { g with repeats := bump g.repeats }.reject h now c false false closeRejected
  else if (match step with | some k => decide (c.maxGap < k) | none => false) then
    { g with checkFail := bump g.checkFail }.reject h now c true false closeRejected
  -- check 6
  else if (fresh && !start) || (g.awaitFs && !start && g.st != .masked) then
    { g with resyncDrop := bump g.resyncDrop }.reject h now c false false closeRejected
  else
  -- check 7
  let base := g.timeOf c it offset
  let sensor := match c.kind, g.templ with | .points, some t | .depth, some t => t.sensorTime | _, _ => false
  if !(timeOk c it.stamp base) then
    { g with timeReject := bump g.timeReject }.reject h now c (!(sensor && settling)) (!(sensor && settling)) closeRejected
  else
  -- checks 9 and 10
  let vs := if c.kind = .scalar then c.values.map fun f => f.val it.payload else []
  if !(rangeOk c vs) then { g with rangeFail := bump g.rangeFail }.reject h now c true true
  else if !(slewOk c g.lastItem vs base) then { g with slewFail := bump g.slewFail }.reject h now c true true
  else
  -- accepted
  let (g, lost) := g.stepCounter c ctr
  let g := { g with itemNo := g.itemNo + 1, accepted := bump g.accepted, lastStamp := some it.stamp }
  if g.st = .masked then
    let g := { g with failRun := 0, recoverRun := g.recoverRun + 1
                      lastItem := if c.kind = .scalar then some (ScalarItem.of c g.templ it base) else g.lastItem }
    if c.rearm && g.reasons.contains reasonCheck && decide (c.recover ≤ g.recoverRun) then (g.release h now reasonCheck, []) else (g, [])
  else
    (g.takeIn h now c).acceptItem h now c it base wraps (decide fresh) lost

/-- One item and the end of what it writes (R151). -/
def Headgate.item (g : Headgate) (h : Fin 64) (now : T64) (settling : Bool) (offset : Nat) (c : HgCfg) (it : Item) : Headgate × List Ev :=
  let r := g.judge h now settling offset c it
  (r.1.endItem true, r.2)

/-- HEADGATE_ITEM's effect on its headgate: the oldest item handed over (R157). -/
def Headgate.next (g : Headgate) (h : Fin 64) (now : T64) (settling : Bool) (offsetAt : T64 → Nat) : Headgate × List Ev :=
  match g.cfg, g.inbox with
  | some c, it :: rest =>
    if g.st = .off then ({ g with inbox := rest }, []) else { g with inbox := rest }.item h now settling (offsetAt it.stamp) c it
  | none, _ :: rest => ({ g with inbox := rest }, [])
  | _, [] => (g, [])

/-- An item whose pin stamp lies before a deadline holds that deadline (R165), one that is still arriving at the port among them:
`coming` are the stamps of those. -/
def Headgate.held (g : Headgate) (coming : List T64) (deadline : T64) : Bool :=
  (g.inbox.map Item.stamp ++ coming).any fun t => tLater deadline t

/-- PKT_GAP (R165): ACTIVE or PROBATION with an open unit moves to GAP. -/
def Headgate.gap (g : Headgate) (h : Fin 64) (now : T64) (coming : List T64) : Headgate :=
  match g.cfg, g.lastStamp with
  | some c, some t =>
    if (g.st = .active ∨ g.st = .probation) ∧ c.kind ≠ .scalar ∧ c.kind ≠ .edge ∧ g.unitOpen = true
        ∧ elapsed now t (c.pktGap * ticksPerUs) = true ∧ g.held coming (t + us c.pktGap) = false then
      { (g.closeUnit h).endItem false with st := .gap, before := g.st, probBad := true, probCount := 0 }
    else g
  | _, _ => g

/-- TIMEOUT (R165): ACTIVE, PROBATION or GAP moves to TIMED_OUT. -/
def Headgate.timeout (g : Headgate) (h : Fin 64) (now : T64) (coming : List T64) : Headgate × List Ev :=
  match g.cfg, g.lastStamp with
  | some c, some t =>
    if (g.st = .active ∨ g.st = .probation ∨ g.st = .gap) ∧ c.timeout ≠ 0
        ∧ elapsed now t (c.timeout * ticksPerMs) = true ∧ g.held coming (t + ms c.timeout) = false then
      let g := { ({ g with conf := 0 } : Headgate).closeUnit h with accEpoch := none, seqRef := none }
      ((g.enter h now .timedOut reasonTimeout).endItem false, [evtOpen .streamTimeout (hgIsland h) h.val])
    else (g, [])
  | _, _ => (g, [])

/-- STREAM_ABSENT (R165): TIMEOUT after installation with no item accepted, once. -/
def Headgate.checkAbsent (g : Headgate) (h : Fin 64) (now : T64) (coming : List T64) : Headgate × List Ev :=
  match g.cfg with
  | some c =>
    if g.st = .waiting ∧ g.absent = false ∧ c.timeout ≠ 0 ∧ elapsed now g.installedAt (c.timeout * ticksPerMs) = true
        ∧ g.held coming (g.installedAt + ms c.timeout) = false then
      ({ g with absent := true }, [evtOpen .streamAbsent (hgIsland h) h.val])
    else (g, [])
  | none => (g, [])

/-- Bits of the sectors that a run covers in the sweep that starts at its base (R164). -/
def Run.cover (r : Run) (hi : Int) : BitVec 360 :=
  BitVec.ofNat 360 ((List.range 360).foldl (fun (acc s : Nat) =>
    if (r.lo - r.base) * 360 ≤ (s : Int) * 65536 && ((s : Int) + 1) * 65536 ≤ (hi - r.base) * 360 then acc + 2 ^ (s : Nat) else acc) (0 : Nat))

/-- Carry a run to a written point's azimuth, the first point by the turns that AZ_CORR took it past its block (R164). -/
def Run.extend (r : Option Run) (az : BitVec 16) (turn : Int) : Run :=
  match r with
  | none => let u := az.toNat + turn * 65536; ⟨u, u, u, 0⟩
  | some r =>
    let u := r.last + (az - BitVec.ofInt 16 r.last).toInt
    ⟨min r.lo u, max r.hi u, u, r.base⟩

/-- The largest record of a stream (R479). DEDUCED, log entry 86. -/
def HgCfg.largest (c : HgCfg) : Nat :=
  match c.kind with
  | .points => 64 | .depth => 32 | .scalar => 64 | .edge => 32
  | .camera => 16 + 32768 + 8

/-- Is a record one of those that take the lateness tests and raise L (R163). -/
def RecBody.isData : RecBody → Bool
  | .point .. | .depthPixel .. | .pixelRow .. | .scalar .. | .edge .. => true
  | _ => false

/-- What the write cycle needs of the frame grid: the frame of a TOV and the close of a frame (R163). -/
structure WriteEnv where
  now : T64
  tb : Timebase
  /-- CLOSE_DELAY of a frame in ticks: that of the PCU section in force for it (R245). -/
  closeTicks : BitVec 64 → Nat
  /-- Some block reads this flume (R479). -/
  read : Bool

/-- The close instant of a frame (R163, R245). -/
def WriteEnv.closeAt (e : WriteEnv) (f : Frame) : T64 := f.next + tick (e.closeTicks f.no)

/-- Progress of a write cycle: the headgate, free bytes at its start, bytes written in it and the choices charged (R480, R83). -/
structure WriteAcc where
  g : Headgate
  free : Nat
  wrote : Nat := 0
  blocked : Bool
  late : List (BitVec 64) := []
  excess : List (BitVec 64) := []

/-- Add the bytes of a written record to its frame's log (R93). -/
def addLog (logs : List FlumeLog) (f : BitVec 64) (bs : Bytes) : List FlumeLog :=
  if logs.any (·.frame == f) then logs.map fun l => if l.frame = f then { l with bytes := l.bytes ++ bs } else l
  else (⟨f, bs⟩ :: logs).take 4

/-- Records that LAST is never set in: a FRAME_MARK belongs to no item, nor does a STATE. DEDUCED, log entry 13. -/
def RecBody.isMark : RecBody → Bool | .frameMark .. | .state .. => true | _ => false

/-- Is a record an image row. -/
def RecBody.isRow : RecBody → Bool | .pixelRow _ _ _ emb _ => !emb | _ => false

/-- Records whose LAST bit is known join the flume and their frames' logs (R93, R151). -/
def Headgate.flushTail (g : Headgate) (tb : Timebase) (last : Bool) : Headgate :=
  let rs := match g.tail with | r :: l => { r with last := last && !r.body.isMark } :: l | [] => []
  let log (ls : List FlumeLog) (r : Rec) : List FlumeLog := match tb.frameAt r.tov with | some f => addLog ls f.no r.bytes | none => ls
  { g with flume := g.flume ++ rs, tail := [], logs := rs.foldl log g.logs }

/-- AGE of a held record as it is written (R161). -/
def RecBody.aged (b : RecBody) (held : Bool) (now tov : T64) : RecBody :=
  match b with
  | .scalar ctr age vs => .scalar ctr (if held then BitVec.ofNat 32 (min ((tDiff now tov).toNat / ticksPerUs) (2 ^ 32 - 1)) else age) vs
  | b => b

/-- Write one record if it fits, or ignore it as FLUME_OVERRUN (R480). -/
def WriteAcc.put (a : WriteAcc) (e : WriteEnv) (r : Rec) : WriteAcc × Bool :=
  let r := { r with too := e.now, body := r.body.aged r.held e.now r.tov }
  if a.blocked || a.free < a.wrote + r.size then
    ({ a with excess := (match e.tb.frameAt r.tov with | some f => f.no :: a.excess | none => a.excess)
              g := { a.g with flumeOverrun := bump a.g.flumeOverrun, overrun := true, unitLost := a.g.unitLost || r.body.isData } }, false)
  else
    let g := if r.body.isMark then { a.g with tail := a.g.tail ++ [r] } else { (a.g.flushTail e.tb false) with tail := [r] }
    ({ a with wrote := a.wrote + r.size
              g := { g with lastTov := if r.body.isData then (match a.g.lastTov with
                              | some l => if tLater r.tov l then some r.tov else some l | none => some r.tov) else a.g.lastTov
                            unitTov := if r.body.isData then some r.tov else a.g.unitTov } }, true)

/-- A loss breaks the run: what it covered is kept (R164). -/
def Headgate.breakRun (g : Headgate) : Headgate :=
  match g.run with
  | some r => { g with covered := g.covered ||| r.cover r.hi, run := none }
  | none => g

/-- A run goes on with a written point. -/
def Headgate.extendRun (g : Headgate) (r : Rec) (turn : Int) : Headgate :=
  match r.body with | .point az .. => { g with run := some (Run.extend g.run az turn) } | _ => g

/-- Is a record LATE (R163). -/
def WriteAcc.isLate (a : WriteAcc) (e : WriteEnv) (r : Rec) : Bool :=
  r.body.isData && match a.g.cfg, e.tb.frameAt r.tov with
    | some c, some f =>
      (match a.g.lastTov with | some l => decide (tDiff r.tov l < -(c.reorder * ticksPerUs : Nat)) | none => false)
        || tReached e.now (e.closeAt f)
    | some _, none => true
    | none, _ => false

/-- The frame whose FRAME_MARK goes before a record (R152). -/
def WriteAcc.markFor (a : WriteAcc) (e : WriteEnv) (r : Rec) : Option Frame :=
  match e.tb.frameAt r.tov with
  | some f => if (match a.g.marked with | some m => decide (m.toNat < f.no.toNat) | none => true) then some f else none
  | none => none

/-- Write a record, after the FRAME_MARK of its frame where it has none yet (R152). -/
def WriteAcc.mark (a : WriteAcc) (e : WriteEnv) (r : Rec) : WriteAcc × Bool :=
  match a.markFor e r with
  | none => a.put e r
  | some f =>
    let x := a.put e { r with tov := f.b, last := false, held := false, filtered := false, body := .frameMark f.no f.b }
    ({ x.1 with g := { x.1.g with marked := if x.2 then some f.no else x.1.g.marked } } : WriteAcc).put e r

/-- Judge one record: a LATE one is discarded and breaks the run (R163), another is written (R152, R480). DEDUCED, log entry 103. -/
def WriteAcc.judge (a : WriteAcc) (e : WriteEnv) (r : Rec) (turn : Int) : WriteAcc :=
  if a.isLate e r then
    { a with late := (match e.tb.frameAt r.tov with | some f => f.no :: a.late | none => a.late)
             g := { a.g with late := bump a.g.late, unitLost := true, lateRows := a.g.lateRows + r.body.isRow.toNat }.breakRun }
  else
    let x := a.mark e r
    if r.body.isData then { x.1 with g := if x.2 then x.1.g.extendRun r turn else x.1.g.breakRun } else x.1

/-- How far a run goes on behind a SWEEP_END: to the points of the same item that are written after it, as far as the first loss (R164), the
room and the time being those of the SWEEP_END's own cycle. DEDUCED, log entry 103. -/
def WriteAcc.ahead (e : WriteEnv) : WriteAcc → List OutRec → Option Int
  | a, .data r k :: os =>
    let a' := a.judge e r k
    match a'.g.run with | some _ => WriteAcc.ahead e a' os | none => a.g.run.map (·.hi)
  | a, .unitOpen :: os | a, .sweepEnd .. :: os => WriteAcc.ahead e a os
  | a, _ => a.g.run.map (·.hi)

/-- A record as it stands when it is judged: a SWEEP_END takes its coverage, a FRAME_END the rows that were accepted and whether one was
lost (R162), and both the TOV of the last record of their unit (R153, R164). R153 states no TOV for a unit of which nothing was written. DESIGN CHOICE, log entry 152. -/
def WriteAcc.ready (a : WriteAcc) (e : WriteEnv) (os : List OutRec) : OutRec → Option Rec
  | .data r _ => some r
  | .sweepEnd r forced =>
    let r := { r with tov := a.g.unitTov.getD (Config.emptyUnitTov r.hg.val e.now) }
    let cov := match a.g.run with
      | some run => a.g.covered ||| run.cover ((WriteAcc.ahead e (a.judge e r 0) os).getD run.hi)
      | none => a.g.covered
    let no := match r.body with | .sweepEnd _ _ n => n | _ => 0
    some { r with body := .sweepEnd cov (forced || cov != BitVec.allOnes 360) no }
  | .frameEnd r =>
    some { r with tov := a.g.unitTov.getD (Config.emptyUnitTov r.hg.val e.now)
                  body := match r.body with | .frameEnd rows whole no => .frameEnd (rows - BitVec.ofNat 16 a.g.lateRows) (whole && !a.g.unitLost) no | b => b }
  | _ => none

/-- What else an entry of the queue does: marks, the end of a unit with the record that closes it (R153), and the new sweep after a SWEEP_END
(R164). -/
def WriteAcc.after (a : WriteAcc) (e : WriteEnv) : OutRec → WriteAcc
  | .runBreak => { a with g := a.g.breakRun }
  | .unitOpen => { a with g := { a.g with unitTov := none, unitLost := false, lateRows := 0 } }
  | .itemEnd l => { a with g := a.g.flushTail e.tb l }
  | .frameEnd _ => { a with g := { a.g with unitTov := none } }
  | .sweepEnd .. => { a with g := { a.g with unitTov := none, covered := 0, run := a.g.run.map (fun (x : Run) => { x with base := x.base + 65536 }) } }
  | _ => a

/-- The records of one cycle, FRAME_MARKs among them, up to the number given (R170), with the marks between them; and what waits on. -/
def WriteAcc.cycle (e : WriteEnv) : Nat → List OutRec → WriteAcc → WriteAcc × List OutRec
  | _, [], a => (a, [])
  | n, o :: os, a =>
    match a.ready e os o with
    | none => WriteAcc.cycle e n os (a.after e o)
    | some r =>
      let cost := if !(a.isLate e r) && (a.markFor e r).isSome then 2 else 1
      if n < cost then (a, o :: os) else WriteAcc.cycle e (n - cost) os ((a.judge e r (match o with | .data _ k => k | _ => 0)).after e o)

/-- FULL on an occupancy (R480). -/
def HgCfg.isFull (c : HgCfg) (occ : Nat) : Bool := decide (c.flumeBytes < occ + c.largest)

/-- One headgate cycle of the data flume (R480, R481): the records, the frames charged with a LATE and with a FLUME_OVERRUN, and the event. DEDUCED, log entry 103. -/
def Headgate.writeCycle (g : Headgate) (h : Fin 64) (e : WriteEnv) : Headgate × List (BitVec 64) × List (BitVec 64) × List Ev :=
  match g.cfg with
  | none => (g, [], [], [])
  | some c =>
    let x := WriteAcc.cycle e 32 g.out { g := { g with out := [] }, free := c.flumeBytes - g.occ, blocked := g.full }
    let a : WriteAcc := { x.1 with g := { x.1.g with out := x.2 } }
    -- a flume that no block reads frees each record as it is written (R479)
    let occ := if e.read then g.occ + a.wrote - g.freed else 0
    let crossed := c.flumeLevel ≠ 0 ∧ c.flumeLevel ≤ occ ∧ g.occ < c.flumeLevel
    let quiet := match g.levelAt with | some t => !(elapsed e.now t (10 * ticksPerUs)) | none => false
    let raise := decide crossed && !quiet
    let g' := { a.g with occ := occ, freed := 0, flume := if e.read then a.g.flume else [], full := c.isFull occ
                         levelAt := if raise then some e.now else g.levelAt
                         levelCross := bumpIf (decide crossed && quiet) a.g.levelCross }
    (g', a.late, a.excess, if raise then [evt .flumeLevel (hgIsland h) h.val occ] else [])

/-- Does a read record belong to the item that a drop skips, and does it end the drop (R482). -/
def Headgate.dropStep (g : Headgate) (r : Rec) : Bool × Option (BitVec 16) :=
  match g.drop with
  | none => (false, none)
  | some n =>
    if r.itemNo ≠ n then (false, none)
    else if r.last then (true, none) else (true, some n)

/-- The reader takes the oldest visible record and frees its space (R480). -/
def Headgate.readRec (g : Headgate) : Option Rec × Headgate :=
  match g.flume with
  | [] => (none, g)
  | r :: rest => (some r, { g with flume := rest, freed := g.freed + r.size })

end Sys2Proof.Machine
end

