-- ==== Sys2Proof/Machine/PortOps.lean ====
section
/-! DEFINITION. The ports' own operations: CSI-2 packets, Ethernet frames, SPI bursts, encoder edges, CAN frames and configuration scripts (spec 05_sensor_ports). -/

namespace Sys2Proof.Machine

open Sys2Proof

/-- The 64 headgates. -/
abbrev Headgates := Vector Headgate 64

/-- The installed headgate that a stream selector of a port is bound to (R119). -/
def Headgates.bound (hs : Headgates) (port sel : Nat) : Option (Fin 64) :=
  (List.finRange 64).find? fun h => match hs[h].cfg with | some c => c.port == port && c.selector == sel | none => false

/-- Hand one item to a headgate (R117). -/
def Headgates.push (hs : Headgates) (h : Fin 64) (it : Item) : Headgates := hs.set h { hs[h] with inbox := hs[h].inbox ++ [it] }

/-- Mask streams for a reason, with their events (R165, R166). -/
def Headgates.maskAll (hs : Headgates) (l : List (Fin 64)) (now : T64) (reason : BitVec 8) : Headgates × List Ev :=
  l.foldl (fun (acc : Vector Headgate 64 × List Ev) (h : Fin 64) => let r := acc.1[h].mask h now reason; (acc.1.set h (r.1.endItem false), acc.2 ++ r.2)) (hs, [])

/-- Data types that a CSI-2 port supports beyond the short packets (R120): embedded, YUV422 8-bit, RAW8 to RAW16. -/
def csiRowTypes : List (BitVec 6) := [0x12, 0x1E, 0x2A, 0x2B, 0x2C, 0x2D, 0x2E]

/-- Column of each header bit in the 6-bit header ECC of CSI-2, from bit 0 of the data identifier to VCX (R122). PRESUMED, log entry 145. -/
def csiEccColumns : List Nat :=
  [0x07, 0x0B, 0x0D, 0x0E, 0x13, 0x15, 0x16, 0x19, 0x1A, 0x1C, 0x23, 0x25, 0x26, 0x29, 0x2A, 0x2C, 0x31, 0x32, 0x34, 0x38, 0x1F, 0x2F, 0x37,
   0x3B, 0x3D, 0x3E]

/-- Header ECC of the 26 header bits. -/
def csiEcc (d : Nat) : Nat := csiEccColumns.zipIdx.foldl (fun (n : Nat) (x : Nat × Nat) => if d.testBit x.2 then n ^^^ x.1 else n) 0

/-- The header that 26 bits spell: data identifier, word count, VCX. -/
def CsiHeader.ofBits (d : Nat) : CsiHeader :=
  ⟨BitVec.ofNat 6 d, ⟨(fieldNat d 6 2 + 4 * fieldNat d 24 2) % 16, Nat.mod_lt _ (by decide)⟩, BitVec.ofNat 16 (fieldNat d 8 16)⟩

/-- The 26 bits of a header, and its 4 bytes with their ECC. -/
def CsiHeader.bits (h : CsiHeader) : Nat := packNat [(6, h.dt.toNat), (2, h.vc.val % 4), (16, h.wc.toNat), (2, h.vc.val / 4)]
def CsiHeader.bytes (h : CsiHeader) : Bytes := packBytes 4 [(24, h.bits), (6, csiEcc h.bits), (2, h.vc.val / 4)]

/-- A D-PHY header after ECC (R122): whether a bit was corrected, and the header, none where it is uncorrectable. PRESUMED, log entry 145. -/
def csiDphy (bs : Bytes) : Bool × Option CsiHeader :=
  let w := leNat bs
  let d := fieldNat w 0 24 + 2 ^ 24 * fieldNat w 30 2
  let s := csiEcc d ^^^ fieldNat w 24 6
  if s = 0 then (false, some (.ofBits d))
  else if csiEccColumns.contains s then (true, some (.ofBits (d ^^^ 2 ^ csiEccColumns.idxOf s)))
  else if [1, 2, 4, 8, 16, 32].contains s then (true, some (.ofBits d))
  else (false, none)

/-- A C-PHY header: the first copy whose check value is right. PRESUMED, log entry 145. -/
def csiCphy (copies : List Bytes) : Bool × Option CsiHeader :=
  let good (b : Bytes) : Bool := b.length == 6 && crc 16 0x1021 0xFFFF true 0 (b.take 4) == leNat (b.drop 4)
  match copies.find? good with
  | none => (false, none)
  | some b => ((copies.head?.map good) == some false, some (.ofBits (leNat (slice b 1 3) + 2 ^ 24 * ((b.getD 0 0).toNat % 4))))

/-- The header of a packet on a port, and whether a bit of it was corrected (R122). -/
def CsiPacket.head (k : CsiPacket) (c : CsiCfg) : Bool × Option CsiHeader := if c.cphy then csiCphy k.header else csiDphy (k.header.headD [])

/-- Bits of a pixel of a row data type; 0 for embedded data (R120). -/
def pixelBits (dt : BitVec 6) : Nat :=
  if dt = 0x2A then 8 else if dt = 0x2B then 10 else if dt = 0x2C then 12 else if dt = 0x2D then 14 else if dt = 0x2E ∨ dt = 0x1E then 16 else 0

/-- A row lies within what the port supports (R120): 32,768 bytes, 8,192 pixels, 8,192 rows. -/
def rowFits (dt : BitVec 6) (row bytes : Nat) : Bool := decide (bytes ≤ 32768) && decide (bytes * 8 ≤ 8192 * pixelBits dt ∨ pixelBits dt = 0) && decide (row < 8192)

/-- Ticks that `n` bytes of a burst take at the lane rate (R123): 8 bits a byte and lane on D-PHY, 7 symbols for 2 bytes on C-PHY, over all
lanes. The product is rounded to the nearest tick, ties to even. DESIGN CHOICE, log entry 144. -/
def CsiCfg.byteTicks (c : CsiCfg) (n : Nat) : Int :=
  if c.cphy then rneDiv ((n * 28000 : Nat) : Int) (max 1 (c.rate * c.lanes)) else rneDiv ((n * 64000 : Nat) : Int) (max 1 (c.rate * c.lanes))

/-- The stamp of a short packet in its burst (R123). -/
def CsiCfg.packetStamp (c : CsiCfg) (p : CsiPacket) : T64 :=
  if p.first then p.burst else p.burst + BitVec.ofInt 64 (c.byteTicks p.offset)

/-- The stamp of row r of a virtual channel, if it has one (R124). `trig` gives the scheduled leading edge of a trigger that belongs to a
Frame Start stamp. A row before any Frame Start has no stamp under FS_PERIOD and TRIG_PERIOD. DESIGN CHOICE, log entry 146. -/
def CsiPort.rowStamp (p : CsiPort) (c : CsiCfg) (v : Fin 16) (trig : Fin 16 → T64 → Option T64) : Option T64 :=
  let r := p.rowNo[v]
  let shift := BitVec.ofInt 64 (c.firstRow[v] + (r * c.rowPeriod[v] : Nat))
  match c.rowSource[v] with
  | .ls => (p.lineStart[v]).map (·.2)
  | .fsPeriod => (p.frameStart[v]).map (· + shift)
  | .trigPeriod i => ((p.frameStart[v]).bind (trig i)).map (· + shift)

/-- What a packet with a good header does at its port: the new state, and the item it hands over with its stamp (R120, R122, R124). `own`
gives the stamp of a row; a row without one is discarded in NO_LS. Rows outside the port's limits count in UNCLAIMED. An embedded-data row
takes its stamp as a pixel row does, carries the current row number and does not raise it. DESIGN CHOICE, log entries 144, 146. -/
def CsiPort.take (p : CsiPort) (h : CsiHeader) (t : T64) (own : CsiPort → Option T64) (payload : Bytes) (crcBad : Bool) : CsiPort × Option (T64 × Item) :=
  let v := h.vc
  if h.dt = 0 then
    ({ p with frameStart := p.frameStart.set v (some t), rowNo := p.rowNo.set v 0, lineStart := p.lineStart.set v none },
     some (t, .csi t (.frameStart h.wc) false))
  else if h.dt = 1 then let s := p.frameStart[v].getD t; (p, some (s, .csi s (.frameEnd h.wc) false))
  else if h.dt = 2 then ({ p with lineStart := p.lineStart.set v (some (p.rowNo[v], t)) }, none)
  else if h.dt = 3 then (p, none)
  else if csiRowTypes.contains h.dt && rowFits h.dt p.rowNo[v] payload.length then
    let emb := h.dt == 0x12
    let q := { p with lineStart := p.lineStart.set v none, rowNo := if emb then p.rowNo else p.rowNo.set v (p.rowNo[v] + 1) }
    match own p with
    | some s => (q, some (s, .csi s (.row p.rowNo[v] h.dt (BitVec.ofNat 4 v.val) emb payload) crcBad))
    | none => ({ q with noLs := bump q.noLs }, none)
  else ({ p with unclaimed := bump p.unclaimed }, none)

/-- CSI2_PACKET_RECEIVED (R120 to R124): the port's new state and the item it hands over, with its headgate, its stamp and the packet as the
port presents it. `find` gives the headgate of a virtual channel. -/
def CsiPort.packet (p : CsiPort) (k : CsiPacket) (find : Nat → Option (Fin 64)) (trig : Fin 16 → T64 → Option T64) :
    CsiPort × Option (Fin 64 × T64 × Item × Bytes) :=
  match p.cfg with
  | none => (p, none)
  | some c =>
    match k.head c with
    | (_, none) => ({ p with eccFail := bump p.eccFail }, none)
    | (fixed, some h) =>
      let p := { p with eccCorr := bumpIf fixed p.eccCorr }
      match find h.vc.val with
      | none => ({ p with unclaimed := bump p.unclaimed }, none)
      | some g =>
        let r := p.take h (c.packetStamp k) (fun (x : CsiPort) => x.rowStamp c h.vc trig) k.payload (crc 16 0x1021 0xFFFF true 0 k.payload != k.crc.toNat)
        (r.1, r.2.map fun (x : T64 × Item) => (g, x.1, x.2, h.bytes ++ k.payload ++ leBytes 2 k.crc.toNat))

/-- The layer-2 view of an Ethernet frame without its FCS: VLAN identifiers, EtherType and the bytes after it. PRESUMED, log entry 106. -/
def etherSplit (bs : Bytes) : List (BitVec 12) × Nat × Bytes :=
  let tag (b : Bytes) : Option (BitVec 12 × Bytes) :=
    let ty := beNat (slice b 0 2)
    if ty = 0x8100 ∨ ty = 0x88A8 then some (BitVec.ofNat 12 (beNat (slice b 2 2)), b.drop 4) else none
  let r := bs.drop 12
  match tag r with
  | none => ([], beNat (slice r 0 2), r.drop 2)
  | some (v, r) =>
    match tag r with
    | none => ([v], beNat (slice r 0 2), r.drop 2)
    | some (w, r) => ([v, w], beNat (slice r 0 2), r.drop 2)

/-- Ones-complement sum of 16-bit big-endian words. -/
def onesSum : Bytes → Nat
  | a :: b :: r => a.toNat * 256 + b.toNat + onesSum r
  | [a] => a.toNat * 256
  | [] => 0

/-- Fold a sum into 16 bits. -/
def fold16 (n : Nat) : Nat := let x := n % 65536 + n / 65536; let y := x % 65536 + x / 65536; y % 65536 + y / 65536

/-- What the network layer of a frame is (R125, R126). -/
inductive NetFrame where
  | udp (src : Bytes) (srcPort dstPort : Nat) (payload : Bytes) (bad : Bool)
  | raw (payload : Bytes)
  | frag
  | arpRequest (target : Nat)
  | solicit (target : Nat)
  /-- A Neighbor Discovery message that asks for nothing: Router Solicitation and Advertisement, Neighbor Advertisement, Redirect. -/
  | neighbor
  | other
deriving DecidableEq, Repr

/-- A UDP datagram after its IP header; the checksum is judged over the pseudo-header, whose length is the UDP Length (R126). PRESUMED, log entry 106. -/
def udpOf (src : Bytes) (pseudo : Nat) (always : Bool) (u : Bytes) : NetFrame :=
  let len := beNat (slice u 4 2)
  let body := u.take len
  let ck := beNat (slice u 6 2)
  let bad := (always || ck != 0) && fold16 (pseudo + len + onesSum body) != 0xFFFF
  .udp src (beNat (slice u 0 2)) (beNat (slice u 2 2)) (body.drop 8) bad

/-- The network layer of a frame by its EtherType (R125). PRESUMED, log entry 106. -/
def netOf (ty : Nat) (bs : Bytes) : NetFrame :=
  if ty = 0x0800 then
    let ihl := 4 * ((bs.getD 0 0).toNat % 16)
    let total := beNat (slice bs 2 2)
    let frag := beNat (slice bs 6 2)
    if frag % 0x4000 ≠ 0 then .frag
    else if (bs.getD 9 0).toNat = 17 then
      let u := slice bs ihl (total - ihl)
      udpOf (slice bs 12 4) (onesSum (slice bs 12 8) + 17) false u
    else .other
  else if ty = 0x86DD then
    let nh := (bs.getD 6 0).toNat
    let len := beNat (slice bs 4 2)
    let u := slice bs 40 len
    if nh = 17 then udpOf (slice bs 8 16) (onesSum (slice bs 8 32) + 17) true u
    else if nh = 58 then
      (let ty := (u.getD 0 0).toNat
      if ty = 135 then .solicit (beNat (slice u 8 16)) else if 133 ≤ ty ∧ ty ≤ 137 then .neighbor else .other)
    else if [0, 43, 44, 50, 51, 60, 135, 139, 140].contains nh then .frag
    else .other
  else if ty = 0x0806 then (if beNat (slice bs 6 2) = 1 then .arpRequest (beNat (slice bs 24 4)) else .other)
  else .raw bs

/-- A delay request in a PTP message (R49): its transport, its domainNumber byte and what the port is to answer. PRESUMED, log entry 147. -/
def ptpOf (ty : Nat) (n : NetFrame) (rest : Bytes) (v6 : Bool) (rx : T64) : Option (PtpTransport × Nat × PtpReq) :=
  let msg (tr : PtpTransport) (m : Bytes) : Option (PtpTransport × Nat × PtpReq) :=
    let kind := (m.getD 0 0).toNat % 16
    if kind = 1 ∨ kind = 2 then some (tr, (m.getD 4 0).toNat, ⟨kind == 2, BitVec.ofNat 16 (beNat (slice m 30 2)), rx⟩) else none
  if ty = 0x88F7 then msg .layer2 rest
  else match n with
    | .udp _ _ d pl false => if d = 319 then msg (if v6 then .udp6 else .udp4) pl else none
    | _ => none

/-- Does a matcher claim a frame (R128). Of two VLAN tags either may carry the identifier; the source address is the IP address of a UDP frame and the
MAC address of a raw EtherType. DESIGN CHOICE, log entry 177. -/
def EthMatch.claims (m : EthMatch) (vlans : List (BitVec 12)) (ty : Nat) (srcMac : Bytes) (n : NetFrame) : Bool :=
  m.etherType.toNat == ty
  && (match m.vlan with | none => true | some v => vlans.contains v)
  && (match n with
    | .udp src _ d _ _ => m.dstPort.toNat == d && (match m.src with | none => true | some a => a == src)
    | .raw _ => (match m.src with | none => true | some a => a == srcMac)
    | _ => false)

/-- Is the FCS of a frame right (R126). -/
def fcsOk (bs : Bytes) : Bool := let n := bs.length - 4; leNat (bs.drop n) == crc32 (bs.take n)

/-- Does a frame ask a port for an answer (R127, R452): an ARP request or Neighbor Solicitation for one of its own addresses. -/
def EthPort.asked (p : EthPort) (bs : Bytes) : Bool :=
  match p.cfg with
  | none => false
  | some c =>
    decide (bs.length ≤ 9216) && fcsOk bs &&
    let x := etherSplit (bs.take (bs.length - 4))
    match netOf x.2.1 x.2.2 with
    | .arpRequest t => decide (t = c.ip4.toNat)
    | .solicit t => decide (t = c.ip6.toNat)
    | _ => false

/-- ETHERNET_FRAME_RECEIVED on a sensor port (R125 to R128). `find m` is the headgate bound to matcher m. A frame shorter than 64 bytes is
taken as any other: R125 states no outcome for it. DESIGN CHOICE, log entry 148. -/
def EthPort.frame (p : EthPort) (bs : Bytes) (stamp : T64) (find : Nat → Option (Fin 64)) : EthPort × Option (Fin 64 × Item) :=
  match p.cfg with
  | none => (p, none)
  | some c =>
    if 9216 < bs.length then ({ p with oversize := bump p.oversize }, none)
    else if !(fcsOk bs) then ({ p with fcsErr := bump p.fcsErr }, none)
    else
      let (vlans, ty, rest) := etherSplit (bs.take (bs.length - 4))
      -- PAUSE and PFC frames are discarded; PTP frames go to the Timebase
      if ty = 0x8808 ∨ ty = 0x88F7 then (p, none) else
      let n := netOf ty rest
      match n with
      | .frag => ({ p with frag := bump p.frag }, none)
      | .arpRequest _ | .solicit _ | .neighbor => (p, none)
      | .other => if ty = 0x0806 then (p, none) else ({ p with unclaimed := bump p.unclaimed }, none)
      | _ =>
        if (match n with | .udp _ _ d _ _ => d == 319 || d == 320 | _ => false) then (p, none) else
        match (List.range c.matchers.length).find? fun m =>
            (match c.matchers[m]? with | some x => x.claims vlans ty (slice bs 6 6) n | none => false) with
        | none => ({ p with unclaimed := bump p.unclaimed }, none)
        | some m =>
          match find m, n with
          | some h, .udp _ _ _ pl bad => (p, some (h, .frame stamp pl bad))
          | some h, .raw pl => (p, some (h, .frame stamp pl false))
          | _, _ => ({ p with unclaimed := bump p.unclaimed }, none)

/-- SPI_INIT (R136): the check reads in order, up to the first that differs under its mask. The first poll instant is after the last one. -/
def SpiPort.init (p : SpiPort) (reads : List Bytes) (now : T64) : SpiPort × Bool :=
  match p.cfg with
  | none => (p, false)
  | some c =>
    if p.initDue then
      let ok := (List.zip c.checks (List.range c.checks.length)).all fun (k, i) =>
        List.zipWith (· &&& ·) (reads.getD i []) k.mask == List.zipWith (· &&& ·) k.expect k.mask
      ({ p with initDue := false, initOk := ok, initFailed := !ok, polled := now }, !ok)
    else (p, false)

/-- The pending burst starts once the chip-select gap after the burst before it has passed (R137). -/
def SpiPort.startPending (p : SpiPort) (t : T64) : SpiPort :=
  if p.running.isNone && p.waiting.isSome && tReached t p.gapEnd then { p with running := p.waiting, waiting := none } else p

/-- A data-ready edge (R137): it starts a burst, or its stamp is held pending; a further edge before the pending burst starts replaces it. -/
def SpiPort.drdy (p : SpiPort) (stamp : T64) : SpiPort :=
  match p.cfg with
  | none => p
  | some c =>
    if c.poll || p.initDue || p.initFailed then p
    else
      let p := p.startPending stamp
      if p.running.isNone && p.waiting.isNone then { p with running := some stamp }
      else { p with waiting := some stamp, drdyOverrun := bumpIf p.waiting.isSome p.drdyOverrun }

/-- A completed burst (R137), with the stamp that its sample carries: a pending one waits for a chip-select gap of 4 SCLK periods. -/
def SpiPort.complete (p : SpiPort) (now : T64) : SpiPort × Option T64 :=
  let p := p.startPending now
  match p.running, p.cfg with
  | some t, some c =>
    ({ p with running := none, gapEnd := now + tick (4 * 1000 * ticksPerUs / max 1 c.sclkKhz), bursts := bump p.bursts }, some t)
  | _, _ => (p, none)

/-- The first poll instant after a device time (R138): every POLL_PERIOD of device time, from a phase that R138 does not state. DESIGN CHOICE, log entry 149. -/
def SpiCfg.pollAfter (c : SpiCfg) (k : Fin 4) (t : T64) : T64 :=
  let n := c.pollPeriod * ticksPerUs
  let ph := Config.pollPhase k % max 1 n
  tick ((if t.toNat < ph then 0 else (t.toNat - ph) / max 1 n + 1) * n + ph)

/-- A poll instant (R138): its scheduled device time is the stamp. One that falls while a burst still runs passes and starts none. DESIGN CHOICE,
log entry 179. -/
def SpiPort.poll (p : SpiPort) (k : Fin 4) (now : T64) : SpiPort :=
  match p.cfg with
  | none => p
  | some c =>
    let due := c.pollAfter k p.polled
    if c.poll && !p.initDue && !p.initFailed && tReached now due then
      { p with polled := due, running := match p.running with | none => some due | some r => some r }
    else p

/-- The count step of an edge, by the levels of A and B before it (R139). -/
def EncCfg.step (c : EncCfg) (a b : Bool) (line : BitVec 2) (level : Bool) : Int :=
  let s : Int :=
    if c.stepDir then (if line = 0 ∧ level = true then (if b then -1 else 1) else 0)
    else if line = 0 then (if level != b then 1 else -1)
    else if line = 1 then (if level == a then 1 else -1)
    else 0
  if c.invert then -s else s

/-- Edges of A and B at one stamp are an illegal pair in QUAD (R141). -/
def EncEdge.pairs (x y : EncEdge) : Bool := x.stamp == y.stamp && x.line != y.line && x.line != 2 && y.line != 2

/-- The first pending edge is one of an illegal pair (R141). -/
def EncCfg.illegal (c : EncCfg) (x : EncEdge) (rest : List EncEdge) : Bool := !c.stepDir && (x.illegal || rest.any fun (y : EncEdge) => x.pairs y)

/-- The next edge code of a channel and the channel after it (R139 to R141): the count moves by the edge's step, but not for an illegal pair. -/
def EncPort.next (p : EncPort) : Option (EdgeCode × EncPort) :=
  match p.cfg, p.pend with
  | some c, x :: rest =>
    let bad := c.illegal x rest
    let s := if bad then 0 else c.step p.a p.b x.line x.level
    let count := p.count + BitVec.ofInt 24 s
    some (⟨x.stamp, count, x.line, x.level, decide (s < 0), x.glitch, bad⟩,
      { p with
        a := if x.line = 0 then x.level else p.a, b := if x.line = 1 then x.level else p.b, z := if x.line = 2 then x.level else p.z
        count := count, pend := rest.map fun (y : EncEdge) => if bad && x.pairs y then { y with illegal := true } else y
        encIllegal := bumpIf (bad && !x.illegal) p.encIllegal })
  | _, _ => none

/-- Remove the pending edge at a place (R141): the code that follows it carries GLITCH. DEDUCED, log entry 107. -/
def EncPort.remove (p : EncPort) (i : Nat) : EncPort :=
  let rest := p.pend.drop (i + 1)
  { p with
    pend := p.pend.take i ++ (match rest with | y :: l => { y with glitch := true } :: l | [] => [])
    glitched := p.glitched || rest.isEmpty, glitch := bump p.glitch }

/-- ENCODER_EDGE (R139, R141): a pulse shorter than MIN_PULSE goes with both its edges. DEDUCED, log entry 107. -/
def EncPort.edge (p : EncPort) (line : BitVec 2) (level : Bool) (stamp : T64) : EncPort :=
  match p.cfg with
  | none => p
  | some c =>
    let at_ (i : Nat) : Bool := match p.pend[i]? with | some x => x.line == line | none => false
    match (List.range p.pend.length).reverse.find? at_ with
    | some i =>
      if (match p.pend[i]? with | some x => decide (tDiff stamp x.stamp < (c.minPulse * ticksPerNs : Nat)) | none => false) then p.remove i
      else { p with pend := p.pend ++ [⟨line, level, stamp, p.glitched, false⟩], glitched := false }
    | none => { p with pend := p.pend ++ [⟨line, level, stamp, p.glitched, false⟩], glitched := false }

/-- ENCODER_CODE_ISSUE (R141): MIN_PULSE after its edge a code is issued; rising Z edges are checked against COUNTS_PER_REV, as the difference that
DATA shows, signed in 24 bits, without a wrap. DESIGN CHOICE, log entry 180. -/
def EncPort.issue (p : EncPort) (e : Fin 8) (now : T64) : EncPort × Option EdgeCode × List Ev :=
  match p.cfg, p.next with
  | some c, some (k, q) =>
    if elapsed now k.stamp (c.minPulse * ticksPerNs) then
      let rising := k.line == 2 && k.level
      let diff := match p.zCount with | some z => (k.count - z).toInt | none => 0
      let bad := rising && p.zCount.isSome && c.countsPerRev ≠ 0
        && decide (c.indexTol < (((diff.natAbs : Int) - c.countsPerRev).natAbs))
      ({ q with edges := bump p.edges, zCount := if rising then some k.count else p.zCount, encIndex := bumpIf bad p.encIndex },
       some k, if bad then [evt .encIndex (20 + e.val) e.val (codeInt 32 diff)] else [])
    else (p, none, [])
  | _, _ => (p, none, [])

/-- Does a CAN filter claim a frame (R143). -/
def CanFilter.claims (f : CanFilter) (k : CanFrame) : Bool :=
  f.format == k.format && f.ext == k.ext && (k.id &&& f.mask) == (f.id &&& f.mask)
  && (match f.sdt with | none => true | some v => k.format == 2 && v == k.sdt)
  && (match f.vcid with | none => true | some v => k.format == 2 && v == k.vcid)

/-- CAN_FRAME_RECEIVED (R143, R144): remote frames are discarded, and nothing is received in bus-off. -/
def CanPort.frame (p : CanPort) (k : CanFrame) (stamp : T64) (find : Nat → Option (Fin 64)) : CanPort × Option (Fin 64 × Item) :=
  match p.cfg with
  | none => (p, none)
  | some c =>
    if p.st = .busOff then (p, none) else
    let p := { p with framesRx := bump p.framesRx }
    if k.remote then (p, none) else
    match (List.range c.filters.length).find? fun f => (match c.filters[f]? with | some x => x.claims k | none => false) with
    | none => ({ p with unclaimed := bump p.unclaimed }, none)
    | some f =>
      match find f with
      | some h => (p, some (h, .can stamp k.data))
      | none => ({ p with unclaimed := bump p.unclaimed }, none)

/-- State of a CAN channel by its error counters (ISO 11898-1). PRESUMED, log entry 105. -/
def canStOf (st : CanSt) (tec rc : BitVec 8) : CanSt :=
  if st = .busOff then .busOff else if 128 ≤ tec.toNat ∨ 128 ≤ rc.toNat then .passive else .active

/-- A configuration bus starts once its port is enrolled (R118, R145): the dynamic addresses of its targets are given, and its first script begins.
DEDUCED, log entry 150. -/
def BusPort.start (p : BusPort) (now : T64) : BusPort :=
  match p.cfg with
  | some c => { p with addresses := if c.i3c then c.dynamics.map fun (x : DynAddr) => x.dynamic else [], stepAt := now }
  | none => p

/-- A script joins the queue of its bus (R146); one without steps is over at once, and one that finds no other begins now. On a bus that is DEAD it
waits for ever (R148). DESIGN CHOICE, log entry 176. -/
def BusPort.queue (p : BusPort) (c : BusCfg) (now : T64) : BusPort :=
  if c.script.steps.isEmpty then { p with cfg := some c }
  else { p with cfg := some c, scripts := p.scripts ++ [c.script], stepAt := if p.scripts.isEmpty then now else p.stepAt }

/-- What each port takes at the end of its enrolment (R118, R139, R145): an encoder channel samples the levels of A, B and Z. -/
def Ports.enrolled (p : Ports) (i : Nat) (lines : BitVec 3) (now : T64) : Ports :=
  if h : 20 ≤ i ∧ i < 28 then
    { p with enc := modAt p.enc ⟨i - 20, by omega⟩ fun (x : EncPort) => { x with a := lines.getLsbD 0, b := lines.getLsbD 1, z := lines.getLsbD 2 } }
  else if h : 32 ≤ i ∧ i < 34 then { p with bus := modAt p.bus ⟨i - 32, by omega⟩ fun (x : BusPort) => x.start now }
  else p

/-- The step that a script runs next. -/
def BusPort.current (p : BusPort) : Option (Script × ScriptStep) :=
  match p.scripts with
  | s :: _ => (s.steps[p.step]?).map fun x => (s, x)
  | [] => none

/-- Move to the next step, or to the next script after the last (R146). -/
def BusPort.advance (p : BusPort) (now : T64) : BusPort :=
  match p.scripts with
  | s :: rest =>
    if p.step + 1 < s.steps.length then { p with step := p.step + 1, tries := 0, stepAt := now }
    else { p with scripts := rest, step := 0, tries := 0, stepAt := now }
  | [] => p

/-- A failed attempt of the current step: again up to 3 times, then SCRIPT_FAIL and the next script (R146). The dependents to mask are answered. DEDUCED, log entry 27. -/
def BusPort.failStep (p : BusPort) (m : Fin 2) (now : T64) : BusPort × List (Fin 64) × List Ev :=
  if p.tries < 3 then ({ p with tries := p.tries + 1 }, [], [])
  else match p.scripts with
    | s :: rest => ({ p with scripts := rest, step := 0, tries := 0, stepAt := now, scriptFail := true }, s.dependents,
        [evtOpen .scriptFail (32 + m.val) m.val])
    | [] => (p, [], [])

/-- SCRIPT_STEP (R146): the next step with the result of its transaction; a stretch timeout also starts a recovery (R147). DEDUCED, log entry 27. -/
def BusPort.script (p : BusPort) (m : Fin 2) (now : T64) (r : StepResult) : BusPort × List (Fin 64) × List Ev :=
  if p.st = .idle then
    match p.current with
    | none => (p, [], [])
    | some (_, .delay d) => if elapsed now p.stepAt (d * ticksPerUs) then (p.advance now, [], []) else (p, [], [])
    | some (_, st) =>
      match r, st with
      | .nack, _ => { p with nacks := bump p.nacks }.failStep m now
      | .stretchTimeout, _ => { p with stretchTimeouts := bump p.stretchTimeouts, st := .recovering, retries := 0 }.failStep m now
      | .read d, .readCheck _ _ e k =>
        if List.zipWith (· &&& ·) d k == List.zipWith (· &&& ·) e k then (p.advance now, [], []) else p.failStep m now
      | .ok, .write _ _ => (p.advance now, [], [])
      | _, _ => p.failStep m now
  else (p, [], [])

/-- One recovery (R147): up to 16 SCL pulses until SDA is high in the high phase of one; a STOP ends it either way. It answers the pulses
sent and whether the bus recovered. -/
def recoveryOf (sda : Vector Bool 16) : Nat × Bool :=
  match (List.finRange 16).find? fun i => sda[i] with
  | some i => (i.val + 1, true)
  | none => (16, false)

/-- One recovery attempt (R147, R148): a stuck bus goes to STUCK with BUS_STUCK, and from there to DEAD if that was the eighth retry. From IDLE once SCL has been high and SDA low for 20 µs, or in RECOVERING. `lowNs` is how long the
controller has sampled the bus so, `sda` what SDA reads in the high phase of each pulse. DEDUCED, log entry 27. -/
def BusPort.recover (p : BusPort) (m : Fin 2) (now : T64) (lowNs : Nat) (sda : Vector Bool 16) : BusPort × List (Fin 64) × List Ev :=
  if (p.st = .idle ∧ 20000 ≤ lowNs) ∨ p.st = .recovering then
    let n := if p.st = .idle then 0 else p.retries
    let r := recoveryOf sda
    let p := { p with recoveries := bump p.recoveries, retries := n, pulses := r.1 }
    if r.2 then ({ p with st := .idle, retries := 0 }, [], [])
    else if 8 ≤ n then
      ({ p with st := .dead, stuckAt := now, scripts := [], scriptFail := p.scriptFail || !p.scripts.isEmpty }, p.scripts.flatMap (·.dependents),
       evt .busStuck (32 + m.val) m.val (n + 1) :: evtOpen .busDead (32 + m.val) m.val :: p.scripts.map fun _ => evtOpen .scriptFail (32 + m.val) m.val)
    else ({ p with st := .stuck, stuckAt := now }, [], [evt .busStuck (32 + m.val) m.val (n + 1)])
  else (p, [], [])

/-- A retry from STUCK (R148). -/
def BusPort.retry (p : BusPort) (now : T64) : BusPort :=
  if p.st = .stuck ∧ p.retries < 8 ∧ elapsed now p.stuckAt ticksPerSec = true then { p with st := .recovering, retries := p.retries + 1 }
  else p

end Sys2Proof.Machine
end

