-- ==== Sys2Proof/Machine/State.lean ====
section
/-! DEFINITION. The state of the device. -/

namespace Sys2Proof.Machine

open Sys2Proof

/-- Everything the spec gives the device, block by block, and the queue of waiting commands. -/
structure State where
  /-- Commands that wait, first in, first out. -/
  pending : List Instr := []
  /-- Sluice, intake FIFOs and fault lines. -/
  ev : Sluice := {}
  /-- Timebase and frame grid. -/
  tb : Timebase := {}
  /-- Clock islands. -/
  isl : Islands := {}
  /-- Replay reader and window. -/
  replay : Replay := {}
  /-- Capture ring's writer. -/
  capture : Capture := {}
  /-- Frame Sequencer. -/
  seq : Seq := {}
  /-- Ports. -/
  ports : Ports := {}
  /-- Headgates and data flumes. -/
  hgs : Vector Headgate 64 := Vector.replicate 64 {}
  /-- Pose Ladder. -/
  pl : PoseLadder := {}
  /-- Projection and Alignment Unit. -/
  pau : Pau := {}
  /-- Point Cloud Unit. -/
  pcu : Pcu := {}
  /-- Tensor Engines and model slots. -/
  tes : Tes := {}
  /-- Track memory settings, KV_CFG. -/
  kv : KvCfg := {}
  /-- Tracker. -/
  trk : Tracker := {}
  /-- QP Solver Array. -/
  qsa : Qsa := {}
  /-- Cistern, local buffers and LPDDR5X. -/
  mem : Memory := {}
  /-- Channel B. -/
  cb : ChannelB := {}
  /-- Weir. -/
  weir : Weir := {}
  /-- Guard Engine and guard ports. -/
  guard : Guard := {}
  /-- Spillway, supervisors and self-tests. -/
  safety : Safety := {}
  /-- Qanat link, twin lines and role. -/
  qnt : Qanat := {}
  /-- Boot and Configuration Controller and OTP memory. -/
  bcc : Bcc := {}
  /-- Output streams, vehicle ports and CAN safety messages. -/
  out : Outputs := {}
  /-- Grotto. -/
  grt : Grotto := {}
  /-- Observation port. -/
  obp : Observation := {}
  /-- Reset, straps and sensors. -/
  pwr : Power := {}
deriving DecidableEq, Repr

/-- Why the device stops. -/
inductive Fault where
  /-- An access names an address that the memory does not have (R467). Raised by CISTERN_ACCESS. Safe: the model stops. -/
  | noSuchAddress (addr : Nat)
deriving DecidableEq, Repr

/-- Why a command has no meaning. -/
inductive Refusal where
  /-- A row whose meaning is not written. Raised by exec's arms alone. Safe: the model stops. -/
  | notModelled (mnemonic : String)
deriving DecidableEq, Repr

/-- The device at reset. DESIGN CHOICE, log entries 7, 11, 75. -/
def State.reset : State := {}

end Sys2Proof.Machine
end

