-- ==== Sys2Proof/Machine/Ops.lean ====
section
/-! DEFINITION. The operations on the whole state that the meanings share. -/

namespace Sys2Proof.Machine

open Sys2Proof

/-- Islands raise events, in the order given (R75, R407). -/
def State.raise (s : State) (es : List Ev) : State := { s with ev := s.ev.raiseAll es }

/-- Device time. -/
def State.now (s : State) : T64 := s.tb.now

/-- Replay mode (R85). -/
def State.replaying (s : State) : Bool := s.isl.cfg.replay

/-- A Replay stall: every island but PCIe has stopped its clock (R90). -/
def State.stalled (s : State) : Bool := s.replaying && s.replay.stalled

/-- What an island does while its clock runs; in a Replay stall it does nothing (R90). DEDUCED, log entry 165. -/
def State.gate (s : State) (o : Host.Outcome State Fault Refusal) : Host.Outcome State Fault Refusal := if s.stalled then .next s else o

@[simp] theorem State.gate_run {s : State} (h : s.stalled = false) (o : Host.Outcome State Fault Refusal) : s.gate o = o := by simp [State.gate, h]
@[simp] theorem State.gate_stalled {s : State} (h : s.stalled = true) (o : Host.Outcome State Fault Refusal) : s.gate o = .next s := by simp [State.gate, h]

/-- The device is past reset release and its clocks enrolled (R70). -/
def State.enrolled (s : State) : Bool := s.tb.running && s.isl.allEnrolled

/-- A port takes part once it is enrolled (R118); in Replay mode the port islands are held in reset (R85). DEDUCED, log entry 25. -/
def State.portUp (s : State) (i : Fin 144) : Bool := s.isl.enrolled[i] && !s.replaying

/-- A C3 has been collected: a C3 latch is set (R415). -/
def State.c3 (s : State) : Bool := s.safety.latchA || s.safety.latchB

/-- The C2 state is in force (R409). -/
def State.c2 (s : State) : Bool := s.safety.latchC2

/-- Streams that the image enables. -/
def State.enabledStreams (s : State) : BitVec 64 :=
  BitVec.ofNat 64 ((List.finRange 64).foldl (fun (a : Nat) h => if s.hgs[h].cfg.isSome then a + 2 ^ h.val else a) 0)

/-- A C1 degradation is in force (R408, R435). -/
def State.degraded (s : State) : Bool :=
  s.hgs.toList.any (fun (g : Headgate) => g.cfg.isSome && (g.st == .timedOut || g.st == .masked || (g.st == .waiting && g.absent)))
    || s.pl.mode != .full || s.weir.hold
    || s.pau.entries.toList.any (fun (e : AlignEntry) => e.st == .misaligned || e.st == .held)
    || s.safety.sup.toList.any (fun (x : Supervisor) => x.lost)
    || s.bcc.result == .sectionFail
    || s.ports.bus.toList.any (fun (b : BusPort) => b.st == .stuck || b.st == .dead)
    || s.qnt.witnessLost

/-- The reported class (R408), coded as in R74. -/
def State.reported (s : State) : BitVec 3 :=
  let recent (t : Option T64) : Bool := match t with | some a => !(elapsed s.tb.now a (2 * s.tb.cfg.period)) | none => false
  if s.c3 then 4 else if s.c2 then 3 else if s.degraded || recent s.ev.lastC1 then 2 else if recent s.ev.lastC0 then 1 else 0

/-- The safety state's code (R516). -/
def SafetySt.code : SafetySt → Nat | .normal => 0 | .degraded => 1 | .safe => 2

/-- FAULT_N is driven low (R410, R531): reset, the first 10 µs, a hold in S0, DEGRADED or SAFE. DEDUCED, log entry 20. -/
def State.faultLow (s : State) : Bool :=
  !s.tb.running || s.pwr.por || s.bcc.held || s.c3 || s.c2
    || !(s.replaying || s.bcc.stage != 0 || tReached s.tb.now (us 10))

/-- SAFE_OK_A and SAFE_OK_B are driven high (R111, R415, R530). -/
def State.safeOkA (s : State) : Bool := s.safety.raised && !s.safety.latchA && !s.pwr.extest
def State.safeOkB (s : State) : Bool := s.safety.raised && !s.safety.latchB && !s.pwr.extest

/-- TWIN_ID as sampled (R434). -/
def State.twinId (s : State) : Bool := match s.pwr.straps with | some x => x.twinId | none => false

/-- Pair state code (R437). -/
def PairSt.code : PairSt → Nat
  | .solo => 0 | .seeking => 1 | .joining => 2 | .crossChecked => 3 | .unmatched => 4 | .disagree => 5 | .peerSafe => 6 | .lostAlive => 7
  | .unknown => 8 | .rejoining => 9

/-- The pair state as results carry it (R437). -/
def State.pairCode (s : State) : BitVec 4 := BitVec.ofNat 4 s.qnt.pair.code

/-- The latest Gₖ. -/
def State.latestG (s : State) : T64 := us (s.tb.now.toNat / ticksPerUs)

/-- Keep the inputs of the Guard Engine as they are before the first update at or after the latest Gₖ (R29). -/
def State.keepCopies (s : State) : State :=
  if s.guard.copyAt = some s.latestG then s else
  { s with guard := { s.guard with
      copyAt := some s.latestG
      copies := { table := s.cb.table, summary := s.weir.summary, verdict := s.weir.verdict, weirHold := s.weir.hold, cmd := s.qsa.cmd
                  written := s.qsa.written, pair := s.pairCode, crossChecked := s.qnt.pair == .crossChecked
                  latchA := s.safety.latchA, latchB := s.safety.latchB, latchC2 := s.safety.latchC2, stage := s.bcc.stage } } }

/-- Keep the live record that the latest Gₖ latches, before a mismatch replaces it (R29). -/
def State.keepLive (s : State) : State :=
  match s.guard.liveKept with
  | some (g, _) => if g = s.latestG then s else { s with guard := { s.guard with liveKept := some (s.latestG, s.pl.live) } }
  | none => { s with guard := { s.guard with liveKept := some (s.latestG, s.pl.live) } }

/-- Some enabled monitor takes this sample (R486). -/
def MonCfg.takes (c : MonCfg) (x : Sample) : Bool :=
  c.en && c.source == x.source && (match c.inst with | none => true | some i => i == x.inst)

/-- A unit takes a sample (R486): it goes to the Grotto where a monitor wants it. DESIGN CHOICE, log entry 17. -/
def State.sample (s : State) (source inst : Nat) (value : Int) : State :=
  let x : Sample := ⟨source, inst, satInt 32 value⟩
  if s.grt.cfg.toList.any fun (c : MonCfg) => c.takes x then { s with grt := { s.grt with samples := s.grt.samples ++ [x] } } else s

/-- A headgate's stream is of KIND DEPTH (R150). -/
def State.isDepth (s : State) (h : Fin 64) : Bool := match s.hgs[h].cfg with | some c => c.kind == .depth | none => false

/-- A unit's pose answer (R207): the Pose Ladder's counters come with it. -/
def State.pose (s : State) (t α : T64) : Option PoseRec := (s.pl.answer t α s.tb.now).map fun (r : PoseRec × Nat × Bool) => r.1

/-- A pose record as its consumer takes it: one whose CRC fails is a missing pose (R206). DESIGN CHOICE, log entry 166. -/
def PoseLadder.checked (pl : PoseLadder) (r : PoseRec) : PoseRec := if pl.badCrc.contains r.tov then poseFail 0 r.tov else r

/-- The answer that a consumer takes (R206, R207). -/
def State.checkedPose (s : State) (t α : T64) : Option PoseRec := (s.pose t α).map s.pl.checked

/-- Count what a query issued at a device time met (R200, R207): saturations, and an evicted answer with its event. -/
def State.countQueryAt (s : State) (t α issued : T64) : State :=
  match s.pl.answer t α issued with
  | none => s
  | some (_, n, ev) =>
    { s with pl := { s.pl with sat := bumpBy s.pl.sat n, evicted := bumpIf ev s.pl.evicted }
             ev := if ev then s.ev.raise (evtOpen .poseEvicted 44 0) else s.ev }
def State.countQuery (s : State) (t α : T64) : State := s.countQueryAt t α s.tb.now

/-- Mask streams for a reason (R165). -/
def State.maskStreams (s : State) (l : List (Fin 64)) (reason : BitVec 8) : State :=
  let r := Headgates.maskAll s.hgs l s.tb.now reason
  { s with hgs := r.1, ev := s.ev.raiseAll r.2 }

/-- Change one headgate and raise its events. -/
def State.setHg (s : State) (h : Fin 64) (r : Headgate × List Ev) : State :=
  { s with hgs := s.hgs.set h r.1, ev := s.ev.raiseAll r.2 }

/-- The Sluice's current SEQ (R489): the latest event numbered, 0 before the first. -/
def Sluice.current (q : Sluice) : BitVec 48 := if q.next = 0 then 0 else q.next - 1

/-- Charge choices to a frame (R83); nothing is charged in Replay mode. -/
def Seq.charge (q : Seq) (f : BitVec 64) (g : Ndc → Ndc) : Seq :=
  if q.ndc.any fun (x : Ndc) => x.frame == f then { q with ndc := q.ndc.map fun (x : Ndc) => if x.frame = f then g x else x }
  else { q with ndc := (g { frame := f } :: q.ndc).take 8 }

/-- The counts charged to a frame. -/
def Seq.ndcOf (q : Seq) (f : BitVec 64) : Ndc := match q.ndc.find? fun (x : Ndc) => x.frame == f with | some x => x | none => { frame := f }

/-- The sum of a frame's counts (R84). -/
def Ndc.total (x : Ndc) : Nat := x.late + x.overrun + x.tie + x.order

/-- Stages and stage sections: the stage in force as a number. -/
def State.stageNo (s : State) : Nat := s.bcc.stage.toNat

end Sys2Proof.Machine
end

