-- ==== Sys2Proof/Machine/PowerOps.lean ====
section
/-! DEFINITION. Reset, powered islands, enrolment and temperature sensors (spec 03 R70, R71; spec 04 R112; spec 20 R470; spec 23 R526, R542). -/

namespace Sys2Proof.Machine

open Sys2Proof

/-- OTP memory after a reset (R104): while the fuses are being programmed the rollback counter is left at a value between the old count and SVN,
both included. DESIGN CHOICE, log entry 157. -/
def Otp.interrupted (o : Otp) (now : T64) : Otp :=
  match o.programming with
  | some (old, t) =>
    { o with programming := none
             rollback := if elapsed now t Config.fuseTicks then o.rollback else old + min (o.rollback - old) (Config.fusesBlown old now) }
  | none => o

/-- The device after a recognised reset (R527): everything at its reset value but the OTP memory, the commands that wait and the
condition of the supplies. DESIGN CHOICE, log entries 3, 7. -/
def State.resetWith (s : State) : State :=
  { State.reset with pending := s.pending, bcc := { otp := s.bcc.otp.interrupted s.tb.now }, pwr := { por := s.pwr.por } }

/-- Islands that are powered in S0 (R112). -/
def poweredS0 (i : Nat) : Bool :=
  i == 42 || i == 43 || i == 141 || i == 142 || i == 143 || (decide (130 ≤ i) && decide (i ≤ 135)) || i == 138

/-- Islands that S1 adds, without the port islands of PORT sections (R112). -/
def poweredS1 (i : Nat) : Bool :=
  i == 14 || i == 15 || i == 30 || i == 31 || (decide (34 ≤ i) && decide (i ≤ 41)) || (decide (44 ≤ i) && decide (i ≤ 49))
    || (decide (122 ≤ i) && decide (i ≤ 129)) || i == 136 || i == 137 || i == 139 || i == 140

/-- Islands that S2 adds: PCU, TEs, Cistern and Tracker (R112). -/
def poweredS2 (i : Nat) : Bool := decide (50 ≤ i) && decide (i ≤ 113)

/-- Islands that S3 adds: the QSA (R112). -/
def poweredS3 (i : Nat) : Bool := decide (114 ≤ i) && decide (i ≤ 121)

/-- Islands that Replay mode holds in reset: the ports and the Qanat (R68, R85). DEDUCED, log entry 25. -/
def replayHolds (i : Nat) : Bool := decide (i < 34) || i == 136 || i == 137

/-- Power islands on; one that Replay holds in reset stays off. An island that turns on is enrolled by ISLAND_REENROL (R71, R112). -/
def Islands.powerOn (x : Islands) (f : Nat → Bool) : Islands :=
  { x with powered := Vector.ofFn fun (i : Fin 144) => x.powered[i] || (f i.val && !(x.cfg.replay && replayHolds i.val)) }

/-- Every powered island that `f` selects carries data (R71). -/
def Islands.ready (x : Islands) (f : Nat → Bool) : Bool :=
  (List.finRange 144).all fun i => !(x.powered[i] && f i.val) || x.enrolled[i]

/-- Preset the crossings that `f` selects between powered islands: write pointer 3, read pointer 0, an occupancy of 3 entries (R70).
No transfer moves them after that. DESIGN CHOICE, log entry 164. -/
def Islands.preset (x : Islands) (f : Fin 144 → Fin 144 → Bool) : Islands :=
  { x with crossing := Vector.ofFn fun (a : Fin 144) => Vector.ofFn fun (b : Fin 144) =>
      if x.powered[a] && x.powered[b] && a != b && f a b then (3, 0) else x.crossing[a][b] }

/-- Align the stampers of the powered islands that `f` selects to the time bus (R70). -/
def Islands.align (x : Islands) (f : Fin 144 → Bool) : Islands :=
  { x with aligned := Vector.ofFn fun (i : Fin 144) => x.aligned[i] || (x.powered[i] && f i) }

/-- The powered islands that `f` selects carry data (R70, R71). -/
def Islands.enrol (x : Islands) (f : Fin 144 → Bool) : Islands :=
  { x with enrolled := Vector.ofFn fun (i : Fin 144) => x.enrolled[i] || (x.powered[i] && f i) }

/-- An enrolment marker (R70): every crossing but one that does not report presets its pointers, and every stamper aligns. Enrolment is
complete once no report is missing; the third marker without it records the island pair. -/
def Islands.marker (x : Islands) (missing : Option (Fin 144 × Fin 144)) (now : T64) : Islands :=
  let y := { (x.preset fun a b => missing != some (a, b)).align (fun _ => true) with markers := x.markers + 1, markAt := now }
  match missing with
  | none => { y.enrol (fun _ => true) with allEnrolled := true }
  | some p => if 3 ≤ y.markers then { y with enrolFail := some p } else y

/-- A marker may be sent: the first at once, the next ones 20 µs apart (R70). -/
def Islands.markDue (x : Islands) (now : T64) : Bool := x.markers == 0 || elapsed now x.markAt (20 * ticksPerUs)

/-- Enrolment of one island that has taken power: the crossings from and to each of its neighbours (R71). -/
def Islands.reenrol (x : Islands) (i : Fin 144) : Islands :=
  ((x.preset fun a b => a == i || b == i).align fun k => k == i).enrol fun k => k == i

/-- Islands that Replay mode holds in reset lose power when the image selects it (R68, R85). -/
def Islands.hold (x : Islands) : Islands :=
  { x with powered := Vector.ofFn fun (i : Fin 144) => x.powered[i] && !(x.cfg.replay && replayHolds i.val) }

/-- An on-chip memory is cleared before its island is enrolled (R470, R473): the two banks of a Cistern island, or an engine's
local buffer with its load/store island. -/
def Memory.clearIsland (m : Memory) (i : Nat) : Memory :=
  if 80 ≤ i ∧ i ≤ 111 then m.zero .cistern ((i - 80) * 2 * bankBytes) (2 * bankBytes)
  else if i = 61 then m.zero (.loc 0) 0 localBytes
  else if i = 67 then m.zero (.loc 1) 0 localBytes
  else if i = 73 then m.zero (.loc 2) 0 localBytes
  else if i = 79 then m.zero (.loc 3) 0 localBytes
  else m

/-- Tj,max in 0.1 °C (R542). DESIGN CHOICE, log entry 46. -/
def tjMax : Int := if Config.gradeE then 1250 else 1100

/-- Island that raises supply and temperature events: the Spillway. -/
def sensorIsland : Nat := 143

/-- A reading of one temperature sensor (R542). -/
def TempSensor.read (x : TempSensor) (i : Nat) (v : Int) : TempSensor × List Ev :=
  let w := if tjMax - 100 ≤ v then x.warnRun + 1 else 0
  let l := if tjMax ≤ v then x.limitRun + 1 else 0
  let warn := x.armed && decide (2 ≤ w)
  let limit := !x.limited && decide (2 ≤ l)
  ({ reading := v, warnRun := w, limitRun := l, limited := x.limited || limit
     armed := if warn then false else x.armed || decide (v ≤ tjMax - 150) },
   (if warn then [evt .tempWarn sensorIsland i i] else []) ++ (if limit then [evt .tempLimit sensorIsland i i] else []))

/-- Every temperature sensor is read (R542). -/
def readTemps (ts : Vector TempSensor 8) (rs : Vector Int 8) : Vector TempSensor 8 × List Ev :=
  (Vector.ofFn fun (i : Fin 8) => (ts[i].read i.val rs[i]).1, (List.finRange 8).flatMap fun i => (ts[i].read i.val rs[i]).2)

/-- Class of CLOCK_FAIL of an island (R426). DEDUCED, log entry 89. -/
def clockClass (i : Nat) : FaultClass :=
  if (42 ≤ i ∧ i ≤ 45) ∨ (122 ≤ i ∧ i ≤ 143) then .c3 else .c2

end Sys2Proof.Machine
end

