-- ==== Sys2Proof/Machine/CheckPorts.lean ====
section
/-! DEFINITION. The content rules of the TIMEBASE, ISLANDS, PORT, HEADGATE and POSE sections, each section by itself
(spec 02 R45 to R66; spec 03 R92; spec 05 R118 to R146; spec 06 R150 to R169, R479; spec 08 R195 to R212; spec 20 R474, R475).
A value outside the range that its table gives breaks a rule of the chapter (R107), notes/assumptions/30.md. -/

namespace Sys2Proof.Machine

open Sys2Proof

/-- A natural number within bounds. -/
def inN (lo x hi : Nat) : Bool := decide (lo ≤ x) && decide (x ≤ hi)

/-- An integer within bounds. -/
def inI (lo x hi : Int) : Bool := decide (lo ≤ x) && decide (x ≤ hi)

/-- A rational within bounds. -/
def inQ (lo x hi : Rat) : Bool := decide (lo ≤ x) && decide (x ≤ hi)

/-- A finite F32 value within bounds. -/
def inF (lo : Rat) (w : Word) (hi : Rat) : Bool := (f32Val w).isFin && inQ lo (f32Val w).rat hi

/-- A power of two within bounds. -/
def pow2In (lo x hi : Nat) : Bool := inN lo x hi && (List.range 40).any (fun k => 2 ^ k == x)

/-! ### TIMEBASE -/

/-- R62: pulses of an enabled trigger lie within P (in ticks). -/
def TrigCfg.ok (c : TrigCfg) (p : Nat) : Bool :=
  let spacing := if c.spacing = 0 then p / 2 else c.spacing
  decide (c.offset < p) && inN 1 c.count 8 && inN ticksPerUs spacing (p / 2) && inN 1 c.widthUs 1000 && inN 1 c.div 16
    && (!c.en || decide (c.offset + (c.count - 1) * spacing + c.widthUs * ticksPerUs < p))

/-- The TIMEBASE section (R45, R51, R53, R54, R59, R62 to R66). -/
def TbCfg.ok (c : TbCfg) : Bool :=
  c.domA.enabled && [10, 20, 25, 40, 50].contains c.framePeriodMs && [5, 10, 20, 50, 100].contains c.servoBw && inN 1 c.slewMaxPpm 100
    && inN 10 c.lockNs 1000 && inN 4 c.lockCount 64 && inN 100 c.unlockNs 10000 && inN 2 c.syncTimeout 255 && inN 2 c.announceTimeout 255
    && inN 0 c.switchSlewUs 1000 && inN 100 c.mapGuardMs 10000 && inN 1 c.holdLimitS 3600
    && decide (c.framePhaseUs < 1000 * c.framePeriodMs) && inN 10 c.ppsWidthUs 500000 && inI (-65535) c.qanatAsym 65535
    && c.asymIn.all (fun x => inI (-524287) x 524287) && c.asymOut.all (fun x => inI (-524287) x 524287)
    && c.sensorPort.all (fun (x : SensorPtpCfg) => inI (-7) x.logSync 0)
    && c.trig.all (fun (x : TrigCfg) => x.ok c.period)

/-! ### ISLANDS -/

/-- Bytes of the LPDDR5X space (R474, R475): 7/8 of the raw capacity. -/
def MemCfg.space (m : MemCfg) : Nat := m.capacity * 2 ^ 30 * (if m.if1 then 2 else 1) / 8 * 7

/-- Two byte ranges meet. -/
def meets (a an b bn : Nat) : Bool := decide (a < b + bn) && decide (b < a + an) && decide (0 < an) && decide (0 < bn)

/-- No two ranges of a list meet. -/
def apart : List (Nat × Nat) → Bool
  | [] => true
  | x :: xs => xs.all (fun y => !meets x.1 x.2 y.1 y.2) && apart xs

/-- Memory settings (R474, R475). -/
def MemCfg.ok (m : MemCfg) (capture : Nat) : Bool :=
  let mb := 2 ^ 20
  let caps := m.regions.filter fun (r : DramRegion) => r.kind == .capture
  [3200, 4267, 5500, 6400, 7500, 8533].contains m.rate && [2, 4, 8, 16].contains m.capacity && inN 1 m.scrubPeriod 24
    && decide (m.regions.length ≤ 16)
    && m.regions.all (fun (r : DramRegion) => r.base % mb == 0 && r.bytes % mb == 0 && decide (r.base + r.bytes ≤ m.space))
    && apart (m.regions.map fun (r : DramRegion) => (r.base, r.bytes))
    && (match caps with | [] => true | [r] => decide (capture ≠ 0) && r.bytes == capture | _ => false)

/-- The ISLANDS section (R92, R474, R475). -/
def IslCfg.ok (c : IslCfg) (m : MemCfg) : Bool :=
  (c.captureSize == 0 || inN (64 * 2 ^ 20) c.captureSize (8 * 2 ^ 30)) && m.ok c.captureSize

/-! ### PORT -/

/-- R120, R124. -/
def CsiCfg.ok (c : CsiCfg) : Bool :=
  (if c.cphy then [1, 2, 3].contains c.lanes && inN 80 c.rate 6000 else [1, 2, 4].contains c.lanes && inN 80 c.rate 4500)
    && c.firstRow.all (fun x => inI (-8388607) x 8388607) && c.rowPeriod.all (fun x => inN 1 x 1048575)

/-- R125, R128: 0 SGMII, 1 2500BASE-X, 2 USXGMII, 3 10GBASE-R, and a fixed speed that the PCS allows. -/
def EthCfg.ok (c : EthCfg) : Bool :=
  (match c.pcs with
   | 0 => [0, 10, 100, 1000].contains c.speed
   | 1 => [0, 2500].contains c.speed
   | 2 => [0, 10, 100, 1000, 2500, 5000, 10000].contains c.speed
   | 3 => [0, 10000].contains c.speed
   | _ => false) && decide (c.matchers.length ≤ 16)

/-- R135 to R138. -/
def SpiCfg.ok (c : SpiCfg) : Bool :=
  inN 1000 c.sclkKhz 50000 && decide (c.init.length ≤ 32)
    && c.init.all (fun (x : Bytes × Nat) => inN 1 x.1.length 8 && decide (x.2 ≤ 10000))
    && decide (c.init.foldl (fun (n : Nat) (x : Bytes × Nat) => n + x.2) 0 ≤ 20000) && decide (c.checks.length ≤ 4)
    && decide (c.pref.length ≤ 8) && inN 1 c.length 64 && decide (c.startDelay ≤ 100000) && inN 50 c.pollPeriod 100000

/-- R141. -/
def EncCfg.ok (c : EncCfg) : Bool := decide (c.minPulse ≤ 2000) && decide (c.countsPerRev < 2 ^ 24) && decide (c.indexTol ≤ 15)

/-- R142, R143. -/
def CanCfg.ok (c : CanCfg) : Bool :=
  inN 125 c.nominal 1000 && (c.fdRate == 0 || inN 1000 c.fdRate 8000) && (c.xlRate == 0 || inN 2000 c.xlRate 10000)
    && decide (c.filters.length ≤ 32) && c.filters.all (fun (f : CanFilter) => decide (f.format ≤ 2))

/-- R146: a step of a script. -/
def ScriptStep.ok : ScriptStep → Bool
  | .write _ d => decide (d.length ≤ 32)
  | .readCheck _ _ e m => e.length == m.length
  | .delay u => decide (u ≤ 100000)

/-- R145, R146. -/
def BusCfg.ok (c : BusCfg) : Bool :=
  (if c.i3c then inN 1 c.rateKhz 12500 && inN 1 c.legacyKhz 1000 else [100, 400, 1000].contains c.rateKhz && c.dynamics.isEmpty) && inN 1 c.stretchTimeout 100 && decide (c.script.steps.length ≤ 256) && c.script.steps.all ScriptStep.ok

/-- A PORT section (R117, R118): the kind of its content is that of the island INSTANCE; 14 and 15 are rejected. DEDUCED, log entry 30. -/
def PortCfg.ok (inst : Nat) : PortCfg → Bool
  | .csi c => decide (inst < 8) && c.ok
  | .eth c => inN 8 inst 13 && c.ok
  | .spi c => inN 16 inst 19 && c.ok
  | .enc c => inN 20 inst 27 && c.ok
  | .can c => inN 28 inst 31 && c.ok
  | .bus c => inN 32 inst 33 && c.ok

/-- The headgates that a port's selectors name, with the selector (R119, R128, R143). -/
def PortCfg.selectors : PortCfg → List (Nat × Fin 64)
  | .eth c => c.matchers.zipIdx.map fun (x : EthMatch × Nat) => (x.2, x.1.headgate)
  | .can c => c.filters.zipIdx.map fun (x : CanFilter × Nat) => (x.2, x.1.headgate)
  | _ => []

/-! ### HEADGATE -/

/-- R131. -/
def Extractor.ok (e : Extractor) : Bool := decide (e.dest ≤ 13) && decide (e.type ≤ 6) && decide (e.scope ≤ 2)

/-- A parser template (R129, R130). -/
def Template.ok (t : Template) : Bool :=
  let sensor := t.extractors.filter fun (e : Extractor) => e.dest == 3
  inN 16 t.payloadLen 9170 && inN 1 t.blockCount 64 && decide (t.blockOffset0 ≤ 9169) && decide (t.blockStride ≤ 9169)
    && inN 1 t.channels 256 && decide (t.channelOffset0 ≤ 4095) && decide (t.channelStride ≤ 4095)
    && decide (t.blockDt < 2 ^ 24) && decide (t.channelDt < 2 ^ 20) && (!t.depth || (t.blockDt == 0 && t.channelDt == 0))
    && decide (t.pktLatency < 2 ^ 28) && decide (t.timeUnit ≤ 2) && inI (-(2 ^ 27)) t.timeAdj (2 ^ 27)
    && inN 1 t.extractors.length 32 && t.extractors.all Extractor.ok
    && t.extractors.all (fun (e : Extractor) => decide (t.place e (t.blockCount - 1) (t.channels - 1) + rawSize e.type ≤ t.payloadLen))
    && decide (t.channels * t.blockCount ≤ 1024)
    && (!t.sensorTime || (match sensor with | [e] => e.scope == 0 | _ => false))

/-- R159. -/
def FieldEntry.ok (f : FieldEntry) : Bool :=
  decide (f.type ≤ 6) && [5, 6, 13].contains f.out && !(f32Val f.min).isNan && !(f32Val f.max).isNan
    && !(f32Val f.slewMax).isNan && (f32Val f.slewMax).rat ≥ 0 && !(f32Val f.spikeLimit).isNan && (f32Val 0).lt (f32Val f.spikeLimit)

/-- The port types that may feed a kind (R150). -/
def HgKind.portOk (k : HgKind) (port : Nat) (depth : Option Bool) : Bool :=
  match k with
  | .points => inN 8 port 13 && depth == some false
  | .depth => inN 8 port 13 && depth == some true
  | .camera => decide (port < 8)
  | .scalar => inN 16 port 19 || inN 28 port 31 || inN 8 port 13
  | .edge => inN 20 port 27

/-- Bytes of the largest record of a stream whose size the kind alone gives (R479). DEDUCED, log entry 86. -/
def HgKind.largest : HgKind → Nat | .points => 64 | .depth => 32 | .scalar => 64 | .edge => 32 | .camera => 32

/-- The profile's check value stands where R158 takes it from. -/
def HgCfg.profileOk (c : HgCfg) (t : Option Template) : Bool :=
  c.profile == .none || (match t with
    | some t => (match t.profileCheck with | some e => e.scope == 0 | none => false)
    | none => c.fields.any fun (f : FieldEntry) => f.role == .check)

/-- A HEADGATE section (R150, R154 to R169, R479). -/
def HgCfg.ok (c : HgCfg) (t : Option Template) : Bool :=
  let framed := c.kind == .points || c.kind == .depth
  c.kind.portOk c.port (t.map Template.depth) && (!framed || t.isSome) && (t.isNone || framed)
    && (match t with | some t => t.ok && decide (t.pktLatency ≤ c.stampWindow * ticksPerUs) | none => true)
    && decide (c.selector ≤ if c.port < 14 then 15 else if c.port < 28 then c.selector else 31)
    && decide (c.template ≤ 15) && (c.kind != .camera || inN 1 c.rows 8192)
    && inN 100 c.pktGap 100000 && (c.timeout == 0 || inN 1 c.timeout 2000) && decide (c.probation ≤ 64) && decide (c.crcStart ≤ 9169)
    && decide (c.dataId.length ≤ 4) && pow2In 4096 c.flumeBytes 1048576 && decide (2 * c.kind.largest ≤ c.flumeBytes)
    && decide (c.flumeLevel ≤ c.flumeBytes) && c.flumeLevel % 16 == 0
    && inI (-(2 ^ 27)) c.latency (2 ^ 27) && inN 100 c.stampWindow 100000 && decide (c.timeTol ≤ 1000)
    && decide (c.latency ≤ c.stampWindow * ticksPerUs)
    && inI 0 c.rangeMin (100 * 65536) && inI 6554 c.rangeMax (1000 * 65536)
    && c.profileOk t && (c.kind != .scalar || inN 1 c.fields.length 8) && c.fields.all FieldEntry.ok
    && (c.ctrBits == 0 || inN 4 c.ctrBits 32) && decide (c.epochBits ≤ 8) && decide (c.epochBits ≤ c.ctrBits) && inN 1 c.maxGap 255
    && decide (c.reorder ≤ 10000) && inN 1 c.failMask 255 && inN 1 c.recover 4096 && decide (c.probConf ≤ 255) && decide (c.confStep ≤ 255)
    && inN 1 c.confRise 255
    && (c.timeout == 0 || c.kind == .scalar || c.kind == .edge || decide (c.pktGap < c.timeout * 1000))

/-! ### POSE -/

/-- The POSE section by itself (R194 to R197, R212). -/
def PlCfg.ok (c : PlCfg) : Bool :=
  decide (c.encs.length ≤ 8) && decide (c.imus.length ≤ 4) && c.encs.any (fun (e : PlEnc) => e.right) && c.encs.any (fun (e : PlEnc) => !e.right)
    && c.imus.all (fun (i : PlImu) => inN 50 i.periodUs 100000)
    && inN 10 c.lag 5000 && inQ (1/10) c.track 5 && inN 100 c.wheelPeriod 10000 && inN 500 c.wheelWin 20000 && inN 5000 c.stillTime 500000
    && inQ (1/100) c.slipV 2 && inQ (1/100) c.slipOmega 2 && inN 1 c.slipCount 32 && inN 1 c.slipClear 255
    && inQ 0 c.encTol (1/2) && inQ 0 c.encTolAbs 1 && inQ (5/1000) c.imuTolOmega 1 && inQ (5/100) c.imuTolAcc 10 && inN 1 c.imuCount 64
    && inN 100 c.maskHold 10000 && decide (c.extrapMax ≤ 100) && inN 1 c.coastMax 1000 && inN 50 c.imuOnlyMax 10000
    && [c.gyroF32, c.accF32, c.bgF32, c.baF32, c.scaleF32, c.wheelVF32, c.wheelWF32, c.zuptF32].all f32IsFin

end Sys2Proof.Machine
end

