-- ==== Sys2Proof/Machine/TrackerOps.lean ====
section
/-! DEFINITION. The Tracker's frame task: cost, assignment, lifecycle, track tensor and memory build (spec 13 R330 to R334, R339, spec 14). -/

namespace Sys2Proof.Machine

open Sys2Proof

/-- A tensor's base in a frame (R286). -/
def ParityBase.at_ (b : ParityBase) (frame : BitVec 64) : Nat := b.base + if frame.toNat % 2 = 1 then b.odd else 0

/-- Entry (i, j) of a track's covariance. -/
def pAt (p : List Word) (i j : Nat) : Word := p.getD (4 * i + j) 0

/-- A 4 × 4 matrix from its entries. -/
def p4 (f : Nat → Nat → Word) : List Word := (List.range 16).map fun k => f (k / 4) (k % 4)

/-- One detection (R342). -/
structure Detection where
  /-- Elements 0 to 9. -/
  v : List Word
  support : Word
  /-- Detection time Bₙ + τ × P. -/
  t : T64
  valid : Bool
deriving DecidableEq, Repr

/-- Element k of a detection. -/
def Detection.el (d : Detection) (k : Nat) : Word := d.v.getD k 0

/-- Read detection d of frame n, opened at `b` with period `p` ticks (R342, R343). -/
def TrkCfg.detection (c : TrkCfg) (m : Memory) (n : BitVec 64) (b : T64) (p d : Nat) : Detection :=
  let el (k : Nat) : Word := BitVec.ofNat 32 (m.readNat .cistern (c.det.at_ n + 64 * d + 4 * k) 4)
  let v := (List.range 10).map el
  let sup := BitVec.ofNat 32 (m.readNat .cistern (c.detSupport.at_ n + 4 * d) 4)
  let fin := v.all f32IsFin
  { v := v, support := sup
    t := b + BitVec.ofInt 64 (if fin then rneRat ((f32Val (el 9)).rat * (p : Rat)) else 0)
    valid := fin && f32Lt 0 (el 2) && f32Lt 0 (el 3) && f32Le 0 (el 7) && f32Le (el 7) 0x3F800000
      && f32Le 0 (el 9) && f32Lt (el 9) 0x40000000 && sup.setWidth 24 != (0 : BitVec 24) }

/-- The planar change from one reference pose to the next (R344, R219), by the arithmetic of R221: rotation and shift in F32. -/
structure Move where
  c : Word
  s : Word
  dx : Word
  dy : Word
deriving DecidableEq, Repr

/-- The change from reference pose `a` to reference pose `b`. -/
def moveBetween (a b : PoseRec) : Move :=
  let dX := l64DiffQ a.x b.x
  let dY := l64DiffQ a.y b.y
  let c := cosTurn b.heading
  let s := sinTurn b.heading
  let dpsi := a.heading - b.heading
  { c := fOfRat (cosR dpsi), s := fOfRat (sinR dpsi)
    dx := fOfRat ((satInt 32 (qTrig dX c + qTrig dY s) : Rat) / 65536)
    dy := fOfRat ((satInt 32 (qTrig dY c - qTrig dX s) : Rat) / 65536) }

/-- Two reference poses of which one is missing: the spec states no change (R222, R344). DESIGN CHOICE, log entry 39. -/
def moveOpen (n : BitVec 64) : Move := ⟨Config.trackMove n 0, Config.trackMove n 1, Config.trackMove n 2, Config.trackMove n 3⟩

/-- Take a track into the next reference frame (R344). DESIGN CHOICE, log entry 188. -/
def Track.move (k : Track) (m : Move) : Track :=
  let rot (x y : Word) : Word × Word := (fSub (fMul m.c x) (fMul m.s y), fAdd (fMul m.s x) (fMul m.c y))
  let (x, y) := rot k.x k.y
  let (vx, vy) := rot k.vx k.vy
  let r (i j : Nat) : Word :=
    if i / 2 ≠ j / 2 then 0 else if i % 2 = j % 2 then m.c else if i % 2 = 0 then f32Neg m.s else m.s
  let rp := p4 fun i j => (List.range 4).foldl (fun a l => fAdd a (fMul (r i l) (pAt k.p l j))) 0
  let rpr := p4 fun i j => (List.range 4).foldl (fun a l => fAdd a (fMul (pAt rp i l) (r j l))) 0
  { k with x := fAdd x m.dx, y := fAdd y m.dy, vx := vx, vy := vy, p := rpr }

/-- Predict over a span of ticks: constant velocity; the process noise's form is open (R344). DESIGN CHOICE, log entry 40.
DESIGN CHOICE, log entry 188. -/
def Track.predict (k : Track) (c : TrkCfg) (span : Int) : Track :=
  let dt := fOfRat ((span : Rat) / (ticksPerSec : Rat))
  let f (i j : Nat) : Word := if i = j then 0x3F800000 else if j = i + 2 then dt else 0
  let fp := p4 fun i j => (List.range 4).foldl (fun a l => fAdd a (fMul (f i l) (pAt k.p l j))) 0
  let fpf := p4 fun i j => fAdd ((List.range 4).foldl (fun a l => fAdd a (fMul (pAt fp i l) (f j l))) 0)
    (if i % 2 = j % 2 then Config.trackNoise c.accNoise dt (i / 2 + j / 2) else 0)
  { k with x := fAdd k.x (fMul k.vx dt), y := fAdd k.y (fMul k.vy dt), p := fpf }

/-- Innovation covariance S and distance g of a track predicted to a detection (R344). -/
def Track.innovation (k : Track) (d : Detection) : Word × Word × Word × Word × Word :=
  let nx := fSub (d.el 0) k.x
  let ny := fSub (d.el 1) k.y
  let sxx := fAdd (pAt k.p 0 0) (fMul (d.el 2) (d.el 2))
  let syy := fAdd (pAt k.p 1 1) (fMul (d.el 3) (d.el 3))
  (nx, ny, sxx, pAt k.p 0 1, syy)

/-- g = νᵀS⁻¹ν (R344). DESIGN CHOICE, log entry 188. -/
def Track.distance (k : Track) (d : Detection) : Word :=
  let (nx, ny, sxx, sxy, syy) := k.innovation d
  let det := fSub (fMul sxx syy) (fMul sxy sxy)
  let q := fAdd (fSub (fMul (fMul nx nx) syy) (fMul 0x40000000 (fMul (fMul nx ny) sxy))) (fMul (fMul ny ny) sxx)
  fDiv q det

/-- The Kalman update at a detection (R350). DESIGN CHOICE, log entry 188. -/
def Track.update (k : Track) (d : Detection) : Track :=
  let (nx, ny, sxx, sxy, syy) := k.innovation d
  let det := fSub (fMul sxx syy) (fMul sxy sxy)
  let ixx := fDiv syy det
  let iyy := fDiv sxx det
  let ixy := f32Neg (fDiv sxy det)
  let g (i : Nat) : Word × Word :=
    (fAdd (fMul (pAt k.p i 0) ixx) (fMul (pAt k.p i 1) ixy), fAdd (fMul (pAt k.p i 0) ixy) (fMul (pAt k.p i 1) iyy))
  let step (i : Nat) : Word := fAdd (fMul (g i).1 nx) (fMul (g i).2 ny)
  { k with x := fAdd k.x (step 0), y := fAdd k.y (step 1), vx := fAdd k.vx (step 2), vy := fAdd k.vy (step 3)
           p := p4 fun i j => fSub (pAt k.p i j) (fAdd (fMul (g i).1 (pAt k.p 0 j)) (fMul (g i).2 (pAt k.p 1 j))) }

/-- The quantised cost (R345). -/
def quantise (cost : Word) : Nat :=
  match f32Val cost with
  | .nan => 16777214
  | .inf neg => if neg then 0 else 16777214
  | v => (clampInt 0 16777214 (v.rat * 65536 + 1 / 2).floor).toNat

/-- The forbidden cost (R345). -/
def forbidden : Nat := 16777215

/-! ### Assignment (R346 to R348) -/

/-- A column's entry while one row is added: distance and the row it was reached from. -/
structure Reach where
  col : Nat
  dist : Int
  from_ : Nat
deriving DecidableEq, Repr

/-- Potentials and owners of the columns touched so far. -/
structure Assign where
  v : List (Nat × Int) := []
  owner : List (Nat × Nat) := []
  steps : Nat := 0
deriving DecidableEq, Repr

/-- Value of a key in an association list. -/
def lookupD {α : Type} (l : List (Nat × α)) (k : Nat) (d : α) : α := match l.find? (·.1 == k) with | some (_, v) => v | none => d

/-- Set a key of an association list. -/
def assocSet {α : Type} (l : List (Nat × α)) (k : Nat) (x : α) : List (Nat × α) :=
  if l.any (·.1 == k) then l.map fun e => if e.1 = k then (k, x) else e else l ++ [(k, x)]

/-- The column outside `done` with the least distance, the lowest on a tie (R347). -/
def leastReach (rs : List Reach) (fin : List Nat) : Option Reach :=
  rs.foldl (fun (b : Option Reach) r =>
    if fin.contains r.col then b else
    match b with
    | none => some r
    | some x => if r.dist < x.dist ∨ (r.dist = x.dist ∧ r.col < x.col) then some r else some x) none

/-- Relax through the row that owns column j (R347). -/
def Assign.relax (a : Assign) (cost : Nat → List (Nat × Nat)) (j : Reach) (k : Nat) (fin : List Nat) (rs : List Reach) : List Reach :=
  let ckj : Int := ((lookupD (cost k) j.col 0 : Nat) : Int)
  (cost k).foldl (fun (rs : List Reach) (l, ckl) =>
    if fin.contains l then rs else
    let nd := j.dist + ((ckl : Int) - lookupD a.v l 0) - (ckj - lookupD a.v j.col 0)
    match rs.find? (·.col == l) with
    | some r => if nd < r.dist then rs.map fun r => if r.col = l then ⟨l, nd, k⟩ else r else rs
    | none => rs ++ [⟨l, nd, k⟩]) rs

/-- Give columns along the path to their new rows (R347). -/
def Assign.augment (i : Nat) (rs : List Reach) : Nat → Nat → List (Nat × Nat) → List (Nat × Nat)
  | 0, _, own => own
  | n + 1, j, own =>
    let r := match rs.find? (·.col == j) with | some x => x.from_ | none => i
    let prev := (own.find? fun e => e.2 == r && e.1 != j).map (·.1)
    let own := assocSet own j r
    if r = i then own else match prev with | some p => Assign.augment i rs n p own | none => own

/-- Search from one row (R347): the state after it, or none when the step budget stops it. DEDUCED, log entry 119. -/
def Assign.search (a : Assign) (cost : Nat → List (Nat × Nat)) (i : Nat) : Nat → List Reach → List Nat → Option Assign
  | 0, _, _ => none
  | n + 1, rs, fin =>
    match leastReach rs fin with
    | none => some a
    | some j =>
      let a := { a with steps := a.steps + 1 }
      if 24576 < a.steps then none else
      match a.owner.find? (·.1 == j.col) with
      | none =>
        let v := fin.foldl (fun v l => match rs.find? (·.col == l) with | some r => assocSet v l (lookupD v l 0 + r.dist - j.dist) | none => v) a.v
        some { a with v := v, owner := Assign.augment i rs (fin.length + 2) j.col a.owner }
      | some (_, k) => Assign.search a cost i n (a.relax cost j k (j.col :: fin) rs) (j.col :: fin)

/-- Add rows in ascending order; the first row left unmatched by the budget is answered (R347, R348). DEDUCED, log entry 119. -/
def Assign.solve (cost : Nat → List (Nat × Nat)) : List Nat → Assign → Assign × Option Nat
  | [], a => (a, none)
  | i :: rest, a =>
    match a.search cost i 24577 ((cost i).map fun (j, c) => ⟨j, (c : Int) - lookupD a.v j 0, i⟩) [] with
    | some b => Assign.solve cost rest b
    | none => ({ a with steps := 24576 }, some i)

/-! ### Lifecycle -/

/-- Ceiling of a support set: the largest confidence over the headgates of its sensors (R352). `hg` gives the headgate of bit s. -/
def ceiling (conf : Vector (BitVec 8) 64) (hg : Nat → Option (Fin 64)) (support : BitVec 24) : Nat :=
  (List.range 24).foldl (fun m s => if support.getLsbD s then (match hg s with | some h => max m conf[h].toNat | none => m) else m) 0

/-- Support set of a track in frame n (R352). -/
def Track.support (k : Track) (c : TrkCfg) (n : BitVec 64) : BitVec 24 :=
  (k.masks.filter fun e => decide ((n - e.1).toNat < c.supportFrames)).foldl (fun (a : BitVec 24) (e : BitVec 64 × BitVec 24) => a ||| e.2) 0

/-- Confidence update (R353). -/
def confAfter (c : TrkCfg) (conf : Nat) (matched : Bool) (ceil : Nat) : Nat :=
  let v := if matched then min 255 (conf + c.confHit) else conf - c.confMiss
  if ceil < v then max ceil (v - c.maskDrop) else v

/-- State, HITS and MISSES of a track (R351), without its last row. -/
def lifeStep (c : TrkCfg) (st : TrackSt) (hits misses : Nat) (matched : Bool) : TrackSt × Nat × Nat :=
  let h := min 255 (hits + 1)
  match st, matched with
  | .tentative, true => (if c.confirmHits ≤ hits + 1 then .confirmed else .tentative, h, misses)
  | .tentative, false => if c.tentMiss ≤ misses + 1 then (.retired, hits, misses) else (.tentative, hits, min 255 (misses + 1))
  | .confirmed, true => (.confirmed, h, 0)
  | .confirmed, false => (.coasting, hits, 1)
  | .coasting, true => (.confirmed, h, 0)
  | .coasting, false => if c.coastMax ≤ misses + 1 then (.retired, hits, misses) else (.coasting, hits, min 255 (misses + 1))
  | .retired, _ => (.retired, hits, misses)

/-- |x| or |y| has reached CROP_XY, in metres (R351). -/
def Track.beyond (k : Track) (crop : Rat) : Bool :=
  let out (w : Word) : Bool := match f32Val w with | .nan => false | .inf _ => true | v => decide (crop ≤ absRat v.rat)
  out k.x || out k.y

/-- One track after assignment (R350 to R353). `crop` is CROP_XY, `gone` the frames since the tracks before. -/
def Track.after (k : Track) (c : TrkCfg) (n : BitVec 64) (conf : Vector (BitVec 8) 64) (hg : Nat → Option (Fin 64)) (crop : Rat)
    (tov tovN : T64) (gone : Nat) (hit : Option (Nat × Detection × Nat)) : Track :=
  let upd : Track := match hit with
    | some (i, d, q) =>
      let u := (k.predict c (tDiff d.t tov)).update d
      { u with length := d.el 4, width := d.el 5, heading := d.el 6, cls := d.el 8
               masks := (n, d.support.setWidth 24) :: k.masks, matched := true, det := some i, cost := q }
    | none => { k with matched := false, det := none, cost := 0xFFFFFF }
  let from_ := match hit with | some (_, d, _) => d.t | none => tov
  let u := upd.predict c (tDiff tovN from_)
  let u := { u with masks := u.masks.filter fun (e : BitVec 64 × BitVec 24) => decide ((n - e.1).toNat < c.supportFrames) }
  let ceil := ceiling conf hg (u.support c n)
  let cf := confAfter c k.conf hit.isSome ceil
  -- the last row of the table has no action
  let (st, hits, misses) := if cf = 0 ∨ u.beyond crop = true then (.retired, k.hits, k.misses) else lifeStep c k.st k.hits k.misses hit.isSome
  { u with st := st, hits := hits, misses := misses, conf := cf
           orphaned := ceil == 0, age := k.age + gone }

/-- A newborn track at a detection, propagated to the track time; one that lies beyond CROP_XY there is retired at once (R349, R351).
DESIGN CHOICE, log entry 188. -/
def TrkCfg.newborn (c : TrkCfg) (slot : Nat) (gen : BitVec 6) (n : BitVec 64) (crop : Rat) (d : Detection) (i ceil : Nat) (tovN : T64) : Track :=
  let k : Track := { slot := slot, gen := gen, st := .tentative, x := d.el 0, y := d.el 1, vx := 0, vy := 0
                     p := p4 fun a b => if a ≠ b then 0 else if a = 0 then fMul (d.el 2) (d.el 2) else if a = 1 then fMul (d.el 3) (d.el 3)
                       else fMul c.initSdV c.initSdV
                     conf := min c.birthConf ceil, hits := 1, misses := 0, length := d.el 4, width := d.el 5, heading := d.el 6
                     cls := d.el 8, masks := [(n, d.support.setWidth 24)], matched := true
                     orphaned := ceil == 0, det := some i, cost := 0xFFFFFF, age := 0 }
  let k := k.predict c (tDiff tovN d.t)
  if k.beyond crop then { k with st := .retired } else k

/-- TRACK_ID (R349). -/
def Track.id (k : Track) : BitVec 16 := k.gen ++ BitVec.ofNat 10 k.slot

/-- A Q15.16 field of a record (R354). -/
def f32ToQ (w : Word) : Word := BitVec.ofInt 32 (toFixed {} true 32 (-16) (f32Val w)).go.1
/-- A U16 field in millimetres (R354). -/
def f32ToMm (w : Word) : Nat := match f32Val w with
  | .nan => 0 | .inf neg => if neg then 0 else 65535 | v => (clampInt 0 65535 (rneRat (v.rat * 1000))).toNat
/-- A U8 field (R354). -/
def f32ToU8 (w : Word) : Nat := match f32Val w with
  | .nan => 0 | .inf neg => if neg then 0 else 255 | v => (clampInt 0 255 (rneRat v.rat)).toNat
/-- A heading in 2⁻¹⁶ turn as U16, saturating as every conversion into the record does (R354). DEDUCED, log entry 160. -/
def f32ToTurn16 (w : Word) : Nat := match f32Val w with
  | .nan => 0 | .inf neg => if neg then 0 else 65535 | v => (clampInt 0 65535 (rneRat (v.rat * 65536 / twoPi))).toNat

/-- STATE code (R354). -/
def TrackSt.code : TrackSt → Nat | .tentative => 0 | .confirmed => 1 | .coasting => 2 | .retired => 3

/-- The track record (R354). -/
def Track.record (k : Track) (c : TrkCfg) (n : BitVec 64) (tov : T64) : Bytes :=
  packBytes 64 [(4, 1), (2, k.st.code), (1, k.matched.toNat), (1, k.orphaned.toNat), (8, k.conf), (16, k.id.toNat), (8, f32ToU8 k.cls), (8, k.hits),
    (8, k.misses), (8, 0), (32, (t32 tov).toNat), (32, (f32ToQ k.x).toNat), (32, (f32ToQ k.y).toNat), (32, (f32ToQ k.vx).toNat),
    (32, (f32ToQ k.vy).toNat), (16, f32ToMm (fSqrt (pAt k.p 0 0))), (16, f32ToMm (fSqrt (pAt k.p 1 1))), (16, f32ToMm k.length), (16, f32ToMm k.width),
    (16, f32ToTurn16 k.heading), (16, match k.det with | some d => d | none => 0xFFFF), (24, (k.support c n).toNat), (8, 0), (24, k.cost), (8, 0),
    (32, min k.age (2 ^ 32 - 1)), (96, 0)]

/-- Row of the track tensor (R354). -/
def Track.row (k : Track) : Bytes :=
  ([k.x, k.y, k.vx, k.vy, fSqrt (pAt k.p 0 0), fSqrt (pAt k.p 1 1), k.length, k.width, k.heading, k.cls, fOfRat ((k.conf : Rat) / 256),
    fOfInt k.st.code, fOfInt k.hits, fOfInt k.misses, fOfInt k.matched.toNat, 0] : List Word).flatMap fun w => leBytes 4 w.toNat

/-- The tracks a frame hands on: all but the retired ones. -/
def Tracker.live (t : Tracker) : List Track := t.tracks.filter fun k => k.st != .retired

/-- Write the track tensor of frame n (R354). -/
def Tracker.writeTensor (t : Tracker) (m : Memory) (n : BitVec 64) : Memory :=
  let rows := t.live
  let c := t.cfg
  let m := m.write .cistern (c.trkCount.at_ n) (leBytes 4 rows.length)
  (List.zip rows (List.range rows.length)).foldl (fun (m : Memory) (k, i) =>
    (m.write .cistern (c.trk.at_ n + 64 * i) k.row).write .cistern (c.trkTid.at_ n + 4 * i) (leBytes 4 k.id.toNat)) m

/-! ### The memory build (R331) -/

/-- What a track memory pass works on: a track's slot, ρ² and current position. -/
structure BuildTrack where
  slot : Nat
  id : BitVec 16
  rho : Nat
  pos : Nat
deriving DecidableEq, Repr

/-- Pages of the pool (R326). -/
def KvCfg.pageBytes (c : KvCfg) : Nat := 512 * c.hdim * (if c.e4m3 then 1 else 2)
def KvCfg.pool (c : KvCfg) : Nat := c.regionBytes / c.heads / c.pageBytes

/-- Pages and staging slots in use. -/
def usedPages (mem : Vector TrackMem 1024) : List Nat := mem.toList.flatMap fun e => e.pages.toList.filterMap fun p => p.map (·.toNat)
def usedSlots (mem : Vector TrackMem 1024) : List Nat := mem.toList.filterMap fun e => e.slot.map (·.toNat)

/-- Lowest free page and staging slot. -/
def KvCfg.freePage (c : KvCfg) (mem : Vector TrackMem 1024) : Option Nat := let u := usedPages mem; (List.range c.pool).find? fun p => !u.contains p
def KvCfg.freeSlot (c : KvCfg) (mem : Vector TrackMem 1024) : Option Nat := let u := usedSlots mem; (List.range c.stageSlots).find? fun p => !u.contains p

/-- Shift page entries down by one (R331). -/
def TrackMem.shift (e : TrackMem) : TrackMem :=
  { e with pages := #v[e.pages[1], e.pages[2], e.pages[3], none], base := BitVec.ofNat 32 (min (e.base.toNat + 256) (2 ^ 32 - 1)) }

/-- Change the entry of a slot. -/
def modMem (mem : Vector TrackMem 1024) (s : Nat) (f : TrackMem → TrackMem) : Vector TrackMem 1024 :=
  if h : s < 1024 then mem.set s (f mem[s]) else mem

/-- A history reset's effect on one entry (R339). -/
def TrackMem.cleared (e : TrackMem) : TrackMem :=
  { e with base := 0, next := 0, appended := 0, pages := Vector.replicate 4 none, slot := none, staged := false }

/-- Position of a track in the build. -/
def posOf (bs : List BuildTrack) (s : Nat) : Nat := match bs.find? (·.slot == s) with | some b => b.pos | none => 0

/-- The victim of a reclaim (R332): most complete pages, then the larger ρ², then the lower slot. -/
def victim (bs : List BuildTrack) : Option BuildTrack :=
  bs.foldl (fun (b : Option BuildTrack) k =>
    match b with
    | none => some k
    | some x => if x.pos / 256 < k.pos / 256 ∨ (x.pos / 256 = k.pos / 256 ∧ (x.rho < k.rho ∨ (x.rho = k.rho ∧ k.slot < x.slot))) then some k else some x) none

/-- Pass 3 for one track: a page for a position that opens one, after a reclaim if none is free (R331, R332). -/
def pageFor (c : KvCfg) (st : Vector TrackMem 1024 × List BuildTrack × Nat) (s : Nat) : Vector TrackMem 1024 × List BuildTrack × Nat :=
  let (mem, bs, n) := st
  if posOf bs s % 256 ≠ 0 then st else
  let (mem, bs, n) : Vector TrackMem 1024 × List BuildTrack × Nat :=
    match c.freePage mem with
    | some _ => (mem, bs, n)
    | none => match victim bs with
      | some v => (modMem mem v.slot (·.shift), bs.map fun b => if b.slot = v.slot then { b with pos := b.pos - 256 } else b, n + 1)
      | none => (mem, bs, n)
  match c.freePage mem with
  | some p => (modMem mem s fun e => { e with pages := e.pages.setIfInBounds (posOf bs s / 256) (some (BitVec.ofNat 16 p)) }, bs, n)
  | none => (mem, bs, n)

/-- Planar distance of a track in units of 2⁻³² m² (R331, R249). -/
def Track.rho (k : Track) : Nat := let x := (f32ToQ k.x).toInt; let y := (f32ToQ k.y).toInt; (x * x + y * y).toNat

/-- The memory build: entries, reclaims and the positions of the frame's tracks (R331, R339). `reset` asks for a history reset. -/
def memoryBuild (c : KvCfg) (mem : Vector TrackMem 1024) (tracks : List Track) (reset : Bool) : Vector TrackMem 1024 × List BuildTrack × Nat :=
  -- pass 1
  let mem := (tracks.filter fun k => k.st == .retired).foldl (fun (m : Vector TrackMem 1024) k => modMem m k.slot fun _ => {}) mem
  let mem := if reset then mem.map fun e => if e.live then e.cleared else e else mem
  let live := tracks.filter fun k => k.st != .retired
  let mem := live.foldl (fun (m : Vector TrackMem 1024) k => modMem m k.slot fun e => { e with id := k.id, live := true }) mem
  -- pass 2
  let (mem, bs) := live.foldl (fun (acc : Vector TrackMem 1024 × List BuildTrack) k =>
    let (m, bs) := acc
    let next : Nat := if h : k.slot < 1024 then m[k.slot].next.toNat else 0
    if next = 1024 then (modMem m k.slot (·.shift), bs ++ [⟨k.slot, k.id, k.rho, 768⟩]) else (m, bs ++ [⟨k.slot, k.id, k.rho, next⟩])) (mem, [])
  let order := (bs.foldr (fun b l => (l.filter fun x => decide (x.rho < b.rho ∨ (x.rho = b.rho ∧ x.slot < b.slot))) ++ b ::
    (l.filter fun x => !(decide (x.rho < b.rho ∨ (x.rho = b.rho ∧ x.slot < b.slot))))) []).map (·.slot)
  -- pass 3
  let (mem, bs, n) := order.foldl (pageFor c) (mem, bs, 0)
  -- pass 4
  let opens (s : Nat) : Bool := posOf bs s % 256 == 0
  let mem := order.foldl (fun (m : Vector TrackMem 1024) s => if opens s then modMem m s fun e => { e with slot := none, staged := false } else m) mem
  let mem := order.foldl (fun (m : Vector TrackMem 1024) s =>
    if opens s then (match c.freeSlot m with
      | some f => modMem m s fun e => { e with slot := some (BitVec.ofNat 8 f), staged := true }
      | none => m) else m) mem
  -- pass 5
  let mem := bs.foldl (fun (m : Vector TrackMem 1024) b =>
    modMem m b.slot fun e => { e with next := BitVec.ofNat 32 (b.pos + 1), appended := bump e.appended }) mem
  (mem, bs, n)

/-- Bytes of one copy of the generation operand block (R333). -/
def opsBytes (capacity : Nat) : Nat := (64 + 280 * capacity + 63) / 64 * 64

/-- The bucket of a length (R334). -/
def bucketOf (len : Nat) : Nat := ([32, 64, 128, 256, 512, 768, 1024].findIdx? fun k => decide (len ≤ k)).getD 6

/-- Write the generation operand block of frame n (R333, R334). `row` gives a slot's row in the track tensor. -/
def writeOps (c : KvCfg) (capacity : Nat) (m : Memory) (n : BitVec 64) (mem : Vector TrackMem 1024) (bs : List BuildTrack) (row : Nat → Nat) : Memory :=
  let base := c.opsBase + if n.toNat % 2 = 1 then opsBytes capacity else 0
  (List.range 7).foldl (fun (m : Memory) j =>
    let ts := bs.filter fun b => bucketOf (b.pos + 1) == j
    let a := base + 64 + 40 * capacity * j
    let m := m.write .cistern (base + 4 * j) (leBytes 4 ts.length)
    (List.zip ts (List.range ts.length)).foldl (fun (m : Memory) (b, t) =>
      let e : TrackMem := if h : b.slot < 1024 then mem[b.slot] else {}
      let w (m : Memory) (k v : Nat) : Memory := m.write .cistern (a + 4 * capacity * k + 4 * t) (leBytes 4 v)
      let m := w (w (w (w (w m 0 (row b.slot)) 1 b.id.toNat) 2 b.pos) 3 (b.pos + 1)) 4 b.pos
      let m := w m 5 (if e.staged then (match e.slot with | some s => s.toNat | none => 0xFFFFFFFF) else 0xFFFFFFFF)
      (List.range 4).foldl (fun (m : Memory) k =>
        m.write .cistern (a + 24 * capacity + 16 * t + 4 * k)
          (leBytes 4 (match e.pages.toList.getD k none with | some p => c.regionBase + p.toNat * c.pageBytes | none => 0xFFFFFFFF))) m) m) m

/-- What the Tracker's task of frame n reads beside its own state. -/
structure TrackEnv where
  n : BitVec 64
  b : T64
  /-- Frame period in ticks. -/
  period : Nat
  /-- Reference poses of frame n and of the frame whose tracks are in force. -/
  ref : Option PoseRec
  refOld : Option PoseRec
  /-- Headgate of each support bit, CROP_XY, stage and whether the previous frame's generation work completed. -/
  hg : List (Option (Fin 64))
  crop : Rat
  s3 : Bool
  genDone : Bool
  kv : KvCfg
  /-- The last step that the task completes; 7 unless C3 stops it (R412). -/
  last : Nat := 7
deriving DecidableEq, Repr

/-- What is in force before a task. -/
def Tracker.keep (t : Tracker) : TrackKeep := ⟨t.frame, t.tov, t.ref, t.tracks, t.gens, t.s3Built, t.built⟩

/-- The task of frame n is aborted after its work was done: the frame publishes no track, the tracks before it stay in force, and its memory build
has not completed (R355). -/
def Tracker.undo (t : Tracker) (n : BitVec 64) : Tracker :=
  if t.frame = some n then
    let k := t.kept
    { t with frame := k.frame, tov := k.tov, ref := k.ref, tracks := k.tracks, gens := k.gens, s3Built := k.s3Built
             built := some (match k.built with | some b => b | none => n - 1) }
  else t

/-- TRACKER_TASK (R355): the seven steps of frame n, up to the last that completes. DESIGN CHOICE, log entry 188. -/
def Tracker.task (t : Tracker) (e : TrackEnv) (m : Memory) : Tracker × Memory × List Ev :=
  let c := t.cfg
  let n := e.n
  let raise (k : EvKind) (d : Nat) : Ev := evt k 112 0 d
  -- step 1
  let count := m.readNat .cistern (c.detCount.at_ n) 4
  let dets := (List.range (min count 512)).map fun d => c.detection m n e.b e.period d
  let bad := (dets.filter fun d => !d.valid).length
  let old := t.live
  let tids := (List.range old.length).map fun r => BitVec.ofNat 32 (m.readNat .cistern (c.acTid.at_ n + 4 * r) 4)
  let stale := ((List.zip old tids).filter fun (k, w) => k.id.setWidth 32 != w).length
  -- steps 2 and 3
  let mv := match e.refOld, e.ref with | some a, some b => if a.valid && b.valid then moveBetween a b else moveOpen n | _, _ => moveOpen n
  let moved := old.map fun k => k.move mv
  let costOf (r : Nat) (k : Track) (i : Nat) (d : Detection) : Nat :=
    let g := (k.predict c (tDiff d.t t.tov)).distance d
    if !d.valid || f32IsNan g || f32Lt c.gate g || (c.classGate && !(f32Eq (d.el 8) k.cls)) then forbidden
    else
      let ac : Word := if (k.id.setWidth 32 : Word) = tids.getD r 0 then BitVec.ofNat 32 (m.readNat .cistern (c.ac.at_ n + 4 * (512 * r + i)) 4) else 0
      let geo := fMul c.wGeo g
      quantise (if c.wHead = 0 then geo else fAdd geo (fMul c.wHead ac))
  let dl := List.zip (List.range dets.length) dets
  let rows : List (List (Nat × Nat)) := (List.zip (List.range moved.length) moved).map fun (r, k) =>
    (dl.filterMap fun (i, d) => let q := costOf r k i d; if q = forbidden then none else some (i, q)) ++ [(512 + r, quantise c.missCost)]
  -- step 4
  let (a, stop) := Assign.solve (fun r => rows.getD r []) (List.range moved.length) {}
  let hitOf (r : Nat) : Option (Nat × Detection × Nat) :=
    match a.owner.find? fun o => o.2 == r && decide (o.1 < 512) with
    | some (i, _) => dets[i]?.map fun d => (i, d, lookupD (rows.getD r []) i 0xFFFFFF)
    | none => none
  -- step 5
  let tovN := e.b + tick ((c.tovOffset.getD (e.period / 2 / ticksPerUs)) * ticksPerUs)
  let hg (s : Nat) : Option (Fin 64) := e.hg.getD s none
  let gone := match t.frame with | some m => (n - m).toNat | none => 1
  let upd := (List.zip (List.range moved.length) moved).map fun (r, k) => k.after c n t.closeConf hg e.crop t.tov tovN gone (hitOf r)
  let taken := (List.range moved.length).filterMap fun r => (hitOf r).map (·.1)
  let free := (List.range c.capacity).filter fun s => !(t.tracks.any fun k => k.slot == s && k.st != .retired)
  let cand := dl.filter fun (i, d) => d.valid && !taken.contains i && f32Le c.birthScore (d.el 7)
    && decide (0 < ceiling t.closeConf hg (d.support.setWidth 24))
  let births := (List.zip cand free).map fun ((i, d), s) =>
    c.newborn s (if h : s < 512 then (match t.gens[s] with | some g => g + 1 | none => 0) else 0) n e.crop d i (ceiling t.closeConf hg (d.support.setWidth 24)) tovN
  let full := cand.length - births.length
  let gens := births.foldl (fun (g : Vector (Option (BitVec 6)) 512) k => if h : k.slot < 512 then g.set k.slot (some k.gen) else g) t.gens
  let all := (upd ++ births).foldr (fun k l => (l.filter fun x => decide (x.slot < k.slot)) ++ k :: l.filter fun x => !(decide (x.slot < k.slot))) []
  let solved : Tracker := { t with
    steps := if 4 ≤ e.last then a.steps else t.steps
    detInvalid := bumpBy t.detInvalid bad, staleId := bumpBy t.staleId stale
    assignBudget := bumpIf (decide (4 ≤ e.last) && stop.isSome) t.assignBudget, detClamp := bumpIf (decide (512 < count)) t.detClamp }
  let t1 : Tracker := { solved with
    frame := some n, tov := tovN, ref := e.ref, kept := t.keep, tracks := all, gens := gens, trackFull := bumpBy t.trackFull full }
  let evs4 : List Ev :=
    (if 512 < count then [raise .detClamp count] else []) ++ (if bad = 0 then [] else [evtOpen .detInvalid 112 0])
      ++ (match stop with | some r => if 4 ≤ e.last then [raise .assignBudget r] else [] | none => [])
  if e.last < 5 then (solved, m, evs4) else
  let evs5 := evs4 ++ (if full = 0 then [] else [evtOpen .trackFull 112 0])
  if e.last < 6 then (t1, m, evs5) else
  -- step 6
  let m := t1.writeTensor m n
  if e.last < 7 then (t1, m, evs5) else
  -- step 7
  let first := e.s3 && !t.s3Built
  let lapsed := !e.genDone || (match t.built with | some b => b != n - 1 | none => false)
  let reset := first || lapsed
  let (mem, bs, rec) := memoryBuild e.kv t.mem all reset
  let live := t1.live
  let rowOf (s : Nat) : Nat := (live.findIdx? fun k => k.slot == s).getD 0
  let m := if e.s3 then writeOps e.kv c.capacity m n mem bs rowOf else m
  let t2 : Tracker := { t1 with mem := mem, s3Built := t.s3Built || e.s3, built := some n
                                kvReclaim := bumpBy t.kvReclaim rec, historyResets := bumpIf reset t.historyResets }
  (t2, m, evs5 ++ (if reset then [raise .kvHistoryReset (if first then 0 else 1)] else []) ++ (if rec = 0 then [] else [raise .kvReclaim rec]))

end Sys2Proof.Machine
end

