-- ==== Sys2Proof/Machine/CheckBlocks.lean ====
section
/-! DEFINITION. The content rules of the other sections, each section by itself (spec 03 R79, R80; spec 09 R216, R217, R228 to R239;
spec 10 R244 to R272; spec 11 R278; spec 13 R326; spec 14 R356; spec 15 R360, R361, R374, R383; spec 16 R391, R404; spec 17 R421, R427;
spec 18 R444; spec 19 R453 to R463; spec 21 R487). -/

namespace Sys2Proof.Machine

open Sys2Proof

/-! ### CHANNEL_B, GUARD, SAFETY, QANAT -/

/-- Fields that a range sensor and a camera share (R216): 2.5° is 43.6333 mrad and 0.01° is 0.174532 mrad. DEDUCED, log entry 84. -/
def Geometry.ok (g : Geometry) : Bool :=
  inI (-(2 ^ 27)) g.dtNom (2 ^ 27) && inQ (174532/1000000) g.rotBound (436334/10000) && inQ 1 g.transBound 100 && inQ 0 g.dtBound 5000

/-- PAU_RS (R216). -/
def RsCfg.ok (r : RsCfg) : Bool := r.geo.ok && decide (r.asof ≤ 5000) && decide (r.cams.length ≤ 3)

/-- A speed table does not decrease. -/
def rising : List Nat → Bool
  | a :: b :: l => decide (a ≤ b) && rising (b :: l)
  | _ => true

/-- The CHANNEL_B section (R391, R216). CLR_MARGIN is at least the cell diagonal: its square is at least twice the square of CELL. -/
def CbCfg.ok (c : CbCfg) (rs : Vector (Option RsCfg) 8) : Bool :=
  [10, 20, 40].contains c.cell && [128, 256, 512].contains c.size && inI (-500) c.zLo 1000 && inI 500 c.zHi 4000 && decide (c.zLo < c.zHi)
    && inN 50 c.hold 5000 && inN 20 c.seenAge 1000 && decide (2 * (c.cell * 10) ^ 2 ≤ c.clrMargin ^ 2) && decide (c.clrMargin ≤ 1000)
    && inN 1000 c.clearMax 30000 && inN 9 c.kbins 33 && c.kbins % 2 == 1 && inN 250 c.kappaSpan 4000
    && decide (c.front ≤ 5000) && decide (c.rear ≤ 5000) && inN 100 c.halfWidth 1000 && decide (c.sideMargin ≤ 500)
    && inN 250 c.tablePeriod 2000 && inN 10 c.dStep 50
    && c.speedTable.length == 256 && c.speedTable.all (fun v => decide (v < 65536)) && c.speedTable.head? == some 0 && rising c.speedTable
    && decide (c.halfWidth + c.sideMargin ≤ 1000)
    && rs.all (fun (r : Option RsCfg) => match r with | some r => r.ok | none => true)

/-- The GUARD section (R404). -/
def GuardCfg.ok (c : GuardCfg) : Bool :=
  inN 100 c.vCap 10000 && decide (c.vRevCap ≤ 2000) && decide (c.s2Cap ≤ c.vCap) && decide (c.kWidth ≤ 16) && inN 1 c.cmdMaxAge 100
    && inN 10 c.aMaxAge 200 && [32, 64, 128].contains c.sumSize && c.sumBase % 64 == 0 && decide (c.sumBase < 2 ^ 27) && decide (c.envExtra ≤ 2000)
    && inN 1 c.cellMin 64 && inN 100 c.margin 5000 && inN 1 c.c2Count 16 && inN 1 c.clearFrames 64

/-- Every event (R406). -/
def EvKind.all : List EvKind :=
  [.srcLocked, .srcUnlocked, .gmChange, .srcLost, .mapJump, .holdover, .ref10mLost, .gridStretch, .eventsLost, .replayOrder, .replayGap, .captureLoss,
   .svnCommitted, .stageEntry, .stageLate, .imgSectionFail, .safetyState, .c2Release, .safeOkStuck, .supervisorLost, .supervisorsLost,
   .supervisorDisagree, .selftestFail, .startMiss, .runShort, .runLong, .deadlineMiss, .timingEscalate, .goldenFail, .imuInitFail, .encIndex,
   .scriptFail, .busStuck, .busDead, .busOff, .busOffRecovered, .streamTimeout, .streamAbsent, .streamMasked, .probationEnd, .flumeLevel, .flumeUe,
   .cmdFlumeUe, .seqMemUe, .poseInputBehind, .poseDegraded, .poseLost, .wheelSlip, .slipClear, .imuReject, .encReject, .poseEvicted, .plLockstep,
   .plRungLate, .alignStep, .alignStepFail, .alignConverged, .alignHeld, .alignMoved, .sensorMisaligned, .pointCap, .voxelDrop, .rbDrop, .queueFlush,
   .arithFlags, .tensorClamp, .indexRange, .kvNoPage, .syncTimeout, .rbMismatch, .teEccUe, .attBucket, .cmdFlumeLevel, .cmdFlumeOverrun, .kvReclaim,
   .kvHistoryReset, .detInvalid, .detClamp, .trackFull, .assignBudget, .pathInvalid, .qsaNumeric, .qsaNoFeasible, .qsaFeedBad, .cbEcc, .cbTableLate,
   .cbMemUe, .weirMismatch, .weirConflict, .weirNoSummary, .weirDiverge, .guardLockstep, .guardLate, .guardEcc, .twinLinkUp, .twinLinkLost,
   .twinPeerUnknown, .twinUnmatched, .twinResync, .twinPeerSafe, .twinDisagree, .twinCrossChecked, .roleChange, .roleConflict, .witnessLost, .outTxDrop,
   .outTxStale, .cisternCe, .cisternUe, .cisternUeFree, .dramCe, .dramUe, .memTrainFail, .clockFail, .supplyFail, .tempWarn, .tempLimit]

/-- The class table (R406): no entry of 5 to 7, and none below the floor of its event. -/
def classTableOk (t : BitVec 16384) : Bool :=
  let entry (code : Nat) : Nat := (t.extractLsb' (4 * code) 3).toNat
  (List.range 4096).all (fun code => decide (entry code ≤ 4))
    && EvKind.all.all fun (k : EvKind) => let x := entry (Config.eventCode k).toNat; x == 0 || decide ((evFloor k).code ≤ x)

/-- The SAFETY section by itself (R404, R406, R427). -/
def SafeCfg.ok (c : SafeCfg) : Bool :=
  classTableOk c.classTable && decide (c.reducedCap ≤ 1000) && inN 1 c.timingC2 16 && inN 10 c.c2Clear 1000 && inN 1 c.c2RearmMax 7

/-- The QANAT section (R444). -/
def QanatCfg.ok (c : QanatCfg) : Bool :=
  inN 2 c.linkTimeout 64 && inN 2 c.aliveTimeout 63 && decide (c.aliveTimeout < c.linkTimeout) && inN 5 c.witnessTimeout 100
    && inN 1 c.xcSkew 1000 && inN 1 c.xcWait 4 && inN 1 c.xcMiss 16 && inN 1 c.xcFail 16 && decide (c.xcGridBits ≤ 1024)
    && decide (c.xcFreeMm ≤ 6400) && inN 1 c.xcTrackCm 500 && decide (c.xcTrackDiff ≤ 16)

/-! ### OUTPUT, CANSAFE, OBSERVE -/

/-- OUT_STREAM[s] (R457). -/
def StreamCfg.ok (c : StreamCfg) : Bool :=
  (c.p6 || c.p7) && inN 1 c.vlan 4094 && decide (c.pcp ≤ 7) && (c.dstIp.length == 0 || c.dstIp.length == 4 || c.dstIp.length == 16)
    && (match c.txMaxAge with | some u => inN 100 u 100000 | none => true) && (c.ringBytes == 0 || pow2In 65536 c.ringBytes 16777216)

/-- The OUTPUT section by itself (R452, R457). -/
def OutCfg.ok (c : OutCfg) : Bool :=
  c.stream.all StreamCfg.ok && inN 1024 c.srcUdp 65529 && inN 256 c.fragBytes 8960 && c.fragBytes % 64 == 0
    && c.qBytes.all (fun n => inN 16384 n 1048576) && decide (c.qBytes.foldl (fun (a n : Nat) => a + n) 0 ≤ 2097152)
    && inN 1 c.pointsStride 64 && inN 100 c.guardDiv 100000 && decide (1000 ≤ c.s1Offset)
    && c.gates.all (fun (l : List GateEntry) => inN 1 l.length 64 && l.all fun (e : GateEntry) => inN 8 e.interval 125000)
    && c.eth.all EthCfg.ok

/-- An identifier (R463): 11 bits, or 29 in a CAN FD frame with the extended format; the priority identifier of CAN XL has 11. -/
def CanId.ok (xl : Bool) (c : CanId) : Bool := if xl || !c.ext then decide (c.id.toNat < 2048) else true

/-- The CANSAFE section (R458, R463). -/
def CanSafeCfg.ok (c : CanSafeCfg) : Bool :=
  [c.idState, c.idGuard].all (fun x => match x with | some i => i.ok c.xl | none => true) &&
  !c.classical && inN 10 c.statePeriod 1000 && inN 1 c.guardPeriod 100 && decide (c.minGap ≤ 10) && inN 1 c.maxAge 100 && inN 125 c.nomRate 1000
    && (if c.xl then inN 2000 c.dataRate 10000 else inN 1000 c.dataRate 8000) && inN 50 c.nomSp 90 && inN 50 c.dataSp 90

/-- Instances of a Grotto source (R486); none for a reserved code. -/
def sourceRange : Nat → Option Nat
  | 0 | 1 => some 256 | 2 | 3 => some 64 | 4 => some 16 | 5 => some 1 | 6 => some 2 | 7 => some 1 | 8 => some 8 | 9 => some 16 | 10 => some 1
  | _ => none

/-- GRT_MON[m] (R487). -/
def MonCfg.ok (c : MonCfg) : Bool :=
  (match sourceRange c.source with | none => false | some n => (match c.inst with | some i => decide (i < n) | none => true))
    && inI (-(2 ^ 31)) c.lo (2 ^ 31 - 1) && decide (c.width < 2 ^ 32) && inN 1 c.maxSamples (2 ^ 32 - 1)
    && (if c.log2 then decide (1 ≤ c.lo) else c.width != 0)

/-- The OBSERVE section (R487). -/
def ObserveCfg.ok (c : ObserveCfg) : Bool := c.mon.all MonCfg.ok

/-! ### SCHEDULE -/

/-- R79, R80: one entry at index `i`, P in µs. -/
def SchedEntry.ok (e : SchedEntry) (i p : Nat) : Bool :=
  decide (e.target.toNat ≤ 0x15) && (e.pred == 511 || decide (e.pred.toNat < i)) && decide (e.deadline.toNat ≤ 2 * p)
    && decide (e.start.toNat + e.window.toNat + e.repeats.toNat * e.spacing.toNat ≤ e.deadline.toNat)

/-- The entries of a target. -/
def ofTarget (es : List SchedEntry) (t : Nat) : List SchedEntry := es.filter fun (e : SchedEntry) => e.target.toNat == t

/-- R421: one GOLDEN entry for each engine, launched once, short and done by P; GOLDEN belongs to TE targets. P in ms. -/
def goldenOk (es : List SchedEntry) (pMs : Nat) : Bool :=
  let gs := es.filter fun (e : SchedEntry) => e.golden
  gs.all (fun (e : SchedEntry) => decide (e.target.toNat < 16) && e.repeats == 0 && decide (e.maxRt.toNat ≤ 15 * pMs) && decide (e.deadline.toNat ≤ 1000 * pMs))
    && (List.range 4).all fun t => (gs.filter fun (e : SchedEntry) => e.target.toNat / 4 == t).length == 1

/-- R374: at most one batch entry, with one output assembly entry, on a regular grid. P in µs. -/
def batchOk (es : List SchedEntry) (p : Nat) : Bool :=
  match ofTarget es 0x12 with
  | [] => true
  | [e] => (ofTarget es 0x14).length == 1 && e.spacing.toNat * (e.repeats.toNat + 1) == p && decide (e.start.toNat < e.spacing.toNat)
  | _ => false

/-- A SCHEDULE section by itself, for a frame period in ms (R79, R80, R236, R244, R374, R421). -/
def scheduleOk (es : List SchedEntry) (pMs : Nat) : Bool :=
  let p := 1000 * pMs
  inN 1 es.length 256 && es.zipIdx.all (fun (x : SchedEntry × Nat) => x.1.ok x.2 p)
    && (match ofTarget es 0x10 with | [e] => e.repeats == 0 | _ => false)
    && (ofTarget es 0x15).all (fun (e : SchedEntry) => decide (e.deadline.toNat + 1000 ≤ p))
    && batchOk es p && goldenOk es pMs

/-! ### PAU -/

/-- PAU_CAM (R217). -/
def CamCfg.ok (c : CamCfg) : Bool :=
  c.geo.ok && inN 1 c.exposure 50000 && decide (c.maxDt ≤ 30) && [2, 4, 8].contains c.zcell
    && (match c.embedded with | some e => decide (e.2.1 ≤ 6) | none => true)

/-- The PAU section (R228 to R239); angles in mrad: 0.005° is 0.0872664 and 0.5° is 8.726647. DEDUCED, log entry 84. -/
def PauCfg.ok (c : PauCfg) : Bool :=
  c.cams.all (fun (x : Option CamCfg) => match x with | some x => x.ok | none => true)
    && inN 65536 c.pending 1048576 && inQ 0 c.zTolAbs 1 && inQ 0 c.zTolRel (1/10) && inQ (5/100) c.edgeJump 2 && inN 1 c.search 8
    && inQ (1/2) c.outlierPx 8 && inQ (1/10) c.planeVoxel 1 && inN 4 c.planeMin 64 && inQ (1/100) c.planarity (2/10) && inQ (1/100) c.outlierM (1/2)
    && inN 16 c.alignFrames 256 && inQ 0 c.damp 10 && inN 1 c.misCount 16 && inN 1 c.misHold 600 && inN 1 c.misLimit 7
    && inQ (872664/10000000) c.stepRot (8726647/1000000) && inQ (1/10) c.stepTrans 10 && inQ 1 c.stepDt 500
    && decide (c.alignSet.eraseDups.length ≤ 8) && decide (c.anchor.val < 8) && !c.restates

/-! ### PCU -/

/-- A length of `cm`/10 centimetres to the nearest multiple of 2⁻¹⁶ m (R254). DEDUCED, log entry 84. -/
def heldCm (mm : Nat) : Nat := (mm * 65536 + 500) / 1000

/-- VOX[g] (R254); X0, Y0 and Z0 are Q15.16. -/
def VoxCfg.ok (v : VoxCfg) : Bool :=
  [v.x0, v.y0, v.z0].all (fun x => inI (-(2 ^ 31)) x (2 ^ 31 - 1)) &&
  inN (heldCm 25) v.sx (heldCm 800) && inN (heldCm 25) v.sy (heldCm 800) && inN (heldCm 25) v.sz (heldCm 10000) && inN 1 v.nx 4096 && inN 1 v.ny 4096
    && inN 1 v.nz 256 && inN 1 v.maxPts 64 && inN 1 v.maxVoxels 262144

/-- A site list that exists where rulebook `i` names it: an enabled grid, or the output of an enabled rulebook before `i` (R259, R272). -/
def PcuCfg.siteOk (c : PcuCfg) (i : Nat) : SiteSrc → Bool
  | .grid g => c.vox[g].enable
  | .out j => decide (j.val < i) && c.rb[j].enable

/-- The most sites of a list (R262). -/
def PcuCfg.siteCap (c : PcuCfg) : SiteSrc → Nat
  | .grid g => c.vox[g].maxVoxels
  | .out j => c.rb[j].maxOut

/-- The geometry of a site list without its sites; `fuel` bounds the chain of rulebooks. -/
def PcuCfg.levelOf (c : PcuCfg) : Nat → SiteSrc → Level
  | _, .grid g => let v := c.vox[g]; { x0 := v.x0, y0 := v.y0, z0 := v.z0, sx := v.sx, sy := v.sy, sz := v.sz, nx := v.nx, ny := v.ny, nz := v.nz }
  | 0, .out _ => {}
  | fuel + 1, .out j => c.rb[j].outLevel (c.levelOf fuel c.rb[j].src)

/-- FPS[p] (R257, R272). -/
def PcuCfg.fpsOk (c : PcuCfg) (p : Fin 4) : Bool :=
  let f := c.fps[p]
  !f.enable || (inN 1 f.k 16384 && match f.src with
    | .frame => true
    | .voxel g => c.vox[g].enable
    | .pass q => decide (q.val < p.val) && c.fps[q].enable)

/-- RB[i] (R259, R272). -/
def PcuCfg.rbOk (c : PcuCfg) (i : Fin 8) : Bool :=
  let r := c.rb[i]
  let odd (k : Nat) : Bool := [1, 3, 5].contains k
  !r.enable || (odd r.kx && odd r.ky && odd r.kz && inN 1 r.sx 2 && inN 1 r.sy 2 && inN 1 r.sz 2
    && (r.regular || (r.sx == 1 && r.sy == 1 && r.sz == 1)) && inN 1 r.maxOut 262144 && c.siteOk i.val r.src)

/-- The BEV map (R263). -/
def PcuCfg.bevOk (c : PcuCfg) : Bool :=
  let b := c.bev
  let l := c.levelOf 8 b.src
  !b.enable || (inN 64 b.h 1024 && inN 64 b.w 1024 && inN (heldCm 25) b.cell (heldCm 200) && inN 1 b.cFeat 128 && inI (-(2 ^ 31)) b.x0 (2 ^ 31 - 1) && inI (-(2 ^ 31)) b.y0 (2 ^ 31 - 1) && c.siteOk 8 b.src
    && decide (b.cFeat * l.nz ≤ 128) && l.sx == b.cell && l.sy == b.cell && (l.x0 - b.x0) % (b.cell : Int) == 0 && (l.y0 - b.y0) % (b.cell : Int) == 0)

/-- The regions of a PCU section with the bytes that its caps imply (R252, R256, R258, R261 to R265), both parities. -/
def PcuCfg.regions (c : PcuCfg) : List (Place × Nat) :=
  let two (p : ParityPlace) (n : Nat) : List (Place × Nat) := [(p.even, n), (p.odd, n)]
  let grids := (List.finRange 2).flatMap fun (g : Fin 2) =>
    let v := c.vox[g]
    if v.enable then two c.voxCoord[g] (16 * v.maxVoxels) ++ two c.voxCount[g] (2 * v.maxVoxels) ++ two c.voxGather[g] (4 * v.maxPts * v.maxVoxels) else []
  let passes := (List.finRange 4).flatMap fun (p : Fin 4) =>
    if c.fps[p].enable then two c.fpsIdx[p] (4 * c.fps[p].k) ++ two c.fpsXyz[p] (16 * c.fps[p].k) else []
  let books := (List.finRange 8).flatMap fun (i : Fin 8) =>
    let r := c.rb[i]
    let o := r.kx * r.ky * r.kz
    if r.enable then two c.rbAt[i] (16 + 8 * o + 8 * o * c.siteCap r.src) ++ (if r.regular then two c.outCoord[i] (16 * r.maxOut) else []) else []
  let b := c.bev
  let bev := if b.enable then two c.bevIdx (4 * c.siteCap b.src) ++ two c.bevBuf (b.h * b.w * b.cFeat * (c.levelOf 8 b.src).nz * b.fmt.bytes) else []
  two c.ptRec (64 * c.pointCap) ++ two c.ptFeat ((if c.featF32 then 64 else 32) * c.pointCap) ++ two c.cover 512 ++ two c.doneRec 64
    ++ grids ++ passes ++ books ++ bev

/-- No two regions of a list meet, space by space. -/
def placesApart : List (Place × Nat) → Bool
  | [] => true
  | x :: xs => xs.all (fun (y : Place × Nat) => x.1.space != y.1.space || !meets x.1.addr x.2 y.1.addr y.2) && placesApart xs

/-- A PCU section by itself (R245, R248, R250, R254 to R272), P in µs. -/
def PcuCfg.ok (c : PcuCfg) (p : Nat) : Bool :=
  inN 500 c.closeDelay 10000 && decide (2 * c.closeDelay ≤ p) && inN 65536 c.cropXy (500 * 65536)
    && inI (-6553600) c.zMin 6553600 && inI (-6553600) c.zMax 6553600 && decide (c.zMin < c.zMax) && inN 1024 c.pointCap 1048576
    && c.vox.all (fun (v : VoxCfg) => !v.enable || v.ok) && (List.finRange 4).all c.fpsOk && (List.finRange 8).all c.rbOk && c.bevOk
    && placesApart c.regions

/-! ### TE, TRACKER, QSA -/

/-- A TE section by itself (R278, R484). -/
def TeCfg.ok (c : TeCfg) : Bool := c.stagingBytes % 65536 == 0 && c.qLevel.all (fun n => decide (n ≤ 16))





/-- The TRACKER section by itself (R326, R327, R356), P in µs. -/
def TrkCfg.ok (c : TrkCfg) (k : KvCfg) (p : Nat) : Bool :=
  let np := k.pool
  inN 1 k.heads 16 && [64, 128].contains k.hdim && k.regionBase % 2097152 == 0 && k.regionBytes % (k.heads * 2097152) == 0
    && decide (k.regionBytes ≤ 2 ^ 27) && decide (k.regionBase + k.regionBytes ≤ 2 ^ 27) && decide (k.stageSlots ≤ 64)
    && k.opsBase % 64 == 0 && decide (k.opsBase < 2 ^ 27) && inN 20 k.stepMs 1000
    && inN c.capacity np 65535
    && inN 1 c.capacity 512 && (match c.tovOffset with | some t => decide (t < p) | none => true)
    && inF 1 c.gate 100 && inF 0 c.wGeo 16 && inF 0 c.wHead 16 && inF (1/10) c.missCost 100 && inF 0 c.birthScore 1 && inN 1 c.birthConf 255
    && inN 1 c.confirmHits 16 && inN 1 c.tentMiss 8 && inN 1 c.coastMax 255 && decide (c.confHit ≤ 255) && decide (c.confMiss ≤ 255) && inN 1 c.maskDrop 255
    && inN 1 c.supportFrames 255 && inF (1/10) c.accNoise 20 && inF (1/10) c.initSdV 10

/-- A pattern (R361): in range, in rising column then row, without a duplicate. -/
def patternOk (rows cols : Nat) : List (Nat × Nat) → Bool
  | [] => true
  | [x] => decide (x.1 < rows) && decide (x.2 < cols)
  | x :: y :: l => decide (x.1 < rows) && decide (x.2 < cols) && (decide (x.2 < y.2) || (x.2 == y.2 && decide (x.1 < y.1))) && patternOk rows cols (y :: l)

/-- The reduced KKT pattern (R362) in its upper triangle, the diagonal with it. -/
def QpStruct.kkt (q : QpStruct) : List (Nat × Nat) :=
  let pairs (l : List Nat) : List (Nat × Nat) := l.flatMap fun a => (l.filter fun b => decide (a ≤ b)).map fun b => (a, b)
  (q.hPat ++ (List.range q.mi).flatMap (fun i => pairs ((q.cPat.filter fun x => x.1 == i).map fun x => x.2))
    ++ q.aPat.map (fun x => (x.2, q.n + x.1)) ++ (List.range (q.n + q.me)).map fun i => (i, i)).eraseDups

/-- Symbolic elimination in pivot order: the entries of each column of L below its diagonal, fill included (R360, R362). -/
def columnsOfL : List Nat → List (Nat × Nat) → List Nat
  | [], _ => []
  | p :: ps, es =>
    let near := (es.filterMap fun e => if e.1 = p then some e.2 else if e.2 = p then some e.1 else none).eraseDups.filter fun j => j != p
    let rest := es.filter fun e => e.1 != p && e.2 != p
    let fill := near.flatMap fun a => (near.filter fun b => decide (a < b)).map fun b => (a, b)
    near.length :: columnsOfL ps (rest ++ fill).eraseDups

/-- KK, KL, KF and KW as the BCC derives them (R360, R361): a pivot column with c entries below its diagonal takes c(c + 1) / 2 multiply-adds,
and a row of C with r entries r(r + 1) / 2. DEDUCED, log entry 153. -/
def QpStruct.counts (q : QpStruct) : Nat × Nat × Nat × Nat :=
  let cols := columnsOfL q.order (q.kkt.filter fun e => e.1 != e.2)
  let rows := (List.range q.mi).map fun i => (q.cPat.filter fun x => x.1 == i).length
  (q.kkt.length, cols.foldl (· + ·) 0, cols.foldl (fun n c => n + c * (c + 1) / 2) 0, rows.foldl (fun n r => n + r * (r + 1) / 2) 0)

/-- A structure (R360, R361, R377); the device knows VERSION 1 (R107). -/
def QpStruct.ok (q : QpStruct) : Bool :=
  q.version == 1 &&
  (q.kk, q.kl, q.kf, q.kw) == q.counts &&
  inN 1 q.n 64 && decide (q.me ≤ 32) && decide (q.mi ≤ 128) && decide (q.hPat.length ≤ 2080) && decide (q.aPat.length ≤ 2048)
    && decide (q.cPat.length ≤ 8192) && decide (q.nParam ≤ 64) && inN 10 q.outDt 1000
    && patternOk q.n q.n q.hPat && q.hPat.all (fun x => decide (x.1 ≤ x.2)) && (List.range q.n).all (fun i => q.hPat.contains (i, i))
    && patternOk q.me q.n q.aPat && patternOk q.mi q.n q.cPat
    && q.order.length == q.n + q.me && (List.range (q.n + q.me)).all (fun i => q.order.contains i)
    && q.base.all (fun (w : Word) => (f32Val w).isFin) && decide (q.rows.length ≤ 16)
    && q.rows.all (fun (r : OutRow) => decide (r.terms.length ≤ 4) && r.terms.all (fun (t : Nat × Word) => decide (t.1 < q.n))
        && (match r.offset with | some o => decide (o < q.nParam) | none => true))

/-- The Cistern regions of the QSA (R363, R369, R370): workspaces, feed regions and results. The bytes of the structures are those of R360. DEDUCED, log entry 87. -/
def QpStruct.bytes (q : QpStruct) : Nat :=
  64 + 2 * (q.hPat.length + q.aPat.length + q.cPat.length) + (q.n + q.me) + 4 * q.base.length + 16 * 22

/-- A structure from its bytes, with its number INDEX (R360): header, patterns, ORDER, base values and output rows, the terms of a row one
after the other and its offset last. DEDUCED, log entry 87. -/
def QpStruct.ofBytes (bs : Bytes) : Nat × QpStruct :=
  let n := fieldOf bs 8 7
  let me := fieldOf bs 15 6
  let mi := fieldOf bs 21 8
  let nh := fieldOf bs 32 12
  let na := fieldOf bs 44 12
  let nc := fieldOf bs 56 14
  let np := fieldOf bs 70 7
  let byte (o : Nat) : Nat := (bs.getD o 0).toNat
  let pat (o k : Nat) : List (Nat × Nat) := (List.range k).map fun i => (byte (o + 2 * i), byte (o + 2 * i + 1))
  let order := 64 + 2 * (nh + na + nc)
  let base := order + n + me
  let nv := nh + n + na + me + nc + mi + np
  let row (k : Nat) : OutRow :=
    let o := base + 4 * nv + 22 * k
    { terms := (List.range 4).filterMap fun i => if byte (o + 5 * i) = 255 then none else some (byte (o + 5 * i), BitVec.ofNat 32 (leNat (slice bs (o + 5 * i + 1) 4)))
      offset := let x := leNat (slice bs (o + 20) 2); if x = 65535 then none else some x }
  (fieldOf bs 4 3,
   { version := fieldOf bs 0 4, n := n, me := me, mi := mi, hPat := pat 64 nh, aPat := pat (64 + 2 * nh) na, cPat := pat (64 + 2 * (nh + na)) nc, nParam := np
     order := (List.range (n + me)).map fun i => byte (order + i), base := (List.range nv).map fun i => BitVec.ofNat 32 (leNat (slice bs (base + 4 * i) 4))
     outDt := fieldOf bs 192 32, rows := (List.range 16).map row
     kk := fieldOf bs 96 16, kl := fieldOf bs 112 16, kf := fieldOf bs 128 32, kw := fieldOf bs 160 32 })
def QsaCfg.regions (c : QsaCfg) : List (Nat × Nat) :=
  let st := c.structs.toList.foldl (fun (n : Nat) (x : Option QpStruct) => match x with | some q => n + q.bytes | none => n) 0
  [(c.workBase, 64 * 131072), (c.structBase, st), (c.feedBase, 2 * c.feedBytes), (c.resultBase, 262144)]

/-- The QSA section by itself (R360, R361, R363, R383). The bounds 10⁻⁷ and 10⁻⁹ are those F32 values; up to 256 live terms, each of an index that
every structure's value vector has. DEDUCED, log entry 172. -/
def QsaCfg.ok (c : QsaCfg) : Bool :=
  inN 1 c.candidates 64 && inN 5 c.iterMax 64 && inF (f32Val 0x33D6BF95).rat c.epsP (1/100) && inF (f32Val 0x33D6BF95).rat c.epsD (1/100)
    && inF (f32Val 0x3089705F).rat c.epsG (1/100) && inF (2 ^ 20) c.divLimit (2 ^ 60) && inN 8 c.tauExp 30 && inN 4 c.deltaExp 24
    && decide (c.deltaExp < c.tauExp) && decide (c.refineMax ≤ 3) && inF (1 / 2 ^ 24) c.refineTol (1 / 2 ^ 8) && decide (c.lead ≤ 5000)
    && inQ 0 c.vMax 10 && inQ 0 c.kappaMax 10 && inQ (1/10) c.stopDecel 5
    && inN 4096 c.feedBytes 4194304 && c.feedBytes % 4096 == 0
    && c.structs.all (fun (x : Option QpStruct) => match x with | some q => q.ok && c.live.all (fun (l : Nat × LiveSrc × Word) => decide (l.1 < q.nv)) | none => true)
    && decide (c.live.length ≤ 256)
    && c.regions.all (fun (r : Nat × Nat) => decide (r.1 + r.2 ≤ 2 ^ 27)) && apart c.regions

end Sys2Proof.Machine
end

