-- ==== Sys2Proof/Machine/Transc.lean ====
section
/-! DEFINITION. The approximate functions of the vector cores (spec 12_command_lists R311): the exact real result rounded to F32, then an open
number of units in the last place within the stated bound. -/

namespace Sys2Proof.Machine

open Sys2Proof

/-- Scale of the series below: 2²⁰⁰, far beyond what any F32 result needs. -/
def trScale : Int := 2 ^ 200

/-- ln 2 in units of `trScale`, by 2·atanh(1/3). -/
def atanhSeries : Nat → Int → Int → Nat → Int
  | 0, _, _, _ => 0
  | n + 1, term, z2, k => term / k + atanhSeries n (term * z2 / trScale) z2 (k + 2)
def ln2Fix : Int := 2 * atanhSeries 66 (trScale / 3) (trScale / 9) 1

/-- exp of a fixed-point number of magnitude below one. -/
def expSeries : Nat → Int → Int → Nat → Int
  | 0, _, _, _ => 0
  | n + 1, term, r, k => term + expSeries n (term * r / trScale / k) r (k + 1)

/-- 2^k as a rational. -/
def ratPow2 (k : Int) : Rat := mkRat (pow2Num k) (pow2Den k)

/-- e^x as a rational: its argument is held within ±1,000, beyond which every use below is past its limits. DESIGN CHOICE, log entry 9. -/
def expRat (x : Rat) : Rat :=
  let x := clampRat (-1000) 1000 x
  let f : Int := x.num * trScale / x.den
  let k := f / ln2Fix
  let r := f - k * ln2Fix
  let m := expSeries 60 trScale r 1
  (m : Rat) / trScale * ratPow2 k

/-- ln of a positive rational. DESIGN CHOICE, log entry 9. -/
def lnRat (x : Rat) : Rat :=
  let k := floorLog2 x.num.natAbs x.den
  let m : Rat := x / ratPow2 k
  let z := (m - 1) / (m + 1)
  let f : Int := z.num * trScale / z.den
  ((2 * atanhSeries 70 f (f * f / trScale) 1 + k * ln2Fix : Int) : Rat) / trScale

/-- 1 / (1 + e^−x). -/
def sigmoidRat (x : Rat) : Rat := 1 / (1 + expRat (-x))

/-- tanh x; near 0 by its series, so that no digits cancel. -/
def tanhRat (x : Rat) : Rat :=
  if x < 1 / 1048576 ∧ -(1 : Rat) / 1048576 < x then x - x * x * x / 3 + 2 * x * x * x * x * x / 15
  else 1 - 2 / (expRat (2 * x) + 1)

/-- √(2/π) to forty digits. -/
def sqrt2OverPi : Rat := 7978845608028653558798921198687637369517 / 10000000000000000000000000000000000000000

/-- The GELU of R311: 0.5x(1 + tanh u) is x · sigmoid(2u). -/
def geluRat (x : Rat) : Rat := x * sigmoidRat (2 * sqrt2OverPi * (x + 44715 / 1000000 * x * x * x))

/-- Place of a finite F32 word on the line of F32 values, and back. -/
def f32Index (w : Word) : Int := if w.toNat < 2 ^ 31 then w.toNat else -((w.toNat - 2 ^ 31 : Nat) : Int)
def f32OfIndex (neg : Bool) (i : Int) : Word :=
  let m := min i.natAbs 0x7F7FFFFF
  BitVec.ofNat 32 (if i < 0 ∨ (i = 0 ∧ neg) then 2 ^ 31 + m else m)

/-- An approximate result: within `bound` units in the last place of the exact result `v` rounded to F32; `exact` where v is exact (R311).
The result sets NX unless it is exact, and UF where it is tiny. DESIGN CHOICE, log entry 9. -/
def approx (func : Nat) (bound : Nat) (rtz : Bool) (x : Word) (v : Rat) (exact : Bool) : Fm Word := do
  let ref := (toF32 rtz (ratVal v)).go.1
  let off := clampInt (-(bound : Int)) bound (Config.ulpOffset func rtz x)
  let w := f32OfIndex (decide (v < 0)) (f32Index ref + off)
  let same := exact && (f32Val w).rat == v
  flagIf (!same) flagNX
  flagIf (!same && decide (w.toNat % 2 ^ 31 < 2 ^ 23)) flagUF
  return w

/-- Bound of GELU and SILU: 4 ulp, or 2⁻¹²⁶ where the result is below 2⁻¹²⁶. -/
def geluBound (v : Rat) : Nat := if (if v < 0 then -v else v) < 1 / (2 ^ 126 : Nat) then 2 ^ 23 else 4

/-- The approximate functions by their FUNC code (R311). -/
def f32Rsqrt (rtz : Bool) (x : Word) : Fm Word :=
  match f32Val x with
  | .nan => pure f32Nan
  | .inf true => do setFlags flagNV; pure f32Nan
  | .inf false => pure 0
  | .fin neg n d =>
    if n = 0 then do setFlags flagOF; pure (if neg then 0xFF800000 else 0x7F800000)
    else if neg then do setFlags flagNV; pure f32Nan
    else
      let r := (FVal.sqrt (.fin false d n)).go.1.rat
      approx 5 1 rtz x r (r * r == mkRat d n)

def f32Exp (rtz : Bool) (x : Word) : Fm Word :=
  match f32Val x with
  | .nan => pure f32Nan
  | .inf true => pure 0
  | .inf false => do setFlags (flagOF ||| flagNX); pure 0x7F800000
  | v =>
    if (887228 : Rat) / 10000 < v.rat then do setFlags (flagOF ||| flagNX); pure 0x7F800000
    else approx 6 2 rtz x (expRat v.rat) v.isZero

def f32Log (rtz : Bool) (x : Word) : Fm Word :=
  match f32Val x with
  | .nan => pure f32Nan
  | .inf true => do setFlags flagNV; pure f32Nan
  | .inf false => pure 0x7F800000
  | .fin neg n d =>
    if n = 0 then do setFlags flagOF; pure 0xFF800000
    else if neg then do setFlags flagNV; pure f32Nan
    else approx 7 2 rtz x (lnRat (mkRat n d)) (n == d)

def f32Sigmoid (rtz : Bool) (x : Word) : Fm Word :=
  match f32Val x with
  | .nan => pure f32Nan
  | .inf neg => pure (if neg then 0 else 0x3F800000)
  | v => approx 8 3 rtz x (sigmoidRat v.rat) v.isZero

def f32Tanh (rtz : Bool) (x : Word) : Fm Word :=
  match f32Val x with
  | .nan => pure f32Nan
  | .inf neg => pure (if neg then 0xBF800000 else 0x3F800000)
  | v => approx 9 3 rtz x (tanhRat v.rat) v.isZero

/-- GELU and SILU (R311): at −∞ the spec states no result. DESIGN CHOICE, log entry 38. -/
def f32Gelu (rtz : Bool) (x : Word) : Fm Word :=
  match f32Val x with
  | .nan => pure f32Nan
  | .inf neg => pure (if neg then Config.atMinusInf 10 else 0x7F800000)
  | v => let r := geluRat v.rat; approx 10 (geluBound r) rtz x r v.isZero

def f32Silu (rtz : Bool) (x : Word) : Fm Word :=
  match f32Val x with
  | .nan => pure f32Nan
  | .inf neg => pure (if neg then Config.atMinusInf 11 else 0x7F800000)
  | v => let r := v.rat * sigmoidRat v.rat; approx 11 (geluBound r) rtz x r v.isZero

/-- max(x, +0) (R311). -/
def f32Relu (x : Word) : Word := if f32IsNan x then f32Nan else if f32Lt 0 x then x else 0

/-- min(max(x, lo), hi) (R311). DEDUCED, log entry 114. -/
def f32Clamp (lo hi x : Word) : Word :=
  if f32IsNan x || f32IsNan lo || f32IsNan hi then f32Nan else let y := if f32Lt x lo then lo else x; if f32Lt hi y then hi else y

/-- x for x ≥ 0, else x × slope (R311). -/
def f32Leaky (rtz : Bool) (slope x : Word) : Fm Word :=
  if f32IsNan x then pure f32Nan else if f32Le 0 x then pure x else f32Mul rtz x slope

/-- VUNARY FUNC on an F32 value (R311). -/
def vecUnary (a : Arith) (func : Nat) (c0 c1 x : Word) : Fm Word :=
  match func with
  | 1 => pure (f32Neg x)
  | 2 => pure (f32Abs x)
  | 3 => f32Recip a.rtz x
  | 4 => f32Sqrt a.rtz x
  | 5 => f32Rsqrt a.rtz x
  | 6 => f32Exp a.rtz x
  | 7 => f32Log a.rtz x
  | 8 => f32Sigmoid a.rtz x
  | 9 => f32Tanh a.rtz x
  | 10 => f32Gelu a.rtz x
  | 11 => f32Silu a.rtz x
  | 12 => pure (f32Relu x)
  | 13 => pure (f32Clamp c0 c1 x)
  | 14 => f32Fma a.rtz x c0 c1
  | 15 => f32Leaky a.rtz c0 x
  | _ => pure x

/-- The activation of an epilogue (R306). -/
def vecAct (a : Arith) (act : Nat) (x : Word) : Fm Word :=
  match act with
  | 1 => pure (f32Relu x)
  | 2 => pure (f32Clamp 0 0x40C00000 x)
  | 3 => f32Leaky a.rtz 0x3E000000 x
  | 4 => f32Gelu a.rtz x
  | 5 => f32Silu a.rtz x
  | 6 => f32Sigmoid a.rtz x
  | 7 => f32Tanh a.rtz x
  | _ => pure x

/-- The larger or smaller of two F32 values; NaN if either is NaN; of two equal ones the first (R184, R312). DEDUCED, log entry 114. -/
def f32Max (x y : Word) : Word := if f32IsNan x || f32IsNan y then f32Nan else if f32Lt x y then y else x
def f32Min (x y : Word) : Word := if f32IsNan x || f32IsNan y then f32Nan else if f32Lt y x then y else x

/-- VBINARY OP on F32 values (R311). -/
def vecBinary (a : Arith) (op : Nat) (x y : Word) : Fm Word :=
  match op with
  | 0 => f32Add a.rtz x y
  | 1 => f32Sub a.rtz x y
  | 2 => f32Mul a.rtz x y
  | 3 => pure (f32Min x y)
  | 4 => pure (f32Max x y)
  | 5 => pure (if f32Lt x y then 0x3F800000 else 0)
  | 6 => pure (if f32Le x y then 0x3F800000 else 0)
  | _ => pure (if f32Eq x y then 0x3F800000 else 0)

end Sys2Proof.Machine
end

