-- ==== Sys2Proof/Machine/TeOps.lean ====
section
/-! DEFINITION. What each command of a command list computes (spec 12_command_lists R304 to R317, R321; spec 13 R328, R329, R337). -/

namespace Sys2Proof.Machine

open Sys2Proof

/-- What a command finds when it starts. -/
structure CmdEnv where
  mem : Memory
  env : TensEnv
  /-- Cistern offset of its list. -/
  list : Nat
  cfg : TeCfg
  kv : KvCfg
deriving DecidableEq, Repr

/-- What a command leaves: memory, flags, and the counts of R324. -/
structure CmdOut where
  mem : Memory
  flags : FlagSet := 0
  /-- Count words above their DIM (R287). -/
  clamps : List Nat := []
  indexRange : Nat := 0
  noPage : Nat := 0
  bucket : Nat := 0
  mismatch : Option Nat := none
  /-- A poisoned word was read: the list stops (R472). -/
  poisoned : Bool := false
deriving DecidableEq, Repr

/-- Descriptor operand k of a command: none where it is 0xFFF. -/
def CmdEnv.opd (e : CmdEnv) (c : Command) (k : Nat) : Option (Tens × Option Nat) :=
  let i := c.op.getD k 0xFFF
  if i = 0xFFF then none else some ((Desc.ofBytes (descBytes e.mem e.list i)).resolve e.env e.mem)

/-- The tensor of operand k; an operand written 0xFFF has no element. -/
def CmdEnv.tens (e : CmdEnv) (c : Command) (k : Nat) : Tens :=
  match e.opd c k with | some (x, _) => x | none => ⟨.cistern, 0, 13, [0, 0, 0, 0, 0, 0], []⟩

/-- The optional tensor of operand k. -/
def CmdEnv.tens? (e : CmdEnv) (c : Command) (k : Nat) : Option Tens := (e.opd c k).map (·.1)

/-- The tensor descriptors a command names: the operands that it lists, and the rulebook of SPCONV (R303). -/
def CmdEnv.descs (e : CmdEnv) (c : Command) : List Desc :=
  (((operandsOf c.opcode).map fun k => c.op.getD k 0xFFF).filter (· != 0xFFF)
    ++ if c.opcode = 0x12 then [fieldNat (c.param 1) 0 12] else []).map fun i => Desc.ofBytes (descBytes e.mem e.list i)

/-- The count words that a command's descriptors clamp (R287). -/
def CmdEnv.clamps (e : CmdEnv) (c : Command) : List Nat := (e.descs c).filterMap fun d => (d.resolve e.env e.mem).2

/-- Does a count word that the command reads lie in a poisoned word (R287, R472). -/
def CmdEnv.countBad (e : CmdEnv) (c : Command) : Bool :=
  (e.descs c).any fun d => decide (d.bindDim < 6) && e.mem.poisoned .cistern (d.countAddr + if e.env.odd then d.parity else 0) 4

/-- Finish a command: poisoned sources stop it; else its writes and flags. -/
def CmdEnv.done (e : CmdEnv) (c : Command) (srcs : List Tens) (r : Fm Memory) : CmdOut :=
  if e.countBad c || srcs.any (·.poisoned e.mem) then { mem := e.mem, clamps := e.clamps c, poisoned := true }
  else let (m, f) := r.go; { mem := m, flags := f, clamps := e.clamps c }

/-- Compute one code for each index of a destination, in order, and write them. -/
def Tens.fill (x : Tens) (m : Memory) (f : List Nat → Fm Nat) : Fm Memory := do
  let vs ← (indices x.dim).mapM fun i => do return (i, ← f i)
  return x.putAll m vs

/-- One element from a source in a destination's format (R183): the same integer format passes unchanged. DEDUCED, log entry 114. -/
def moveElem (a : Arith) (src dst : Tens) (m : Memory) (scale : Option Tens) (i : List Nat) : Fm Nat :=
  if src.format = dst.format ∧ src.format ≤ 7 then pure (src.code m i)
  else if src.format = 14 ∧ dst.format = 14 then pure (src.code m i)
  else do storeCode a dst.format (← src.f32 m a scale i)

/-- COPY (R304, R185). -/
def CmdEnv.copy (e : CmdEnv) (c : Command) : CmdOut :=
  let src := e.tens c 0
  let dst := e.tens c 1
  let sc := e.tens? c 3
  let r : Fm Memory :=
    match e.tens? c 2 with
    | some ds =>
      if dst.format = 8 then do
        let outs ← (indices ds.dim).mapM fun b => do
          let ix := (List.range 32).map fun k => (32 * b.getD 0 0 + k) :: b.drop 1
          let xs ← ix.mapM fun i => src.f32 e.mem c.arith sc i
          let (s, es) ← toMxBlock c.arith xs
          return (b, s, List.zip ix es)
        return ds.putAll (dst.putAll e.mem (outs.flatMap (·.2.2))) (outs.map fun o => (o.1, o.2.1))
      else dst.fill e.mem fun i => moveElem c.arith src dst e.mem sc i
    | none => dst.fill e.mem fun i => moveElem c.arith src dst e.mem sc i
  e.done c (src :: sc.toList) r

/-- FILL (R304). -/
def CmdEnv.fillCmd (e : CmdEnv) (c : Command) : CmdOut :=
  let dst := e.tens c 1
  e.done c [] (dst.fill e.mem fun _ => storeCode c.arith dst.format (c.paramW 0))

/-- The K-blocks of a float reduction (R176). -/
def accFloat (k : Nat) (a b : Nat → FVal) (init : Word) : Fm Word :=
  (List.range ((k + 127) / 128)).foldlM (fun acc kb => do
    let ps ← (List.range (min 128 (k - 128 * kb))).mapM fun j => (a (128 * kb + j)).mul (b (128 * kb + j))
    f32Add false acc (← toF32 false (← exactSum ps))) init

/-- The K-blocks of an integer reduction, saturating at the S32 limits (R176). -/
def accInt (k : Nat) (a b : Nat → FVal) (init : Int) : Fm Int :=
  (List.range ((k + 127) / 128)).foldlM (fun acc kb => do
    let s := (List.range (min 128 (k - 128 * kb))).foldl (fun (t : Int) j => t + ((a (128 * kb + j)).rat * (b (128 * kb + j)).rat).num) 0
    satS32 (acc + (← satS32 s))) init

/-- The epilogue (R306). -/
def epilogue (a : Arith) (int : Bool) (acc : Word) (scale offset : Option Word) (act : Nat) (dst : Nat) : Fm Nat :=
  if scale.isNone ∧ offset.isNone ∧ act = 0 ∧ dst = (if int then 5 else 13) then
    pure (if int then acc.toNat else if f32IsNan acc then f32Nan.toNat else acc.toNat)
  else do
    let x ← if int then toF32 a.rtz (intVal acc.toInt 0) else pure acc
    let y ← f32Fma a.rtz x (scale.getD 0x3F800000) (offset.getD 0)
    storeCode a dst (← vecAct a act y)

/-- A matrix command over operand functions: `a i k` is the activation of the output element with index i (R305 to R308). -/
def CmdEnv.matrix (e : CmdEnv) (c : Command) (int : Bool) (k : Nat) (a : List Nat → Nat → FVal) (rows : List (List Nat)) : Fm Memory := do
  let b := e.tens c 1
  let bs := e.tens? c 7
  let dst := e.tens c 5
  let vecOf (t : Option Tens) (n : Nat) : Option Word := t.map fun x => BitVec.ofNat 32 (x.code e.mem [n])
  let vs ← rows.mapM fun i => do
    let n := i.getD 0 0
    let init := (vecOf (e.tens? c 2) n).getD 0
    let bk (j : Nat) : FVal := b.val e.mem bs [j, n]
    let acc : Word ← if int then (do return BitVec.ofInt 32 (← accInt k (a i) bk init.toInt)) else accFloat k (a i) bk init
    return (i, ← epilogue c.arith int acc (vecOf (e.tens? c 3) n) (vecOf (e.tens? c 4) n) (fieldNat (c.param 0) 0 4) dst.format)
  return dst.putAll e.mem vs

/-- Is the accumulator S32 (R175). -/
def Tens.intOperand (x : Tens) : Bool := decide (x.format ≤ 2)

/-- MATMUL (R305, R306). -/
def CmdEnv.matmul (e : CmdEnv) (c : Command) : CmdOut :=
  let a := e.tens c 0
  let as_ := e.tens? c 6
  let dst := e.tens c 5
  let srcs := [a, e.tens c 1] ++ ([2, 3, 4, 6, 7].filterMap fun k => e.tens? c k)
  e.done c srcs (e.matrix c a.intOperand (a.d 0) (fun i k => a.val e.mem as_ (k :: i.drop 1)) (indices dst.dim))

/-- CONV (R307). -/
def CmdEnv.conv (e : CmdEnv) (c : Command) : CmdOut :=
  let a := e.tens c 0
  let as_ := e.tens? c 6
  let dst := e.tens c 5
  let w := Window.ofBytes (descBytes e.mem e.list (fieldNat (c.param 1) 0 12))
  let srcs := [a, e.tens c 1] ++ ([2, 3, 4, 6, 7].filterMap fun k => e.tens? c k)
  e.done c srcs (e.matrix c a.intOperand (w.kh * w.kw * a.d 0)
    (fun i k => w.elem a e.mem as_ (i.drop 3) (i.getD 2 0) (i.getD 1 0) k) (indices dst.dim))

/-- A rulebook as stored in memory (R261). -/
structure Rulebook where
  offsets : Nat
  inSites : Nat
  outSites : Nat
  /-- Pairs (input, output) of each offset. -/
  groups : List (List (Nat × Nat))
deriving DecidableEq, Repr

/-- `n` bytes of a rank-1 U8 tensor from a place. -/
def Tens.bytesAt (x : Tens) (m : Memory) (off n : Nat) : Nat :=
  leNat ((List.range n).map fun i => BitVec.ofNat 8 (x.code m [off + i]))

/-- Read a rulebook, its pairs exchanged under TRANSPOSE (R261, R308). DEDUCED, log entry 115. -/
def Rulebook.read (x : Tens) (m : Memory) (transpose : Bool) : Rulebook :=
  let h := x.bytesAt m 0 16
  let offsets := fieldNat h 5 7
  let ins := fieldNat h 32 32
  let outs := fieldNat h 64 32
  { offsets := offsets, inSites := if transpose then outs else ins, outSites := if transpose then ins else outs
    groups := (List.range offsets).map fun g =>
      let r := x.bytesAt m (16 + 8 * g) 8
      (List.range (fieldNat r 32 32)).map fun j =>
        let p := x.bytesAt m (16 + 8 * offsets + 8 * (fieldNat r 0 32 + j)) 8
        if transpose then (fieldNat p 32 32, fieldNat p 0 32) else (fieldNat p 0 32, fieldNat p 32 32) }

/-- SPCONV (R308). DEDUCED, log entry 115. -/
def CmdEnv.spconv (e : CmdEnv) (c : Command) : CmdOut :=
  let a := e.tens c 0
  let as_ := e.tens? c 6
  let b := e.tens c 1
  let dst := e.tens c 5
  let rt := ((Desc.ofBytes (descBytes e.mem e.list (fieldNat (c.param 1) 0 12))).resolve e.env e.mem).1
  let srcs := [a, b, rt] ++ ([2, 3, 4, 6, 7].filterMap fun k => e.tens? c k)
  let rb := Rulebook.read rt e.mem (fieldNat (c.param 1) 12 1 == 1)
  if e.countBad c || srcs.any (·.poisoned e.mem) then { mem := e.mem, clamps := e.clamps c, poisoned := true }
  else if rb.offsets * a.d 0 ≠ b.d 0 ∨ a.d 1 < rb.inSites ∨ dst.d 1 < rb.outSites then
    { mem := dst.putAll e.mem ((indices dst.dim).map fun i => (i, 0)), clamps := e.clamps c, mismatch := some rb.offsets }
  else
    let ch := a.d 0
    let rows := (indices dst.dim).filter fun i => decide (i.getD 1 0 < rb.outSites)
    let act (i : List Nat) (k : Nat) : FVal :=
      match (rb.groups.getD (k / ch) []).find? fun p => p.2 == i.getD 1 0 && decide (p.1 < a.d 1) with
      | some (x, _) => a.val e.mem as_ [k % ch, x]
      | none => .fin false 0 1
    let (m, f) := (e.matrix c a.intOperand (b.d 0) act rows).go
    { mem := m, flags := f, clamps := e.clamps c
      indexRange := (rb.groups.map fun g => (g.filter fun p => decide (a.d 1 ≤ p.1)).length).foldl (· + ·) 0 }

/-- GATHER (R309). -/
def CmdEnv.gather (e : CmdEnv) (c : Command) : CmdOut :=
  let src := e.tens c 0
  let ix := e.tens c 1
  let dst := e.tens c 2
  let row (i : List Nat) : Nat := ix.code e.mem (i.drop 1)
  let r : Fm Memory := dst.fill e.mem fun i => if row i < src.d 1 then moveElem c.arith src dst e.mem none [i.getD 0 0, row i] else pure 0
  let bad := (indices (dst.dim.drop 1)).filter fun i => let k := ix.code e.mem i; decide (src.d 1 ≤ k) && k != 0xFFFFFFFF
  { e.done c [src, ix] r with indexRange := bad.length }

/-- An S32 of any source element: integers as they are, others by conversion (R177). -/
def Tens.s32 (x : Tens) (m : Memory) (a : Arith) (i : List Nat) : Fm Int :=
  if x.isInt then pure (x.int m i) else toFixed a true 32 0 (x.val m none i)

/-- Write an S32 result in a destination's format: S32 exactly, others by conversion (R183). -/
def storeInt (a : Arith) (format : Nat) (v : Int) : Fm Nat :=
  if format = 5 then pure (codeInt 32 v) else do storeCode a format (← toF32 a.rtz (intVal v 0))

/-- SCATTER (R310). -/
def CmdEnv.scatter (e : CmdEnv) (c : Command) : CmdOut :=
  let src := e.tens c 0
  let ix := e.tens c 1
  let dst := e.tens c 2
  let w := src.d 0
  let mode := fieldNat (c.param 0) 0 2
  let one (m : Memory) (d : List Nat) (s : List Nat) : Fm Nat :=
    if mode = 0 then moveElem c.arith src dst m none s
    else if dst.isInt then do
      let x ← dst.s32 m c.arith d
      let y ← src.s32 m c.arith s
      if mode = 1 then storeInt c.arith dst.format (← satS32 (x + y)) else storeInt c.arith dst.format (max x y)
    else do
      let x ← dst.f32 m c.arith none d
      let y ← src.f32 m c.arith none s
      if mode = 1 then storeCode c.arith dst.format (← f32Add c.arith.rtz x y) else storeCode c.arith dst.format (f32Max x y)
  let rows := indices (src.dim.drop 1)
  let ok (g : List Nat) : Bool := let k := ix.code e.mem g; k != 0xFFFFFFFF && decide (k + w ≤ dst.d 0)
  let r : Fm Memory := (rows.filter ok).foldlM (fun m g => (List.range w).foldlM (fun m j => do
      let d := [ix.code e.mem g + j]
      return dst.put m d (← one m d (j :: g))) m) e.mem
  let bad := rows.filter fun g => let k := ix.code e.mem g; k != 0xFFFFFFFF && decide (dst.d 0 < k + w)
  { e.done c ([src, ix] ++ if mode = 0 then [] else [dst]) r with indexRange := bad.length }

/-- NEG (1) or ABS (2) of an S32 (R177, R311): exact; of −2³¹, whose result S32 does not hold, the spec states none. DESIGN CHOICE, log entry 184. -/
def signS32 (func : Nat) (x : Int) : Int :=
  if x = -2147483648 then (Config.signOfMin func).toInt else if func = 1 then -x else (x.natAbs : Int)

/-- VUNARY (R311): NEG and ABS of an integer are taken in S32. -/
def CmdEnv.vunary (e : CmdEnv) (c : Command) : CmdOut :=
  let src := e.tens c 0
  let dst := e.tens c 1
  let func := fieldNat (c.param 0) 0 8
  e.done c [src] (dst.fill e.mem fun i =>
    if func = 0 then moveElem c.arith src dst e.mem none i
    else if (func = 1 ∨ func = 2) ∧ src.isInt then
      let x := src.int e.mem i
      storeInt c.arith dst.format (signS32 func x)
    else do storeCode c.arith dst.format (← vecUnary c.arith func (c.paramW 1) (c.paramW 2) (← src.f32 e.mem c.arith none i)))

/-- The arithmetic a pair of operands is taken in: S32, Q15.16 or L64 where both have such a format, else F32 (R177, R178). DEDUCED, log entry 114. -/
def fixedWidth (x y : Tens) : Option (Nat × Nat) :=
  if x.isInt && y.isInt then some (5, 32)
  else if x.format = 6 ∧ y.format = 6 then some (6, 32)
  else if x.format = 7 ∧ y.format = 7 then some (7, 64) else none

/-- Saturate at a format's limits (R178). A clamp sets ST and NX (R186); at 32 bits, S32 and Q15.16 addition and S32 multiplication set ST alone (R191). -/
def satF (w : Nat) (v : Int) : Fm Int := do
  let r := satInt w v
  flagIf (r != v) (if w = 32 then flagST else flagST ||| flagNX)
  return r

/-- A fixed-point product in the last place of its format (R178). -/
def mulFixed (a : Arith) (format w : Nat) (x y : Int) : Fm Int :=
  if format = 6 then mulQ a x y
  else if format = 7 then do
    let p := x * y
    let r := if a.rtz then p.tdiv 4294967296 else rneDiv p 4294967296
    flagIf (p % 4294967296 != 0) flagNX
    satF w r
  else satF w (x * y)

/-- Write a fixed-point result: its own format exactly, others by conversion. -/
def storeFixed (a : Arith) (format dst : Nat) (v : Int) : Fm Nat :=
  if format = dst then pure (codeInt (formatBits dst) v)
  else do storeCode a dst (← toF32 a.rtz (intVal v (if format = 6 then -16 else if format = 7 then -32 else 0)))

/-- VBINARY (R311, R178). DEDUCED, log entry 114. -/
def CmdEnv.vbinary (e : CmdEnv) (c : Command) : CmdOut :=
  let x := e.tens c 0
  let y := e.tens c 1
  let dst := e.tens c 2
  let op := fieldNat (c.param 0) 0 8
  e.done c [x, y] (dst.fill e.mem fun i =>
    match fixedWidth x y with
    | some (f, w) =>
      let u := x.int e.mem i
      let v := y.int e.mem i
      let bool (b : Bool) : Fm Nat := storeCode c.arith dst.format (if b then 0x3F800000 else 0)
      match op with
      | 0 => do storeFixed c.arith f dst.format (← satF w (u + v))
      | 1 => do storeFixed c.arith f dst.format (← satF w (u - v))
      | 2 => do storeFixed c.arith f dst.format (← mulFixed c.arith f w u v)
      | 3 => storeFixed c.arith f dst.format (min u v)
      | 4 => storeFixed c.arith f dst.format (max u v)
      | 5 => bool (decide (u < v))
      | 6 => bool (decide (u ≤ v))
      | _ => bool (decide (u = v))
    | none =>
      if op = 2 ∧ (x.format = 7 ∧ y.format = 6 ∨ x.format = 6 ∧ y.format = 7) then do
        let p := x.int e.mem i * y.int e.mem i
        let r := if c.arith.rtz then p.tdiv 65536 else rneDiv p 65536
        flagIf (p % 65536 != 0) flagNX
        storeFixed c.arith 7 dst.format (← satF 64 r)
      else do storeCode c.arith dst.format (← vecBinary c.arith op (← x.f32 e.mem c.arith none i) (← y.f32 e.mem c.arith none i)))

/-- VFMA (R311): a × b + c with one rounding. -/
def CmdEnv.vfma (e : CmdEnv) (c : Command) : CmdOut :=
  let x := e.tens c 0
  let y := e.tens c 1
  let z := e.tens c 2
  let dst := e.tens c 3
  e.done c [x, y, z] (dst.fill e.mem fun i =>
    if x.isInt && y.isInt && z.isInt then do storeFixed c.arith 5 dst.format (← satS32 (x.int e.mem i * y.int e.mem i + z.int e.mem i))
    else if x.format = 6 ∧ y.format = 6 ∧ z.format = 6 then do
      let p := x.int e.mem i * y.int e.mem i + 65536 * z.int e.mem i
      let q := if c.arith.rtz then p.tdiv 65536 else rneDiv p 65536
      flagIf (p % 65536 != 0 || satInt 32 q != q) flagNX
      storeFixed c.arith 6 dst.format (← satS32 q)
    else do
      storeCode c.arith dst.format
        (← f32Fma c.arith.rtz (← x.f32 e.mem c.arith none i) (← y.f32 e.mem c.arith none i) (← z.f32 e.mem c.arith none i)))

/-- Index of the extreme of F32 values: the first NaN if there is one, else the lowest index of the extreme (R312). -/
def argExtreme (better : Word → Word → Bool) (xs : List Word) : Nat :=
  match xs.findIdx? f32IsNan with
  | some i => i
  | none => ((List.range xs.length).foldl (fun (b : Nat) i => if better (xs.getD i 0) (xs.getD b 0) then i else b) 0)

/-- Sum of F32 values in ascending index, each addition rounded (R312). -/
def sumF32 (rtz : Bool) (xs : List Word) : Fm Word := xs.foldlM (fun s x => f32Add rtz s x) 0

/-- REDUCE (R312). DEDUCED, log entry 114. -/
def CmdEnv.reduce (e : CmdEnv) (c : Command) : CmdOut :=
  let src := e.tens c 0
  let dst := e.tens c 1
  let axis := fieldNat (c.param 0) 0 3
  let op := fieldNat (c.param 0) 4 4
  let n := src.d axis
  e.done c [src] (dst.fill e.mem fun i =>
    let at_ (j : Nat) : List Nat := i.set axis j
    let raw (v : Nat) : Fm Nat := pure (v % 2 ^ formatBits dst.format)
    if n = 0 then
      (match op with
      | 0 => storeCode c.arith dst.format 0
      | 1 => storeCode c.arith dst.format 0xFF800000
      | 2 => storeCode c.arith dst.format 0x7F800000
      | _ => raw 0xFFFFFFFF)
    else if src.isInt || src.format == 6 || src.format == 7 then
      let xs := (List.range n).map fun j => src.int e.mem (at_ j)
      let f := if src.format = 6 then 6 else if src.format = 7 then 7 else 5
      let best (better : Int → Int → Bool) : Nat :=
        (List.range n).foldl (fun (b : Nat) j => if better (xs.getD j 0) (xs.getD b 0) then j else b) 0
      (match op with
      | 0 => do storeFixed c.arith f dst.format (← xs.foldlM (fun s x => satF (if f = 7 then 64 else 32) (s + x)) 0)
      | 1 => storeFixed c.arith f dst.format (xs.getD (best fun x y => decide (y < x)) 0)
      | 2 => storeFixed c.arith f dst.format (xs.getD (best fun x y => decide (x < y)) 0)
      | 3 => raw (best fun x y => decide (y < x))
      | _ => raw (best fun x y => decide (x < y)))
    else do
      let xs ← (List.range n).mapM fun j => src.f32 e.mem c.arith none (at_ j)
      match op with
      | 0 => storeCode c.arith dst.format (← sumF32 c.arith.rtz xs)
      | 1 => storeCode c.arith dst.format (xs.drop 1 |>.foldl f32Max (xs.getD 0 0))
      | 2 => storeCode c.arith dst.format (xs.drop 1 |>.foldl f32Min (xs.getD 0 0))
      | 3 => raw (argExtreme (fun x y => f32Lt y x) xs)
      | _ => raw (argExtreme (fun x y => f32Lt x y) xs))

/-- SOFTMAX (R313). -/
def CmdEnv.softmax (e : CmdEnv) (c : Command) : CmdOut :=
  let src := e.tens c 0
  let dst := e.tens c 1
  let mask := e.tens? c 2
  let r : Fm Memory := do
    let vs ← (indices (dst.dim.drop 1)).mapM fun row => do
      let part := (List.range (src.d 0)).filter fun k => match mask with | some x => x.code e.mem (k :: row) != 0 | none => true
      let xs ← part.mapM fun k => do return (k, ← f32Mul c.arith.rtz (← src.f32 e.mem c.arith none (k :: row)) (c.paramW 1))
      let m := (xs.drop 1).foldl (fun m x => f32Max m x.2) (match xs with | x :: _ => x.2 | [] => 0)
      let es ← xs.mapM fun x => do return (x.1, ← f32Exp c.arith.rtz (← f32Sub c.arith.rtz x.2 m))
      let s ← sumF32 c.arith.rtz (es.map (·.2))
      let inv ← if part.isEmpty then pure 0 else f32Recip c.arith.rtz s
      (List.range (dst.d 0)).mapM fun k => do
        match es.find? (·.1 == k) with
        | some x => return (k :: row, ← storeCode c.arith dst.format (← f32Mul c.arith.rtz x.2 inv))
        | none => return (k :: row, ← storeCode c.arith dst.format 0)
    return dst.putAll e.mem vs.flatten
  e.done c (src :: mask.toList) r

/-- NORM (R314). -/
def CmdEnv.norm (e : CmdEnv) (c : Command) : CmdOut :=
  let src := e.tens c 0
  let gamma := e.tens? c 1
  let beta := e.tens? c 2
  let dst := e.tens c 3
  let z := c.arith.rtz
  let w := src.d 0
  let rms := fieldNat (c.param 0) 0 1 == 1
  let r : Fm Memory := do
    let inv ← f32Recip z (← toF32 z (intVal (w : Int) 0))
    let vs ← (indices (dst.dim.drop 1)).mapM fun row => do
      let xs ← (List.range w).mapM fun k => src.f32 e.mem c.arith none (k :: row)
      let mu ← if rms then pure 0 else f32Mul z (← sumF32 z xs) inv
      let ds ← xs.mapM fun x => if rms then pure x else f32Sub z x mu
      let sq ← ds.mapM fun d => f32Mul z d d
      let v ← f32Mul z (← sumF32 z sq) inv
      let k ← f32Rsqrt z (← f32Add z v (c.paramW 1))
      (List.range w).mapM fun j => do
        let g ← match gamma with | some x => x.f32 e.mem c.arith none [j] | none => pure 0x3F800000
        let b ← match beta with | some x => x.f32 e.mem c.arith none [j] | none => pure 0
        return (j :: row, ← storeCode c.arith dst.format (← f32Fma z (← f32Mul z (ds.getD j 0) k) g b))
    return dst.putAll e.mem vs.flatten
  e.done c ([src] ++ gamma.toList ++ beta.toList) r

/-- DIGEST's byte stream (R321). -/
def Tens.stream (x : Tens) (m : Memory) : Bytes :=
  let codes := (indices x.dim).map fun i => x.code m i
  if isNibble x.format then
    (List.range ((codes.length + 1) / 2)).map fun j => BitVec.ofNat 8 (codes.getD (2 * j) 0 + 16 * codes.getD (2 * j + 1) 0)
  else codes.flatMap fun v => leBytes (formatBits x.format / 8) v

/-- DIGEST (R321): memory after it, and the golden digest after it. -/
def CmdEnv.digest (e : CmdEnv) (c : Command) (golden : Bytes) : CmdOut × Bytes :=
  let src := e.tens c 0
  let d := sha256 (src.stream e.mem)
  if e.countBad c || src.poisoned e.mem then ({ mem := e.mem, clamps := e.clamps c, poisoned := true }, golden)
  else if fieldNat (c.param 0) 0 1 = 1 then ({ mem := e.mem, clamps := e.clamps c }, sha256 (golden ++ d))
  else
    let dst := e.tens c 1
    ({ mem := dst.putAll e.mem ((List.range 32).map fun i => ([i], (d.getD i 0).toNat)), clamps := e.clamps c }, golden)

/-! ### Key/value pages (spec 13) -/

/-- Head control (R315). -/
structure HeadCtl where
  heads : Nat
  dim : Nat
  format : Nat
  keys : Nat
  head0 : Nat
  base : Nat
  bytes : Nat
deriving DecidableEq, Repr

/-- Keys of each bucket (R315). -/
def bucketKeys : List Nat := [32, 64, 128, 256, 512, 768, 1024]

/-- The head control of a key/value command (R315). -/
def Command.headCtl (c : Command) : HeadCtl :=
  let p := c.param 0
  { heads := fieldNat p 0 4 + 1, dim := if fieldNat p 4 1 = 1 then 128 else 64, format := if fieldNat p 5 1 = 1 then 9 else 11
    keys := bucketKeys.getD (fieldNat p 6 3) 1024, head0 := fieldNat p 9 4, base := c.param 2, bytes := c.param 3 }

/-- Bytes of one key or value element. -/
def HeadCtl.elem (h : HeadCtl) : Nat := if h.format = 9 then 1 else 2
/-- Page stride and band (R326). -/
def HeadCtl.pageBytes (h : HeadCtl) : Nat := 512 * h.dim * h.elem
def HeadCtl.band (h : HeadCtl) (kv : KvCfg) : Nat := h.bytes / kv.heads

/-- A page offset that is one (R315, R328). -/
def HeadCtl.page (h : HeadCtl) (kv : KvCfg) (o : Nat) : Option Nat :=
  if h.base ≤ o ∧ o < h.base + h.bytes ∧ (o - h.base) % h.pageBytes = 0 ∧ (o - h.base) / h.pageBytes < h.band kv / h.pageBytes then some o else none

/-- Where in-page position p, element d of a key or value of head k lies in a page (R328). -/
def HeadCtl.pageAddr (h : HeadCtl) (kv : KvCfg) (o k p d : Nat) (value : Bool) : Nat :=
  o + k * h.band kv + ((if value then 256 * h.dim else 0) + p * h.dim + d) * h.elem

/-- Start of head k of staging slot s of an engine (R329). DEDUCED, log entry 116. -/
def CmdEnv.stageAddr (e : CmdEnv) (h : HeadCtl) (s k : Nat) : Nat :=
  localBytes - e.cfg.stagingBytes + s * e.kv.headsOf[e.env.engine] * h.pageBytes + (k - e.kv.head0[e.env.engine]) * h.pageBytes

/-- Where a token of a track is held: its staging slot, its page, or nowhere (R337, R329). -/
inductive Held where
  | stage (s : Nat)
  | page (o : Nat)
  | none_
deriving DecidableEq, Repr

/-- Where position j of track t is read: from the slot if it lies in the current page of a staged track, else from its page (R337). DEDUCED, log entry 116. -/
def CmdEnv.heldAt (e : CmdEnv) (h : HeadCtl) (pages : Tens) (stage : Nat) (current : Bool) (t j : Nat) : Held :=
  if stage ≠ 0xFFFFFFFF ∧ current then (if stage < e.kv.stageSlots then .stage stage else .none_)
  else match h.page e.kv (pages.code e.mem [j / 256, t]) with | some o => .page o | none => .none_

/-- Space and address of an element of a held token. -/
def CmdEnv.kvAddr (e : CmdEnv) (h : HeadCtl) (x : Held) (k p d : Nat) (value : Bool) : Option (Space × Nat) :=
  match x with
  | .stage s => some (.loc e.env.engine, e.stageAddr h s k + ((if value then 256 * h.dim else 0) + p * h.dim + d) * h.elem)
  | .page o => some (.cistern, h.pageAddr e.kv o k p d value)
  | .none_ => none

/-- Does a head's key or value of a held token lie in a poisoned word (R472). -/
def CmdEnv.kvBad (e : CmdEnv) (h : HeadCtl) (x : Held) (k p : Nat) : Bool :=
  [false, true].any fun value => match e.kvAddr h x k p 0 value with
    | some (sp, a) => e.mem.poisoned sp a (h.dim * h.elem)
    | none => false

/-- An element of a held token; 0 where it is held nowhere. -/
def CmdEnv.kvVal (e : CmdEnv) (h : HeadCtl) (x : Held) (k p d : Nat) (value : Bool) : FVal :=
  match e.kvAddr h x k p d value with
  | some (sp, a) => formatVal h.format (e.mem.readNat sp a h.elem)
  | none => .fin false 0 1

/-- Attention of one track and head over its used keys, by blocks (R316). -/
def CmdEnv.attendOne (e : CmdEnv) (c : Command) (h : HeadCtl) (k : Nat) (q : List FVal) (keys : List (Nat × Held)) : Fm (List Word) := do
  let z := c.arith.rtz
  let blocks := (keys.map fun x => x.1 / 64).foldl (fun (l : List Nat) b => if l.contains b then l else l ++ [b]) []
  let (_, l, acc) ← blocks.foldlM (fun (st : Word × Word × List Word) b => do
      let (m, l, acc) := st
      let ks := keys.filter fun x => x.1 / 64 == b
      let ss ← ks.mapM fun x => do
        let ps ← (List.range h.dim).mapM fun i => (q.getD i .nan).mul (e.kvVal h x.2 k (x.1 % 256) i false)
        f32Mul z (c.paramW 1) (← toF32 z (← exactSum ps))
      let mNew := ss.foldl f32Max m
      let cc ← f32Exp z (← f32Sub z m mNew)
      let l ← f32Mul z l cc
      let acc ← acc.mapM fun a => f32Mul z a cc
      (List.zip ks ss).foldlM (fun (st : Word × Word × List Word) x => do
        let (m, l, acc) := st
        let p ← f32Exp z (← f32Sub z x.2 m)
        let l ← f32Add z l p
        let acc ← (List.zip acc (List.range h.dim)).mapM fun a => do
          f32Fma z p (← toF32 z (e.kvVal h x.1.2 k (x.1.1 % 256) a.2 true)) a.1
        return (m, l, acc)) (mNew, l, acc)) ((0xFF800000 : Word), (0 : Word), List.replicate h.dim (0 : Word))
  if keys.isEmpty then return List.replicate h.dim 0
  let inv ← f32Recip z l
  acc.mapM fun a => f32Mul z a inv

/-- The keys that track t uses, each with where it is held (R316, R337). -/
def CmdEnv.attendKeys (e : CmdEnv) (c : Command) (h : HeadCtl) (t : Nat) : List (Nat × Held) :=
  let len := (e.tens c 2).code e.mem [t]
  let qpos := (e.tens c 3).code e.mem [t]
  let stage := (e.tens c 4).code e.mem [t]
  ((List.range (min len (qpos + 1))).filter fun j => decide (len - h.keys ≤ j)).map fun j =>
    (j, e.heldAt h (e.tens c 1) stage (j / 256 == (len - 1) / 256) t j)

/-- ATTEND (R316). -/
def CmdEnv.attend (e : CmdEnv) (c : Command) : CmdOut :=
  let h := c.headCtl
  let q := e.tens c 0
  let lens := e.tens c 2
  let dst := e.tens c 5
  let ts := List.range (lens.d 0)
  let r : Fm Memory := do
    let vs ← ts.mapM fun t => do
      let keys := (e.attendKeys c h t).filter fun x => x.2 != .none_
      (List.range h.heads).mapM fun k => do
        let qv := (List.range h.dim).map fun i => q.val e.mem none [i, k, t]
        let out ← e.attendOne c h (h.head0 + k) qv keys
        (List.zip (List.range h.dim) out).mapM fun o => do return ([o.1, k, t], ← storeCode c.arith dst.format o.2)
    return dst.putAll e.mem vs.flatten.flatten
  let bad := ts.any fun t => (e.attendKeys c h t).any fun x => (List.range h.heads).any fun k => e.kvBad h x.2 (h.head0 + k) (x.1 % 256)
  { (if bad then { mem := e.mem, clamps := e.clamps c, poisoned := true } else e.done c [q, e.tens c 1, lens, e.tens c 3, e.tens c 4] r) with
    bucket := (ts.filter fun t => decide (h.keys < lens.code e.mem [t])).length
    noPage := (ts.map fun t => ((e.attendKeys c h t).filter fun x => x.2 == .none_).length).foldl (· + ·) 0 }

/-- Write token POS of a track where it is held (R317). -/
def CmdEnv.kvWrite (e : CmdEnv) (c : Command) (h : HeadCtl) (m : Memory) (t pos : Nat) (x : Held) : Fm Memory :=
  (List.range h.heads).foldlM (fun m k => (List.range (2 * h.dim)).foldlM (fun m i => do
    let value := decide (h.dim ≤ i)
    let d := i % h.dim
    let v ← storeCode c.arith h.format (← (e.tens c (if value then 1 else 0)).f32 e.mem c.arith none [d, k, t])
    match e.kvAddr h x (h.head0 + k) (pos % 256) d value with
    | some (sp, a) => return m.write sp a (leBytes h.elem v)
    | none => return m) m) m

/-- Where KV_APPEND (`scatter` false) or KV_SCATTER writes token `pos` of track t: nowhere where its page is 0xFFFF_FFFF, else its staging slot or
its page (R317, R329, R337). -/
def CmdEnv.writtenAt (e : CmdEnv) (h : HeadCtl) (pages : Tens) (stage : Nat) (scatter : Bool) (t pos : Nat) : Held :=
  match h.page e.kv (pages.code e.mem [pos / 256, t]) with
  | none => .none_
  | some o => if scatter then .page o else if stage < e.kv.stageSlots then .stage stage else .none_

/-- KV_APPEND (`scatter` false) and KV_SCATTER (R317, R329). -/
def CmdEnv.kvToken (e : CmdEnv) (c : Command) (scatter : Bool) : CmdOut :=
  let h := c.headCtl
  let posT := e.tens c 2
  let stageT := e.tens c 3
  let ts := (List.range (posT.d 0)).filter fun t => (stageT.code e.mem [t] == 0xFFFFFFFF) == scatter
  let place (t : Nat) : Held :=
    e.writtenAt h (e.tens c 4) (stageT.code e.mem [t]) scatter t (posT.code e.mem [t])
  let r : Fm Memory := ts.foldlM (fun m t => e.kvWrite c h m t (posT.code e.mem [t]) (place t)) e.mem
  { e.done c [e.tens c 0, e.tens c 1, posT, stageT, e.tens c 4] r with noPage := (ts.filter fun t => place t == .none_).length }

/-- KV_FLUSH (R317). -/
def CmdEnv.kvFlush (e : CmdEnv) (c : Command) : CmdOut :=
  let h := c.headCtl
  let stageT := e.tens c 0
  let pages := e.tens c 1
  let posT := e.tens c 2
  let ts := (List.range (posT.d 0)).filter fun t => stageT.code e.mem [t] != 0xFFFFFFFF && posT.code e.mem [t] % 256 == 255
  let page (t : Nat) : Option Nat :=
    if stageT.code e.mem [t] < e.kv.stageSlots then h.page e.kv (pages.code e.mem [posT.code e.mem [t] / 256, t]) else none
  let m := ts.foldl (fun (m : Memory) t => match page t with
    | some o => (List.range h.heads).foldl (fun (m : Memory) k =>
        m.write .cistern (o + (h.head0 + k) * h.band e.kv)
          (m.read (.loc e.env.engine) (e.stageAddr h (stageT.code e.mem [t]) (h.head0 + k)) h.pageBytes)) m
    | none => m) e.mem
  { e.done c [stageT, pages, posT] (pure m) with noPage := (ts.filter fun t => (page t).isNone).length }

end Sys2Proof.Machine
end

