-- ==== Sys2Proof/Machine/CheckLists.lean ====
section
/-! DEFINITION. The static rules of command lists: layout, descriptors, shapes, footprints (spec 11 R279, R285 to R290; spec 12 R297 to R322).
Lists stand one behind another in their section, each on the next 64-byte boundary, all-zero lines skipped (notes/assumptions/31.md). -/

namespace Sys2Proof.Machine

open Sys2Proof

/-- A command list as its section holds it. -/
structure Listing where
  /-- Cistern offset, and STAGE of its section. -/
  addr : Nat
  stage : Nat
  version : Nat
  levelMin : Nat
  hdr : ListHeader
  /-- VERSION of each entry, and the entry as a tensor and as a window descriptor. -/
  descs : List (Nat × Desc × Window)
  /-- VERSION of each command, and the command. -/
  cmds : List (Nat × Command)
deriving DecidableEq, Repr

/-- Bytes of a list (R297). -/
def ListHeader.bytes (h : ListHeader) : Nat := 64 + 64 * h.descCount + 32 * h.cmdCount

/-- A list at the head of its bytes. -/
def Listing.ofBytes (addr stage : Nat) (bs : Bytes) : Listing :=
  let h := ListHeader.ofBytes bs
  { addr := addr, stage := stage, version := fieldOf bs 0 4, levelMin := fieldOf bs 4 4, hdr := h
    descs := (List.range h.descCount).map fun i =>
      let d := slice bs (64 + 64 * i) 64
      (fieldOf d 0 4, Desc.ofBytes d, Window.ofBytes d)
    cmds := (List.range h.cmdCount).map fun i =>
      let c := slice bs (64 + 64 * h.descCount + 32 * i) 32
      (fieldOf c 8 4, Command.ofBytes c) }

/-- The lists of a CMDLIST section: none where one does not lie wholly inside (R297); `fuel` counts 64-byte lines. -/
def listsIn (stage : Nat) : Nat → Nat → Bytes → Option (List Listing)
  | 0, _, _ => some []
  | fuel + 1, addr, bs =>
    if bs.isEmpty then some []
    else if (bs.take 64).all (· == 0) then listsIn stage fuel (addr + 64) (bs.drop 64)
    else
      let n := (ListHeader.ofBytes (bs.take 64)).bytes
      if bs.length < n then none
      else
        let step := (n + 63) / 64 * 64
        (listsIn stage fuel (addr + step) (bs.drop step)).map fun l => Listing.ofBytes addr stage (bs.take n) :: l

/-! ### Operands of a command -/

/-- Parameters that a command lists (R303). -/
def paramsOf : Nat → List Nat
  | 0x02 | 0x10 | 0x21 | 0x31 | 0x33 | 0x60 => [0] | 0x11 | 0x12 | 0x35 => [0, 1] | 0x30 => [0, 1, 2] | 0x34 => [1]
  | 0x40 => [0, 1, 2, 3] | 0x41 | 0x42 | 0x43 => [0, 2, 3] | _ => []

/-- Opcodes of R302. -/
def opcodes : List Nat :=
  [0x00, 0x01, 0x02, 0x10, 0x11, 0x12, 0x20, 0x21, 0x30, 0x31, 0x32, 0x33, 0x34, 0x35, 0x40, 0x41, 0x42, 0x43, 0x50, 0x51, 0x60, 0x61]

/-- Commands that run only on GENERATION engines. -/
def isGen (op : Nat) : Bool := decide (0x40 ≤ op) && decide (op ≤ 0x43)

/-- Operand k of a command, unless it is 0xFFF. -/
def Command.idx (c : Command) (k : Nat) : Option Nat := let i := c.op.getD k 0xFFF; if i = 0xFFF then none else some i

/-- SIGNAL and WAIT, which hold no descriptor index (R318). -/
def isSync (op : Nat) : Bool := op == 0x50 || op == 0x51

/-- An operand that is not listed is 0xFFF, and a parameter that is not listed is 0 (R303). -/
def Command.unlistedOk (c : Command) : Bool :=
  isSync c.opcode || ((List.range 8).all (fun k => (operandsOf c.opcode).contains k || (c.idx k).isNone)
    && (List.range 4).all fun j => (paramsOf c.opcode).contains j || c.param j == 0)

/-- The descriptor indices that a command names in its operand fields (R299). -/
def Command.indices (c : Command) : List Nat := if isSync c.opcode then [] else (List.range 8).filterMap c.idx

/-- The descriptor entries that a command uses as tensors: entry, and whether it is written. -/
def Command.tensorUses (c : Command) : List (Nat × Bool) :=
  let reads := (readOps c.opcode).1.filterMap c.idx
  let reads := if c.opcode = 0x12 then fieldNat (c.param 1) 0 12 :: reads else reads
  reads.map (·, false) ++ ((destOps c.opcode).1.filterMap c.idx).map (·, true)

/-- The entry that CONV uses as a window descriptor. -/
def Command.windowUse (c : Command) : Option Nat := if c.opcode = 0x11 then some (fieldNat (c.param 1) 0 12) else none

/-- The tensor descriptors of a list: every entry that no command uses as a window (R288, R299). -/
def Listing.tensors (l : Listing) : List Desc :=
  let ws := l.cmds.filterMap fun x => x.2.windowUse
  (l.descs.zipIdx.filter fun x => !(ws.contains x.2)).map fun x => x.1.2.1

/-- Descriptor k of a list. -/
def Listing.desc (l : Listing) (i : Nat) : Option Desc := (l.descs[i]?).map fun x => x.2.1
def Listing.opd (l : Listing) (c : Command) (k : Nat) : Option Desc := (c.idx k).bind l.desc

/-! ### Descriptors (R285, R286, R288) -/

/-- Least and greatest element offset that a descriptor reaches. -/
def Desc.reach (d : Desc) : Int × Int :=
  (List.zip d.dim d.stride).foldl (fun (r : Int × Int) (x : Nat × Int) =>
    let e := ((x.1 : Int) - 1) * x.2
    if e < 0 then (r.1 + e, r.2) else (r.1, r.2 + e)) (0, 0)

/-- First byte and the byte past the last of a descriptor, in one parity (R286, R173). -/
def Desc.span (d : Desc) (odd : Bool) : Int × Int :=
  let b : Int := (d.base + if odd then d.parity else 0 : Nat)
  let (lo, hi) := d.reach
  if isNibble d.format then ((2 * b + lo) / 2, (2 * b + hi) / 2 + 1)
  else let n : Int := (formatBits d.format / 8 : Nat); (b + lo * n, b + hi * n + n)

/-- The footprint's byte range (R288, R293): over both parities. -/
def Desc.range (d : Desc) : Int × Int :=
  let e := d.span false
  let o := d.span true
  (min e.1 o.1, max e.2 o.2)

/-- |STRIDE| and DIM of each dimension, in ascending |STRIDE|. -/
def Desc.byStride (d : Desc) : List (Nat × Nat) := sortKey (fun (x : Nat × Nat) => x.1) ((List.zip d.dim d.stride).map fun x => (x.2.natAbs, x.1))

/-- No element of a destination is aliased (R288). -/
def Desc.distinct (d : Desc) : Bool :=
  (d.byStride.foldl (fun (r : Bool × Nat) (x : Nat × Nat) =>
    (r.1 && (x.2 ≤ 1 || decide (r.2 + 1 ≤ x.1)), r.2 + (x.2 - 1) * x.1)) (true, 0)).1

/-- Does a descriptor keep R288 by itself, as far as the section shows; none where it does, else the reason. DEDUCED, log entry 83. -/
def Desc.reason (d : Desc) (written : Bool) : Option (BitVec 4) :=
  if d.rank = 7 then some 13
  else
    let (lo, hi) := d.range
    let inSpace : Bool := decide (0 ≤ lo) && (match d.space with | 0 => decide (hi ≤ 134217728) | 1 => decide (hi ≤ 7340032) | _ => true)
    let ok := d.format != 15 && d.rank != 0 && d.bindDim != 6 && d.dim.all (fun n => n != 0)
      && ((List.zip d.dim d.stride).drop d.rank).all (fun x => x.1 == 1 && x.2 == 0)
    let mx := d.format != 8 || (d.stride.getD 0 0 == 1 && d.dim.getD 0 1 % 32 == 0 && d.bindDim != 0)
    let count := d.bindDim == 7 || (d.countAddr % 4 == 0 && decide (d.countAddr + d.parity + 4 ≤ 134217728))
    if ok && mx && count && inSpace && !(written && (d.space == 3 || !d.distinct)) then none else some 12

/-- The count word that dimension k of a descriptor is bound to (R287). -/
def Desc.bound (d : Desc) (k : Nat) : Option (Nat × Nat) := if d.bindDim = k then some (d.countAddr, d.parity) else none

/-- Dimension k of a descriptor. -/
def Desc.d (x : Desc) (k : Nat) : Nat := x.dim.getD k 1

/-- Dimension i of one descriptor fits dimension j of another: equal sizes, and where both are bound the same count word (R287). -/
def Desc.fits (x : Desc) (i : Nat) (y : Desc) (j : Nat) : Bool :=
  x.d i == y.d j && match x.bound i, y.bound j with | some a, some b => a == b | _, _ => true

/-- Same RANK and DIM, dimension by dimension (R287, R311). -/
def Desc.fitsAll (x y : Desc) : Bool := x.rank == y.rank && (List.range 6).all fun k => x.fits k y k

/-- Dimension i of one descriptor agrees with dimension j of another: equal sizes, and bound to the same count word or not at all (R304, R305, R315). -/
def Desc.agrees (x : Desc) (i : Nat) (y : Desc) (j : Nat) : Bool := x.d i == y.d j && x.bound i == y.bound j

/-- Same shape, dimension by dimension. -/
def Desc.sameShape (x y : Desc) : Bool := x.rank == y.rank && (List.range 6).all fun k => x.agrees k y k

/-- An absent operand, or one that passes. -/
def optOk (o : Option Desc) (f : Desc → Bool) : Bool := match o with | some d => f d | none => true

/-- A present operand that passes. -/
def mustOk (o : Option Desc) (f : Desc → Bool) : Bool := match o with | some d => f d | none => false

/-- A vector of n elements. -/
def Desc.line (d : Desc) (n : Nat) : Bool := d.d 0 == n && (d.dim.drop 1).all (· == 1)

/-- A vector of n elements that no count word binds (R305). -/
def Desc.vec (d : Desc) (n : Nat) : Bool := d.line n && d.bindDim == 7

/-! ### Shapes of the commands (R304 to R317) -/

/-- Operand pairs of R175, with the accumulator's format. -/
def macFormats (a b : Nat) : Option Nat :=
  match a, b with
  | 0, 0 => some 5 | 1, 1 => some 5 | 2, 1 => some 5 | 8, 8 => some 13
  | 9, 9 | 9, 10 | 10, 9 | 10, 10 | 11, 11 | 12, 12 => some 13
  | _, _ => none

/-- What MATMUL, CONV and SPCONV share: formats, INIT, SCALE, OFFSET, MX scales and ACT (R305, R306). -/
def Listing.matrixOk (l : Listing) (c : Command) : Bool :=
  match l.opd c 0, l.opd c 1, l.opd c 5 with
  | some a, some b, some dst =>
    let n := b.d 1
    (match macFormats a.format b.format with
      | some acc => optOk (l.opd c 2) (fun d => d.format == acc && d.vec n)
      | none => false)
      && optOk (l.opd c 3) (fun d => d.format == 13 && d.vec n) && optOk (l.opd c 4) (fun d => d.format == 13 && d.vec n)
      && !isNibble dst.format && dst.d 0 == n && dst.bindDim != 0
      && b.bindDim == 7 && (b.dim.drop 2).all (· == 1) && a.bindDim != 0
      && (if a.format = 8 then
            mustOk (l.opd c 6) (fun s => s.format == 14 && s.bindDim != 0 && s.d 0 == a.d 0 / 32 && (List.range 5).all fun k => s.agrees (k + 1) a (k + 1))
              && mustOk (l.opd c 7) (fun s => s.format == 14 && s.bindDim == 7 && s.d 0 == b.d 0 / 32 && s.d 1 == n && (s.dim.drop 2).all (· == 1))
          else (l.opd c 6).isNone && (l.opd c 7).isNone)
      && decide (fieldNat (c.param 0) 0 4 ≤ 7)
  | _, _, _ => false

/-- A window descriptor over an input (R289, R290). -/
def Window.ok (w : Window) (h x : Nat) : Bool :=
  w.kh != 0 && w.kw != 0 && decide (w.padT ≤ 6) && decide (w.padB ≤ 6) && decide (w.padL ≤ 6) && decide (w.padR ≤ 6)
    && decide (w.dh * (w.kh - 1) + 1 ≤ h + w.padT + w.padB) && decide (w.dw * (w.kw - 1) + 1 ≤ x + w.padL + w.padR)

/-- The operands of a key/value command with the dimension of each that is T, the first one an operand whose T the others share (R315). -/
def kvOps : Nat → List (Nat × Nat)
  | 0x40 => [(0, 2), (5, 2), (1, 1), (2, 0), (3, 0), (4, 0)]
  | 0x42 => [(0, 0), (1, 1), (2, 0)]
  | _ => [(0, 2), (1, 2), (4, 1), (2, 0), (3, 0)]

/-- The shapes of a key/value command (R315): [T][HEADS][D], [T][4] and [T], of which only T is bound, with one count word. -/
def Listing.kvShape (l : Listing) (c : Command) : Bool :=
  let h := c.headCtl
  let rs := kvOps c.opcode
  let base := (rs.head?.bind fun r => (l.opd c r.1).map fun d => (d, r.2))
  rs.all fun r => mustOk (l.opd c r.1) fun d =>
    d.rank == r.2 + 1 && (d.bindDim == 7 || d.bindDim == r.2) && (match base with | some b => d.agrees r.2 b.1 b.2 | none => false)
      && (match r.2 with
          | 2 => d.d 0 == h.dim && d.d 1 == h.heads && (c.opcode != 0x40 || [11, 13].contains d.format)
          | 1 => d.d 0 == 4 && d.format == 5
          | _ => d.format == 5)

/-- The shape rule of one command (R304 to R318); KV commands by R315. -/
def Listing.shapeOk (l : Listing) (c : Command) : Bool :=
  let o := l.opd c
  match c.opcode with
  | 0x01 =>
    (match o 0, o 1 with
     | some s, some d => s.sameShape d
        && (d.format != 8 || mustOk (o 2) fun x => x.format == 14 && x.d 0 == d.d 0 / 32 && (List.range 5).all fun k => x.agrees (k + 1) d (k + 1))
        && (s.format != 8 || mustOk (o 3) fun x => x.format == 14 && x.d 0 == s.d 0 / 32 && (List.range 5).all fun k => x.agrees (k + 1) s (k + 1))
     | _, _ => false)
  | 0x10 =>
    l.matrixOk c && (match o 0, o 1, o 5 with
     | some a, some b, some d => a.d 0 == b.d 0 && (List.range 5).all fun k => a.agrees (k + 1) d (k + 1)
     | _, _, _ => false)
  | 0x11 =>
    l.matrixOk c && (match o 0, o 1, o 5, c.windowUse.bind fun i => l.descs[i]? with
     | some a, some b, some d, some w =>
       let w := w.2.2
       decide (3 ≤ a.rank) && w.ok (a.d 2) (a.d 1) && b.d 0 == w.kh * w.kw * a.d 0 && d.d 1 == w.outW (a.d 1) && d.d 2 == w.outH (a.d 2)
         && (a.bindDim == 7 || decide (3 ≤ a.bindDim)) && (d.bindDim == 7 || decide (3 ≤ d.bindDim))
         && (List.range 3).all fun k => a.agrees (k + 3) d (k + 3)
     | _, _, _, _ => false)
  | 0x12 =>
    l.matrixOk c && (match o 0, o 1, o 5, l.desc (fieldNat (c.param 1) 0 12) with
     | some a, some b, some d, some r =>
       a.rank == 2 && d.rank == 2 && a.d 0 != 0 && b.d 0 % a.d 0 == 0 && r.rank == 1 && r.format == 2
     | _, _, _, _ => false)
  | 0x20 =>
    (match o 0, o 1, o 2 with
     | some s, some x, some d => s.rank == 2 && decide (x.rank ≤ 5) && x.format == 5 && d.fits 0 s 0 && (List.range 5).all fun k => d.fits (k + 1) x k
     | _, _, _ => false)
  | 0x21 =>
    (match o 0, o 1, o 2 with
     | some s, some x, some d =>
       x.format == 5 && d.rank == 1 && d.stride.getD 0 0 == 1 && ((List.range 5).all fun k => s.fits (k + 1) x k) && fieldNat (c.param 0) 0 2 != 3
     | _, _, _ => false)
  | 0x30 =>
    (match o 0, o 1 with
     | some s, some d => s.fitsAll d && decide (fieldNat (c.param 0) 0 8 ≤ 15)
        && (fieldNat (c.param 0) 0 8 != 13 || !((f32Val (c.paramW 2)).lt (f32Val (c.paramW 1))))
     | _, _ => false)
  | 0x31 =>
    (match o 0, o 1, o 2 with
     | some a, some b, some d => a.fitsAll d && b.fitsAll d && decide (fieldNat (c.param 0) 0 8 ≤ 7)
     | _, _, _ => false)
  | 0x32 =>
    (match o 0, o 1, o 2, o 3 with
     | some a, some b, some x, some d => a.fitsAll d && b.fitsAll d && x.fitsAll d
     | _, _, _, _ => false)
  | 0x33 =>
    (match o 0, o 1 with
     | some s, some d =>
       let ax := fieldNat (c.param 0) 0 3
       let op := fieldNat (c.param 0) 4 4
       decide (ax ≤ 5) && decide (op ≤ 4) && d.d ax == 1 && (decide (op ≤ 2) || d.format == 5)
         && (List.range 6).all fun k => k == ax || s.fits k d k
     | _, _ => false)
  | 0x34 =>
    (match o 0, o 1 with
     | some s, some d => s.fitsAll d && optOk (o 2) (fun m => m.format == 2 && m.fitsAll s)
     | _, _ => false)
  | 0x35 =>
    (match o 0, o 3 with
     | some s, some d => s.fitsAll d && optOk (o 1) (fun g => g.d 0 == s.d 0) && optOk (o 2) (fun g => g.d 0 == s.d 0)
     | _, _ => false)
  | 0x40 | 0x41 | 0x42 | 0x43 =>
    let h := c.headCtl
    decide (h.head0 + h.heads ≤ 16) && (c.opcode != 0x40 || fieldNat (c.param 0) 6 3 != 7) && l.kvShape c
  | 0x50 => fieldNat c.bits 32 32 % 4 == 0 && decide (fieldNat c.bits 32 32 + 4 ≤ 134217728)
  | 0x51 => fieldNat c.bits 32 32 % 4 == 0 && decide (fieldNat c.bits 32 32 + 4 ≤ 134217728) && inN 1 (fieldNat c.bits 80 16) 5000
  | 0x60 => fieldNat (c.param 0) 0 1 == 1 || mustOk (o 1) (fun d => d.format == 2 && d.line 32)
  | _ => true

/-- A list's golden arrangement (R322). -/
def Listing.goldenOk (l : Listing) : Bool :=
  let n := l.cmds.length
  let checks := l.cmds.zipIdx.filter fun x => x.1.2.opcode == 0x61
  let folds := l.cmds.any fun x => x.2.opcode == 0x60 && fieldNat (x.2.param 0) 0 1 == 1
  if l.hdr.golden then l.hdr.next == 0xFFFFFFFF && (match checks with | [x] => x.2 + 1 == n | _ => false)
  else checks.isEmpty && !folds

/-- Why a list by itself is rejected (R288 to R322): 13 CAPS or 12 CONTENT. DEDUCED, log entry 83. -/
def Listing.reason (l : Listing) : Option (BitVec 4) :=
  if 1 < l.levelMin then some 13 else
  let versions := l.version == 1 && l.descs.all (fun x => x.1 == 1) && l.cmds.all (fun x => x.1 == 1)
  let header := l.levelMin != 0 && (decide (l.hdr.slot < 64) || l.hdr.slot == 127) && l.hdr.cmdCount != 0
    && (l.hdr.completion == 0xFFFFFFFF || (l.hdr.completion % 32 == 0 && decide (l.hdr.completion + 32 ≤ 134217728)))
    && (l.hdr.next == 0xFFFFFFFF || decide (l.hdr.next.toNat < 134217728))
  let cmds := l.cmds.map fun x => x.2
  let uses := cmds.flatMap Command.tensorUses
  let windows := cmds.filterMap Command.windowUse
  let inRange := (uses.map (fun x => x.1) ++ cmds.flatMap Command.indices ++ windows).all fun i => decide (i < l.hdr.descCount)
  let split := windows.all fun i => !(uses.any fun x => x.1 == i)
  let needed := cmds.all fun c => ((readOps c.opcode).2 ++ (destOps c.opcode).2).all fun k => (c.idx k).isSome
  let slots := l.hdr.slot != 127 || !(l.tensors.any fun d => d.space == 3)
  let caps := l.descs.zipIdx.filterMap fun x => if windows.contains x.2 then none else x.1.2.1.reason (uses.contains (x.2, true))
  if caps.contains 13 then some 13
  else if versions && header && inRange && split && needed && cmds.all Command.unlistedOk && slots && caps.isEmpty && cmds.all (fun c => opcodes.contains c.opcode && l.shapeOk c) && l.goldenOk
  then none else some 12

/-! ### Footprints (R293) -/

/-- One footprint of a command: space code of R285, byte range, and whether it is written. -/
structure Foot where
  space : Nat
  lo : Int
  hi : Int
  write : Bool
deriving DecidableEq, Repr

/-- A footprint of a descriptor. -/
def Desc.foot (d : Desc) (w : Bool) : Foot := ⟨d.space, d.range.1, d.range.2, w⟩

/-- The footprint of a descriptor's count word (R287, R293). -/
def Desc.countFoot (d : Desc) : List Foot :=
  if d.bindDim < 6 then [⟨0, min d.countAddr (d.countAddr + d.parity), (d.countAddr + d.parity + 4 : Nat), false⟩] else []

/-- The footprints of every tensor descriptor of a list, with their count words (R288, R319). -/
def Listing.descFeet (l : Listing) : List Foot := l.tensors.flatMap fun d => d.foot false :: d.countFoot

/-- The footprints of the descriptors that a command uses, and of their count words (R293, R287). -/
def Listing.tensorFeet (l : Listing) (c : Command) : List Foot :=
  (c.tensorUses.filterMap fun x => (l.desc x.1).map fun d => (d, x.2)).flatMap fun x => x.1.foot x.2 :: x.1.countFoot

/-- The page region and staging region that a key/value command touches, on an engine with this much staging (R315). -/
def Command.kvFeet (c : Command) (staging : Nat) : List Foot :=
  let local_ : Int × Int := ((7340032 - staging : Nat), 7340032)
  let h := c.headCtl
  match c.opcode with
    | 0x40 => [⟨0, h.base, (h.base + h.bytes : Nat), false⟩, ⟨1, local_.1, local_.2, false⟩]
    | 0x41 => [⟨1, local_.1, local_.2, true⟩]
    | 0x42 => [⟨0, h.base, (h.base + h.bytes : Nat), true⟩, ⟨1, local_.1, local_.2, false⟩]
    | 0x43 => [⟨0, h.base, (h.base + h.bytes : Nat), true⟩]
    | _ => []

/-- The footprints of one command on an engine with this much staging (R293, R287, R315). -/
def Listing.feet (l : Listing) (c : Command) (staging : Nat) : List Foot := l.tensorFeet c ++ c.kvFeet staging

/-- Two footprints of one space meet, and one of them is written. -/
def Foot.clash (a b : Foot) : Bool := a.space == b.space && (a.write || b.write) && decide (a.lo < b.hi) && decide (b.lo < a.hi)

/-- A footprint that meets a range of the Cistern. -/
def Foot.hits (a : Foot) (r : Nat × Nat) : Bool := a.space == 0 && decide (a.lo < ((r.1 + r.2 : Nat) : Int)) && decide ((r.1 : Int) < a.hi) && decide (0 < r.2)

end Sys2Proof.Machine
end

