-- ==== Sys2Proof/Machine/CheckCross.lean ====
section
/-! DEFINITION. The content rules that relate several sections (R549), each a violation over the sections read so far; every rule is
false until every section that it names is there, so the section that completes a violation is the one charged
(spec 04 R100, R102, R549; spec 05 R119, R128; spec 06 R169; spec 08 R197, R208; spec 09 R216, R220, R239; spec 10 R246, R267;
spec 11 R278, R279, R288, R292, R293; spec 12 R299, R319, R322; spec 13 R327, R335, R336; spec 15 R363, R370, R375, R376;
spec 16 R393; spec 19 R453, R456; spec 20 R469, R478). -/

namespace Sys2Proof.Machine

open Sys2Proof

/-- The sections of an image read so far, in storage order, with what rules over "the last section" need. -/
structure ImageView where
  all : List Installed
  /-- The section just read is the last one of its stage, and the last of the image. -/
  lastOfStage : Bool
  lastStage : Nat
  /-- The section table of the slot: which sections there will be. -/
  table : List SectionEntry

/-! ### What the view holds -/

def ImageView.tb (v : ImageView) : Option TbCfg := v.all.findSome? fun (i : Installed) => match i.content with | .timebase c => some c | _ => none
def ImageView.mem (v : ImageView) : Option MemCfg := v.all.findSome? fun (i : Installed) => match i.content with | .islands _ m => some m | _ => none
def ImageView.pose (v : ImageView) : Option PlCfg := v.all.findSome? fun (i : Installed) => match i.content with | .pose c => some c | _ => none
def ImageView.cb (v : ImageView) : Option (CbCfg × Vector (Option RsCfg) 8) :=
  v.all.findSome? fun (i : Installed) => match i.content with | .channelB c r => some (c, r) | _ => none
def ImageView.guard (v : ImageView) : Option GuardCfg := v.all.findSome? fun (i : Installed) => match i.content with | .guard c => some c | _ => none
def ImageView.safety (v : ImageView) : Option SafeCfg := v.all.findSome? fun (i : Installed) => match i.content with | .safety c => some c | _ => none
def ImageView.output (v : ImageView) : Option OutCfg := v.all.findSome? fun (i : Installed) => match i.content with | .output c => some c | _ => none
def ImageView.pau (v : ImageView) : Option PauCfg := v.all.findSome? fun (i : Installed) => match i.content with | .pau c => some c | _ => none
def ImageView.qsa (v : ImageView) : Option QsaCfg := v.all.findSome? fun (i : Installed) => match i.content with | .qsa c => some c | _ => none
def ImageView.trk (v : ImageView) : Option (TrkCfg × KvCfg) :=
  v.all.findSome? fun (i : Installed) => match i.content with | .tracker c k => some (c, k) | _ => none
/-- PCU and SCHEDULE sections with their STAGE. -/
def ImageView.pcus (v : ImageView) : List (Nat × PcuCfg) :=
  v.all.filterMap fun (i : Installed) => match i.content with | .pcu c => some (i.entry.stage, c) | _ => none
def ImageView.schedules (v : ImageView) : List (Nat × List SchedEntry) :=
  v.all.filterMap fun (i : Installed) => match i.content with | .schedule es => some (i.entry.stage, es) | _ => none
/-- HEADGATE sections by number, with their STAGE. -/
def ImageView.hgs (v : ImageView) : List (Nat × Nat × HgCfg) :=
  v.all.filterMap fun (i : Installed) => match i.content with | .headgate c _ => some (i.entry.inst, i.entry.stage, c) | _ => none
def ImageView.hg (v : ImageView) (h : Nat) : Option HgCfg := (v.hgs.find? fun x => x.1 == h).map fun x => x.2.2
/-- PORT sections by island. -/
def ImageView.ports (v : ImageView) : List (Nat × PortCfg) :=
  v.all.filterMap fun (i : Installed) => match i.content with | .port c => some (i.entry.inst, c) | _ => none
/-- A PORT section of a later stage than 1 configures an island. -/
def ImageView.portLate (v : ImageView) (p : Nat) : Bool :=
  v.all.any fun (i : Installed) => match i.content with | .port _ => i.entry.inst == p && i.entry.stage != 1 | _ => false
def ImageView.port (v : ImageView) (p : Nat) : Option PortCfg := (v.ports.find? fun x => x.1 == p).map fun x => x.2
/-- TE sections by engine. -/
def ImageView.tes (v : ImageView) : List (Nat × TeCfg) :=
  v.all.filterMap fun (i : Installed) => match i.content with | .te c => some (i.entry.inst, c) | _ => none
/-- Model slots: number, STAGE, DEST and length. -/
def ImageView.slots (v : ImageView) : List (Nat × Nat × Nat × Nat) :=
  v.all.filterMap fun (i : Installed) => match i.content with | .modelSlot => some (i.entry.inst, i.entry.stage, i.entry.dest, i.bytes.length) | _ => none
/-- CMDLIST sections: DEST and length. -/
def ImageView.cmdSections (v : ImageView) : List (Nat × Nat) :=
  v.all.filterMap fun (i : Installed) => match i.content with | .cmdList => some (i.entry.dest, i.bytes.length) | _ => none
/-- Every command list. -/
def ImageView.lists (v : ImageView) : List Listing :=
  v.all.flatMap fun (i : Installed) => match i.content with
    | .cmdList => (listsIn i.entry.stage (i.bytes.length / 64 + 1) i.entry.dest i.bytes).getD []
    | _ => []

/-- A section of a TYPE and STAGE stands in the table. -/
def ImageView.has (v : ImageView) (type stage : Nat) : Bool := v.table.any fun e => e.type == type && e.stage == stage

/-- The STAGE of the section of a TYPE that is in force in stage f: the latest one up to f (R100). -/
def ImageView.forceAt (v : ImageView) (type f : Nat) : Option Nat := [3, 2].find? fun st => decide (st ≤ f) && v.has type st

/-- The lists that a schedule of a stage may launch: those of the stages in which it is in force (R100). -/
def ImageView.listsFor (v : ImageView) (st : Nat) : List Listing :=
  v.lists.filter fun (l : Listing) => decide (l.stage ≤ st) || v.forceAt 0x10 l.stage == some st

/-- The schedules that may follow one another from frame to frame: one by itself, and that of STAGE 2 before that of STAGE 3. -/
def ImageView.successions (v : ImageView) : List ((Nat × List SchedEntry) × (Nat × List SchedEntry)) :=
  v.schedules.flatMap fun a => (v.schedules.filter fun b => decide (a.1 ≤ b.1)).map fun b => (a, b)

/-- The range sensors of the view. -/
def ImageView.sensors (v : ImageView) : List RsCfg := match v.cb with | some (_, r) => r.toList.filterMap id | none => []

/-! ### Section types (R99, R100) -/

/-- TYPE of a content, and the stages where it may stand. -/
def SectionContent.place : SectionContent → Nat × List Nat
  | .timebase _ => (0x01, [1]) | .islands _ _ => (0x02, [1]) | .safety _ => (0x03, [1]) | .port _ => (0x04, [1, 2, 3]) | .headgate _ _ => (0x05, [1, 2, 3])
  | .pose _ => (0x06, [1]) | .channelB _ _ => (0x07, [1]) | .guard _ => (0x08, [1]) | .canSafe _ => (0x09, [1]) | .qanat _ => (0x0A, [1])
  | .output _ => (0x0B, [1]) | .observe _ => (0x0C, [1]) | .schedule _ => (0x10, [2, 3]) | .pau _ => (0x11, [2]) | .pcu _ => (0x12, [2, 3])
  | .te _ => (0x13, [2]) | .cmdList => (0x14, [2, 3]) | .modelSlot => (0x15, [2, 3]) | .tracker _ _ => (0x16, [2]) | .qsa _ => (0x17, [3])

/-- Required types (R100). -/
def requiredTypes : List Nat := [0x01, 0x02, 0x03, 0x06, 0x07, 0x08, 0x09, 0x0A, 0x0B]

/-- Two sections that may not both stand: a required type twice, a type twice for one INSTANCE, PCU or SCHEDULE twice in one STAGE (R100);
a configuration bus may have one section, with its script, in each STAGE (R146). DEDUCED, log entry 80. -/
def sameSection (a b : SectionEntry) : Bool :=
  a.type == b.type && (requiredTypes.contains a.type
    || (if a.type == 0x10 || a.type == 0x12 then a.stage == b.stage
        else if a.type == 0x04 && decide (32 ≤ a.inst) then a.inst == b.inst && a.stage == b.stage
        else a.inst == b.inst))

/-- A duplicate (R549). DEDUCED, log entry 80. -/
def ImageView.duplicate (v : ImageView) : Bool :=
  match v.all.reverse with
  | [] => false
  | x :: l => l.any fun (i : Installed) => sameSection x.entry i.entry

/-- The streams that POSE and CHANNEL_B name (R102). -/
def ImageView.named (v : ImageView) : List Nat :=
  (match v.pose with | some c => (c.encs.map fun (e : PlEnc) => e.headgate.val) ++ c.imus.map fun (m : PlImu) => m.headgate.val | none => [])
    ++ v.sensors.map fun (r : RsCfg) => r.geo.hg.val

/-- A stream that POSE or CHANNEL_B names is fed by a PORT or HEADGATE section of a later stage than 1 (R102). -/
def ImageView.fedLate (v : ImageView) : Bool :=
  v.named.any fun h => v.hgs.any fun x => x.1 == h && (x.2.1 != 1 || v.portLate x.2.2.port)

/-- The last STAGE 1 section leaves a required type, or a STAGE 1 HEADGATE section that POSE or CHANNEL_B names, missing (R102, R549). -/
def ImageView.missing (v : ImageView) : Bool :=
  v.lastOfStage && v.lastStage == 1
    && (requiredTypes.any (fun t => !(v.all.any fun (i : Installed) => i.entry.type == t))
        || v.named.any fun h => !(v.hgs.any fun x => x.1 == h && x.2.1 == 1))

/-! ### Ports, headgates, pose (R119, R128, R150, R169, R197, R208, R216, R220) -/

/-- Every selector of every PORT section: island, selector and headgate. -/
def ImageView.selectors (v : ImageView) : List (Nat × Nat × Nat) := v.ports.flatMap fun x => x.2.selectors.map fun s => (x.1, s.1, s.2.val)

/-- A list with a repeated entry. -/
def repeats [DecidableEq α] : List α → Bool
  | [] => false
  | x :: l => l.contains x || repeats l

/-- Bindings (R119, R128). -/
def ImageView.misbound (v : ImageView) : Bool :=
  let sel := v.selectors
  let hg := v.hgs
  let kindOf (p : Nat) : Bool := (decide (8 ≤ p) && decide (p < 14)) || (decide (28 ≤ p) && decide (p < 32))
  repeats (sel.map fun x => x.2.2)
    || repeats (hg.map fun x => (x.2.2.port, if decide (x.2.2.port < 8) || kindOf x.2.2.port then x.2.2.selector else 0))
    || hg.any (fun x => kindOf x.2.2.port && (v.port x.2.2.port).isSome && !(sel.contains (x.2.2.port, x.2.2.selector, x.1)))
    || sel.any (fun x => match v.hg x.2.2 with | some c => c.port != x.1 || c.selector != x.2.1 | none => false)
    || decide (16 < (hg.filter fun x => x.2.2.kind == .camera).length)
    || hg.any (fun x => x.2.2.kind == .scalar && match v.port x.2.2.port with
        | some (.eth c) => (match c.matchers[x.2.2.selector]? with | some m => m.etherType == 0x0800 || m.etherType == 0x86DD | none => false)
        | _ => false)
    || decide (6 * 1048576 < hg.foldl (fun (n : Nat) x => n + x.2.2.flumeBytes) 0)

/-- Stream kinds that a section's settings ask for (R194, R216, R217). -/
def ImageView.wrongKind (v : ImageView) : Bool :=
  let is (h : Nat) (f : HgKind → Bool) : Bool := match v.hg h with | some c => f c.kind | none => true
  v.sensors.any (fun (r : RsCfg) => !(is r.geo.hg.val fun k => k == .points || k == .depth))
    || (match v.pose with
        | some c => c.encs.any (fun (e : PlEnc) => !(is e.headgate.val fun k => k == .edge)) || c.imus.any (fun (m : PlImu) => !(is m.headgate.val fun k => k == .scalar))
        | none => false)
    || (match v.pau with
        | some c => c.cams.toList.any fun (x : Option CamCfg) => match x with | some x => !(is x.geo.hg.val fun k => k == .camera) | none => false
        | none => false)

/-- The input bound of R197 for one IMU in nanoseconds, as far as its sections are there: START_DELAY, two bursts and 4 SCLK periods of an SPI port,
1 µs, and the delay of its widest filter. -/
def ImageView.imuBound (v : ImageView) (i : PlImu) : Option Rat :=
  match v.hg i.headgate.val with
  | none => none
  | some c =>
    let d : Nat := if c.fields.any fun (f : FieldEntry) => f.filter == .median5 then 2
      else if c.fields.any fun (f : FieldEntry) => f.filter != .none then 1 else 0
    let filt : Rat := ((d * i.periodUs * 1000 : Nat) : Rat)
    match v.port c.port with
    | some (.spi s) => some (s.startDelay + (2 * 8 * (s.pref.length + s.length) + 4 : Nat) * 1000000 / (s.sclkKhz : Rat) + 1000 + filt)
    | some _ => some (1000 + filt)
    | none => none

/-- LAG below the input bound (R197). -/
def ImageView.lagShort (v : ImageView) : Bool :=
  match v.pose with
  | none => false
  | some c =>
    c.imus.any (fun (i : PlImu) => match v.imuBound i with | some b => decide (((c.lag * 1000 : Nat) : Rat) < b) | none => false)
      || c.encs.any fun (e : PlEnc) => match v.hg e.headgate.val with
        | some h => (match v.port h.port with | some (.enc x) => decide (c.lag * 1000 < x.minPulse + 1000) | _ => false)
        | none => false

/-- DT_NOM of a sensor in µs. -/
def Geometry.dtUs (g : Geometry) : Rat := (g.dtNom : Rat) / 8000

/-- Pose queries that could come too late or too early (R208, R220), and a DEPTH or POINTS rule over the largest offset. -/
def ImageView.queryBad (v : ImageView) : Bool :=
  v.sensors.any (fun (r : RsCfg) => match v.hg r.geo.hg.val with
      | some h => decide ((120000 : Rat) < h.stampWindow + (if r.geo.dtUs < 0 then -r.geo.dtUs else r.geo.dtUs) + r.geo.dtBound + r.asof)
      | none => false)
    || (match v.pose with
        | some c => v.sensors.any (fun (r : RsCfg) => decide (r.asof + c.extrapMax * 1000 < c.lag))
            || (match v.qsa with | some q => decide (c.extrapMax * 1000 < q.lead + c.lag) | none => false)
        | none => false)

/-- CLOSE_DELAY under R246. -/
def ImageView.closeShort (v : ImageView) : Bool :=
  v.pcus.any fun x => v.sensors.any fun (r : RsCfg) => decide ((x.2.closeDelay : Rat) < 100 + r.geo.dtUs + r.geo.dtBound + r.asof)

/-- The templates of the HEADGATE sections by their index (R129): an index names one template. -/
def ImageView.templatesBad (v : ImageView) : Bool :=
  let ts := v.all.filterMap fun (i : Installed) => match i.content with | .headgate c (some t) => some (c.template, t) | _ => none
  ts.any fun a => ts.any fun b => a.1 == b.1 && a.2 != b.2

/-- The anchor is a range sensor (R239). -/
def ImageView.anchorBad (v : ImageView) : Bool :=
  match v.pau with
  | some p => (match v.cb with | some (_, rs) => (rs.toList.getD p.anchor.val none).isNone | none => true)
  | none => false

/-! ### Settings that depend on P, V_CAP and each other (R62, R245, R404, R427, R453, R457) -/

/-- Bytes on the wire of one message of a stream, fragment by fragment (R456): preamble, gap, Ethernet header and FCS, VLAN tag, R-TAG, MACsec, IP, UDP,
output header (IEEE 802.3 sizes, notes/assumptions/24.md). PRESUMED, log entry 24. -/
def OutCfg.wireOf (c : OutCfg) (k : Fin 6) (p : Fin 2) (body : Nat) : Nat :=
  let s := c.stream[k]
  let frags := max 1 ((body + c.fragBytes - 1) / c.fragBytes)
  let head := 8 + 12 + 14 + 4 + 4 + (if s.p6 && s.p7 then 6 else 0) + (if c.macsec[p].en then 32 else 0) + (if s.dstIp.length = 16 then 40 else 20) + 8 + 96
  frags * head + body

/-- Largest line rate of a vehicle port in Mbit/s (R125). DEDUCED, log entry 85. -/
def EthCfg.topRate (c : EthCfg) : Nat :=
  if c.pcs = 1 then 2500 else if c.pcs = 3 then 10000 else if c.speed ≠ 0 then c.speed else if c.pcs = 0 then 1000 else 10000

/-- Worst-case wire bytes of a stream in a frame, as far as the sections that fix them are there (R456). DEDUCED, log entry 85. -/
def ImageView.worstOf (v : ImageView) (c : OutCfg) (pMs : Nat) (k : Fin 6) (p : Fin 2) : Nat :=
  match k with
  | 0 => c.wireOf 0 p 1456
  | 1 => match v.cb with | some (b, _) => c.wireOf 1 p (16 + b.size * b.size / 4) | none => 0
  | 2 => match v.trk with | some (t, _) => c.wireOf 2 p (64 * t.capacity + 160 * t.capacity) | none => 0
  | 3 => v.pcus.foldl (fun (n : Nat) x => max n (c.wireOf 3 p (64 * ((x.2.pointCap + c.pointsStride - 1) / c.pointsStride)))) 0
  | 4 => v.schedules.foldl (fun (n : Nat) x => max n (((ofTarget x.2 0x12).foldl (fun (m : Nat) (e : SchedEntry) => m + e.repeats.toNat + 1) 0) * c.wireOf 4 p 128)) 0
  | _ => ((1000 * pMs + c.guardDiv - 1) / c.guardDiv) * c.wireOf 5 p 80

/-- What a port's gate list lets a queue send in one frame period, in bytes (R456). -/
def OutCfg.allowance (c : OutCfg) (pMs : Nat) (p : Fin 2) (q : Fin 8) : Nat :=
  let l := c.gates[p]
  let cycle := l.foldl (fun (n : Nat) (e : GateEntry) => n + 8 * e.interval) 0
  let open_ := l.foldl (fun (n : Nat) (e : GateEntry) => if e.gates.getLsbD q.val then n + 8 * e.interval else n) 0
  if cycle = 0 then 0 else (1000000 * pMs / cycle) * open_ * c.eth[p].topRate / 8000

/-- OUTPUT with P and with the sizes of its streams (R453, R456, R457). -/
def ImageView.outputBad (v : ImageView) : Bool :=
  match v.output, v.tb with
  | some c, some t =>
    let p := t.framePeriodMs
    decide (2000 * p < c.s1Offset)
      || c.gates.toList.any (fun (l : List GateEntry) =>
          let cycle := l.foldl (fun (n : Nat) (e : GateEntry) => n + 8 * e.interval) 0
          cycle == 0 || 1000000 * p % cycle != 0)
      || (List.finRange 2).any fun (k : Fin 2) => (List.finRange 8).any fun (q : Fin 8) =>
        decide (c.allowance p k q < (List.finRange 6).foldl (fun (n : Nat) (s : Fin 6) =>
          let x := c.stream[s]
          if x.en && x.queue == q && (if k = 0 then x.p6 else x.p7) then n + v.worstOf c p s k else n) 0)
  | _, _ => false

/-- Rules of other sections over P and the caps (R245, R404, R427). -/
def ImageView.capsBad (v : ImageView) : Bool :=
  (match v.safety, v.guard with | some s, some g => decide (g.vCap < s.degradedCap) | _, _ => false)
    || (match v.safety, v.tb with | some s, some t => decide (1000 * t.framePeriodMs < s.stOffset + 200) | _, _ => false)

/-! ### PCU sections (R244, R267) -/

/-- CLOSE_DELAY in force in stage f in µs: its default where no PCU section stands (R245); none where that section is not read yet. -/
def ImageView.closeAt (v : ImageView) (f : Nat) : Option Nat :=
  match v.forceAt 0x12 f with
  | some st => (v.pcus.find? fun x => x.1 == st).map fun x => x.2.closeDelay
  | none => some ({} : PcuCfg).closeDelay

/-- The CLOSE_DELAYs that are in force together with the schedule of a stage (R244, R100). -/
def ImageView.closesWith (v : ImageView) (st : Nat) : List Nat :=
  [2, 3].filterMap fun f => if v.forceAt 0x10 f == some st then v.closeAt f else none

/-- A region that leaves the Cistern or the GENERAL regions of LPDDR5X (R267, R478). -/
def ImageView.outside (v : ImageView) (r : Place × Nat) : Bool :=
  match r.1.space with
  | .cistern => decide (2 ^ 27 < r.1.addr + r.2)
  | .loc _ => true
  | .dram => match v.mem with
    | some m => !(m.regions.any fun (g : DramRegion) => g.kind == .general && decide (g.base ≤ r.1.addr) && decide (r.1.addr + r.2 ≤ g.base + g.bytes))
    | none => false

/-- PCU sections with schedules, memory and each other. -/
def ImageView.pcuBad (v : ImageView) : Bool :=
  v.schedules.any (fun x => match v.tb with
      | some t => (v.closesWith x.1).any fun d => (ofTarget x.2 0x10).any fun (e : SchedEntry) => decide (e.start.toNat < 1000 * t.framePeriodMs + d)
      | none => false)
    || v.pcus.any (fun x => x.2.regions.any v.outside)
    || (match v.pcus with | [a, b] => !(placesApart (a.2.regions ++ b.2.regions)) | _ => false)

/-! ### Engines and track memory (R278, R327) -/

/-- Settings of engine t: its section's, else the defaults of R278. DEDUCED, log entry 88. -/
def ImageView.te (v : ImageView) (t : Nat) : Option TeCfg :=
  match v.tes.find? fun x => x.1 == t with
  | some x => some x.2
  | none => if (v.lastOfStage && v.lastStage == 2) || v.lastStage == 3 then some (TeCfg.default (Fin.ofNat 4 t)) else none

/-- Phases (R278): more than two GENERATION engines, or no FRAME engine; an engine without a section counts once STAGE 2 is complete. DEDUCED, log entry 88. -/
def ImageView.phasesBad (v : ImageView) : Bool :=
  let stated := (v.tes.filter fun x => x.2.gen).length
  let dflt := match v.te 3 with | some c => if c.gen && !(v.tes.any fun x => x.1 == 3) then 1 else 0 | none => 0
  decide (2 < stated + dflt) || v.tes.any (fun x => !x.2.gen && x.2.stagingBytes != 0)

/-- Head ranges and staging (R327). -/
def ImageView.headsBad (v : ImageView) : Bool :=
  match v.trk with
  | none => false
  | some (_, k) =>
    let gens := (List.finRange 4).filter fun (t : Fin 4) => match v.te t.val with | some c => c.gen | none => false
    let heads := gens.flatMap fun (t : Fin 4) => (List.range k.headsOf[t]).map fun j => k.head0[t] + j
    gens.any (fun (t : Fin 4) => match v.te t.val with
        | some c => decide (c.stagingBytes < k.stageSlots * k.headsOf[t] * k.pageBytes)
        | none => false)
      || repeats heads
      || (v.lastOfStage && v.lastStage == 2 && !((List.range k.heads).all fun h => heads.contains h))

/-! ### Lists with schedules (R279, R288, R292, R293, R299, R319, R322, R327, R335, R336) -/

/-- The lists of a chain from an address, as far as they are there. -/
def chainFrom (ls : List Listing) : Nat → Nat → List Listing
  | 0, _ => []
  | fuel + 1, a =>
    match ls.find? fun (l : Listing) => l.addr == a with
    | some l => l :: (if l.hdr.next == 0xFFFFFFFF then [] else chainFrom ls fuel l.hdr.next.toNat)
    | none => []

/-- A chain of more than CHAIN_MAX lists, or one that closes on itself (R299). -/
def chainBad (ls : List Listing) : Bool := ls.any fun (l : Listing) => decide (256 < (chainFrom ls 257 l.addr).length)

/-- One list under an entry of a schedule. -/
structure Work where
  entry : Nat
  e : SchedEntry
  list : Listing

/-- The work of a schedule: the chain of every entry for an engine. -/
def workOf (ls : List Listing) (es : List SchedEntry) : List Work :=
  es.zipIdx.flatMap fun (x : SchedEntry × Nat) =>
    if x.1.target.toNat < 16 then (chainFrom ls 256 x.1.list.toNat).map fun l => ⟨x.2, x.1, l⟩ else []

/-- Engine of an entry. -/
def Work.engine (w : Work) : Nat := w.e.target.toNat / 4

/-- Entry a precedes b through PRED (R293). DEDUCED, log entry 82. -/
def precedes (es : List SchedEntry) : Nat → Nat → Nat → Bool
  | 0, _, _ => false
  | fuel + 1, a, b =>
    match es[b]? with
    | none => false
    | some e => e.pred != 511 && (e.pred.toNat == a || precedes es fuel a e.pred.toNat)

/-- Places of a list's SIGNAL or WAIT commands with a word, tag and PREV. -/
def Listing.syncs (l : Listing) (op : Nat) : List (Nat × Nat × Nat × Nat) :=
  l.cmds.zipIdx.filterMap fun x => let c := x.1.2
    if c.opcode = op then some (x.2, fieldNat c.bits 32 32, fieldNat c.bits 64 8, fieldNat c.bits 72 1) else none

/-- Command i of list a is ordered before command j of list b by a SIGNAL of a and a WAIT of b (R319). DEDUCED, log entry 82. -/
def syncOrders (a b : Listing) (i j prev : Nat) : Bool :=
  (a.syncs 0x50).any fun x => decide (i ≤ x.1) && (b.syncs 0x51).any fun y => decide (y.1 ≤ j) && x.2.1 == y.2.1 && x.2.2.1 == y.2.2.1 && y.2.2.2 == prev

/-- Two lists clash where they are not ordered (R293): in one frame unless one chain, PRED or synchronisation orders them (`prev` 0), in consecutive frames,
the first list in the earlier one, unless DEADLINE or synchronisation does (`prev` 1). DEDUCED, log entry 82. -/
def Work.clashes (a b : Work) (staging : Nat → Nat) (ordered : Bool) (prev : Nat) : Bool :=
  !ordered && a.list.addr != b.list.addr &&
  a.list.cmds.zipIdx.any fun x => b.list.cmds.zipIdx.any fun y =>
    (a.list.feet x.1.2 (staging a.engine)).any (fun f => (b.list.feet y.1.2 (staging b.engine)).any fun g =>
      f.clash g && (f.space != 1 || a.engine == b.engine))
    && !(syncOrders a.list b.list x.2 y.2 prev) && !(prev == 0 && syncOrders b.list a.list y.2 x.2 0)

/-- Footprints of a schedule's lists within one frame (R293). -/
def footprintsBad (ls : List Listing) (es : List SchedEntry) (staging : Nat → Nat) : Bool :=
  let ws := workOf ls es
  ws.any fun a => ws.any fun b =>
    a.clashes b staging (a.entry == b.entry || precedes es 256 a.entry b.entry || precedes es 256 b.entry a.entry) 0

/-- Footprints of the lists of one frame and of the frame after it, P in µs (R293). -/
def nextFrameBad (xs ys : List Work) (p : Nat) (staging : Nat → Nat) : Bool :=
  xs.any fun a => ys.any fun b => a.clashes b staging (decide (a.e.deadline.toNat ≤ p + b.e.start.toNat)) 1

/-- The entries of a schedule whose lists write into a range of the Cistern. -/
def writersOf (ls : List Listing) (es : List SchedEntry) (r : Nat × Nat) : List (Nat × SchedEntry) :=
  (workOf ls es).filterMap fun w =>
    if w.list.cmds.any fun c => (w.list.feet c.2 0).any fun f => f.write && f.hits r then some (w.entry, w.e) else none

/-- The writers of a range all stand in the PRED chain of the entry for a target (R370, R393). -/
def offChain (ls : List Listing) (es : List SchedEntry) (r : Nat × Nat) (target : Nat) : Bool :=
  (writersOf ls es r).any fun w => !(es.zipIdx.any fun (x : SchedEntry × Nat) => x.1.target.toNat == target && (x.2 == w.1 || precedes es 256 w.1 x.2))

/-- The operands of a key/value command are the tensors of bucket j, U32 [C] or [C][4] (R333, R336). -/
def Listing.bucketOk (l : Listing) (c : Command) (k : KvCfg) (capacity j : Nat) : Bool :=
  let a := k.opsBase + 64 + 40 * capacity * j
  let is (op off dim : Nat) : Bool := match l.opd c op with
    | some d => d.space == 0 && d.base == a + off * capacity && d.parity == opsBytes capacity && d.bindDim == dim && d.countAddr == k.opsBase + 4 * j
        && d.rank == dim + 1 && d.d dim == capacity && d.stride.getD 0 0 == 1 && (dim == 0 || (d.d 0 == 4 && d.stride.getD 1 0 == 4))
    | none => false
  match c.opcode with
  | 0x40 => fieldNat (c.param 0) 6 3 == j && is 1 24 1 && is 2 12 0 && is 3 16 0 && is 4 20 0
  | 0x42 => is 0 20 0 && is 1 24 1 && is 2 8 0
  | _ => is 2 8 0 && is 3 20 0 && is 4 24 1

/-- A key/value command against KV_CFG and its engine (R279, R327, R336). -/
def ImageView.kvBad (v : ImageView) (w : Work) (c : Command) : Bool :=
  let t : Fin 4 := ⟨w.engine % 4, Nat.mod_lt _ (by decide)⟩
  (match v.te t.val with | some x => !x.gen | none => false)
    || (match v.trk with
        | some (tr, k) =>
          let h := c.headCtl
          h.dim != k.hdim || (h.format == 9) != k.e4m3 || h.head0 != k.head0[t] || h.heads != k.headsOf[t] || h.base != k.regionBase || h.bytes != k.regionBytes
            || !((List.range 7).any fun j => w.list.bucketOk c k tr.capacity j)
        | none => false)

/-- The bucket that a key/value command works on (R336). -/
def ImageView.bucketOf (v : ImageView) (l : Listing) (c : Command) : Option Nat :=
  match v.trk with
  | some (t, k) => if isGen c.opcode then (List.range 7).find? fun j => l.bucketOk c k t.capacity j else none
  | none => none

/-- In one frame, a KV_APPEND or KV_SCATTER that does not come before an ATTEND or KV_FLUSH of its bucket on its engine, under the ordering of
R293 (R336). `ws` holds the lists of a chain in their order. DEDUCED, log entry 171. -/
def ImageView.kvOrderBad (v : ImageView) (es : List SchedEntry) (ws : List Work) : Bool :=
  let at_ (ops : List Nat) := ws.zipIdx.flatMap fun w => w.1.list.cmds.zipIdx.filterMap fun c =>
    if ops.contains c.1.2.opcode then (v.bucketOf w.1.list c.1.2).map fun j => (w.1, w.2, c.2, j) else none
  (at_ [0x41, 0x43]).any fun a => (at_ [0x40, 0x42]).any fun b =>
    a.2.2.2 == b.2.2.2 && a.1.engine == b.1.engine
      && !(if a.2.1 == b.2.1 then decide (a.2.2.1 < b.2.2.1)
           else (a.1.entry == b.1.entry && decide (a.2.1 < b.2.1)) || precedes es 256 a.1.entry b.1.entry
             || syncOrders a.1.list b.1.list a.2.2.1 b.2.2.1 0)

/-- The even and the odd copy of the free-space summary (R393). -/
def GuardCfg.summaries (g : GuardCfg) : List (Nat × Nat) :=
  let n := 256 + g.sumSize * g.sumSize / 8
  [(g.sumBase, n), (g.sumBase + Config.summaryOdd g.sumSize, n)]

/-- Bytes of staging that engine t reserves (R278). -/
def ImageView.staging (v : ImageView) (t : Nat) : Nat := match v.te t with | some c => c.stagingBytes | none => 0

/-- The rules that a schedule's lists keep, P in µs. -/
def ImageView.workBad (v : ImageView) (st : Nat) (es : List SchedEntry) (p : Nat) : Bool :=
  let ls := v.listsFor st
  let ws := workOf ls es
  ws.any (fun w => w.list.hdr.golden != w.e.golden
      || w.list.cmds.any (fun c => isGen c.2.opcode && v.kvBad w c.2)
      || w.list.tensors.any (fun d => d.space == 1 && decide ((7340032 : Int) - (v.staging w.engine : Nat) < d.range.2))
      || v.slots.any (fun x => x.1 == w.list.hdr.slot && decide (st < x.2.1)))
    || footprintsBad ls es v.staging || v.kvOrderBad es ws
    || (match v.guard with | some g => g.summaries.any fun r => offChain ls es r 0x13 | none => false)
    || (match v.qsa with
        | some q =>
          let r := (q.feedBase, 2 * q.feedBytes)
          offChain ls es r 0x14
            || (ofTarget es 0x12).any (fun (b : SchedEntry) => (ofTarget es 0x14).any fun (o : SchedEntry) =>
                (writersOf ls es r).any fun w => decide (p + w.2.start.toNat < o.deadline.toNat + b.maxRt.toNat))
        | none => false)

/-- Work of one frame and of the next, under one schedule or under that of STAGE 2 and then that of STAGE 3 (R293, R335); P in µs. The
GENERATION entries are ordered before the Tracker entry of the next frame. -/
def ImageView.framesBad (v : ImageView) (p : Nat) : Bool :=
  let gen (e : SchedEntry) : Bool := decide (e.target.toNat < 16) && match v.te (e.target.toNat / 4) with | some c => c.gen | none => false
  v.successions.any fun x =>
    nextFrameBad (workOf (v.listsFor x.1.1) x.1.2) (workOf (v.listsFor x.2.1) x.2.2) p v.staging
      || (ofTarget x.2.2 0x11).any fun (k : SchedEntry) => x.1.2.any fun (e : SchedEntry) => gen e && decide (p + k.start.toNat < e.deadline.toNat)

/-! ### Regions (R288, R319, R363, R469, R478) -/

/-- Cistern regions that are only read at run time: command lists and model slots (R469). -/
def ImageView.readOnly (v : ImageView) : List (Nat × Nat) :=
  v.cmdSections ++ v.slots.filterMap (fun x => if x.2.2.1 / 2 ^ 31 % 2 = 0 then some (x.2.2.1 % 2 ^ 27, x.2.2.2) else none)
    ++ (match v.qsa with | some q => (q.regions.drop 1).take 1 | none => [])

/-- Cistern regions that a block writes at run time (R469). -/
def ImageView.blockWritten (v : ImageView) : List (Nat × Nat) :=
  let cis (l : List (Place × Nat)) : List (Nat × Nat) := l.filterMap fun x => if x.1.space = .cistern then some (x.1.addr, x.2) else none
  (match v.pcus with | [] => [] | l => l.flatMap fun x => cis x.2.regions)
    ++ (match v.trk with
        | some (t, k) => [(k.regionBase, k.regionBytes), (k.opsBase, 2 * opsBytes t.capacity)]
            ++ [(t.trkCount, 4), (t.trk, 32768), (t.trkTid, 2048)].flatMap fun (x : ParityBase × Nat) => [(x.1.base, x.2), (x.1.base + x.1.odd, x.2)]
        | none => [])
    ++ (match v.qsa with | some q => (q.regions.eraseIdx 2).eraseIdx 1 | none => [])

/-- Cistern regions that lists write for a block. -/
def ImageView.listWritten (v : ImageView) : List (Nat × Nat) :=
  (match v.guard with | some g => g.summaries | none => [])
    ++ (match v.qsa with | some q => [(q.feedBase, 2 * q.feedBytes)] | none => [])

/-- Sync words and completion records (R319). -/
def ImageView.marks (v : ImageView) : List (Nat × Nat) :=
  v.lists.flatMap fun (l : Listing) => (l.syncs 0x50).map (fun x => (x.2.1, 4)) ++ (if l.hdr.completion = 0xFFFFFFFF then [] else [(l.hdr.completion, 32)])

/-- Regions that overlap where one of them is written at run time (R469): regions of blocks, regions that lists write for a block, sync words and
completion records, each apart from every other region. -/
def ImageView.overlapBad (v : ImageView) : Bool :=
  let written := v.blockWritten ++ v.listWritten ++ v.marks
  !(apart written) || written.any fun x => v.readOnly.any fun y => meets x.1 x.2 y.1 y.2

/-- Regions that overlap, or that a footprint may not touch (R319, R363, R469). -/
def ImageView.regionsBad (v : ImageView) : Bool :=
  v.overlapBad
    || v.lists.any (fun (l : Listing) => l.cmds.any fun c => (l.tensorFeet c.2).any fun f => f.write && (v.readOnly ++ v.blockWritten).any fun r => f.hits r)
    || v.lists.any (fun (l : Listing) => l.descFeet.any fun f => v.marks.any (fun r => f.hits r)
        || match v.qsa with | some q => (q.regions.eraseIdx 2).any fun r => f.hits r | none => false)

/-- Descriptors in LPDDR5X and in slots, and the stage of a list's slot (R288, R292, R478). -/
def ImageView.spacesBad (v : ImageView) : Bool :=
  v.lists.any fun (l : Listing) =>
    v.slots.any (fun x => x.1 == l.hdr.slot && decide (l.stage < x.2.1))
    || l.tensors.any fun d =>
      let (lo, hi) := d.range
      if d.space = 2 then v.outside (⟨.dram, lo.toNat⟩, (hi - lo).toNat)
      else if d.space = 3 then !(v.table.any fun e => e.type == 0x15 && e.inst == l.hdr.slot)
        || v.slots.any fun x => x.1 == l.hdr.slot && decide ((x.2.2.2 : Int) < hi)
      else false

/-- Sync words (R319): one SIGNAL writes each; a WAIT's word and tag are written by some SIGNAL, judged when its stage is complete. -/
def ImageView.syncsBad (v : ImageView) : Bool :=
  let sigs := v.lists.flatMap fun (l : Listing) => (l.syncs 0x50).map fun x => (x.2.1, x.2.2.1)
  repeats (sigs.map fun x => x.1)
    || (v.lastOfStage && v.lists.any fun (l : Listing) => l.stage == v.lastStage && (l.syncs 0x51).any fun x => !(sigs.contains (x.2.1, x.2.2.1)))

/-- The engines on which some schedule launches a list (R280). -/
def ImageView.enginesOf (v : ImageView) (l : Listing) : List Nat :=
  v.schedules.flatMap fun x => ((workOf (v.listsFor x.1) x.2).filter fun w => w.list.addr == l.addr).map Work.engine

/-- A golden list reads only SLOT space and regions that no other list writes (R322); LOCAL regions are those of an engine that both lists run on. -/
def ImageView.goldenReadsBad (v : ImageView) : Bool :=
  let ls := v.lists
  ls.any fun (g : Listing) => g.hdr.golden && ls.any fun (l : Listing) => l.addr != g.addr &&
    g.cmds.any fun c => (g.feet c.2 0).any fun f => f.space != 3 && !f.write &&
      (f.space != 1 || (v.enginesOf g).any fun t => (v.enginesOf l).contains t) &&
      l.cmds.any fun d => (l.feet d.2 0).any fun e => e.write && f.clash e

/-- DEST of a MODEL_SLOT or CMDLIST section (R297, R478). -/
def ImageView.placementBad (v : ImageView) : Bool :=
  v.cmdSections.any (fun x => x.1 % 64 != 0 || decide (2 ^ 27 < x.1 + x.2))
    || v.slots.any fun x =>
      let d := x.2.2.1
      if d / 2 ^ 31 % 2 = 0 then d % 64 != 0 || decide (2 ^ 27 ≤ d) || decide (2 ^ 27 < d + x.2.2.2)
      else d / 2 ^ 29 % 4 != 0 || (match v.mem with
        | some m => !(m.regions.any fun (g : DramRegion) => g.kind == .slots && decide (g.base ≤ d % 2 ^ 29 * 64) && decide (d % 2 ^ 29 * 64 + x.2.2.2 ≤ g.base + g.bytes))
        | none => false)

/-- Every rule over several sections. DEDUCED, log entry 81. -/
def ImageView.bad (v : ImageView) : Bool :=
  v.duplicate || v.missing || v.fedLate || v.misbound || v.wrongKind || v.lagShort || v.queryBad || v.closeShort || v.templatesBad || v.anchorBad || v.outputBad || v.capsBad || v.pcuBad
    || v.phasesBad || v.headsBad || chainBad v.lists
    || (match v.tb with
        | some t => v.framesBad (1000 * t.framePeriodMs) || v.schedules.any fun x => v.workBad x.1 x.2 (1000 * t.framePeriodMs)
        | none => false)
    || v.regionsBad || v.spacesBad || v.syncsBad || v.goldenReadsBad || v.placementBad

end Sys2Proof.Machine
end

