-- ==== Sys2Proof/Machine/SectionChecks.lean ====
section
/-! DEFINITION. Why a section's content fails (spec 04 R107, R109, R549). -/

namespace Sys2Proof.Machine

open Sys2Proof

/-- What the capability descriptor forbids in a section by itself (R109, R294): an engine, staging region or model slot that the device does not have. DEDUCED, log entry 83. -/
def capsReason (inst : Nat) : SectionContent → Bool
  | .te c => decide (4 ≤ inst) || decide (4194304 < c.stagingBytes)
  | .modelSlot => decide (64 ≤ inst)
  | _ => false

/-- The rules of a section by itself, for the frame period in ms that the image's TIMEBASE section sets. DEDUCED, log entry 30. -/
def contentOk (inst pMs : Nat) : SectionContent → Bool
  | .timebase c => c.ok
  | .islands c m => c.ok m
  | .safety c => c.ok
  | .port c => c.ok inst
  | .headgate c t => decide (inst < 64) && c.ok t
  | .pose c => c.ok
  | .channelB c rs => c.ok rs
  | .guard c => c.ok
  | .canSafe c => c.ok
  | .qanat c => c.ok
  | .output c => c.ok
  | .observe c => c.ok
  | .schedule es => scheduleOk es pMs
  | .pau c => c.ok
  | .pcu c => c.ok (1000 * pMs)
  | .te c => c.ok
  | .cmdList => true
  | .modelSlot => true
  | .tracker c k => c.ok k (1000 * pMs)
  | .qsa c => c.ok

/-- The lists of a CMDLIST section (R288, R297 to R322). DEDUCED, log entry 31. -/
def listsReason (e : SectionEntry) (plain : Bytes) : Option (BitVec 4) :=
  match listsIn e.stage (plain.length / 64 + 1) e.dest plain with
  | none => some 12
  | some ls =>
    let rs := ls.filterMap Listing.reason
    if rs.contains 13 then some 13 else rs.head?

/-- The reason for which a section's content fails (R107), none where it passes: 12 CONTENT, 13 CAPS. DEDUCED, log entry 30. -/
def contentReason (b : Bcc) (table : List SectionEntry) (index : Nat) (e : SectionEntry) (plain : Bytes) (c : SectionContent) : Option (BitVec 4) :=
  let v : ImageView :=
    { all := b.installed ++ [{ index := index, entry := e, bytes := plain, content := c }]
      lastOfStage := (match table[index + 1]? with | some n => n.stage != e.stage | none => true), lastStage := e.stage, table := table }
  let pMs := match v.tb with | some t => t.framePeriodMs | none => 20
  if e.version ≠ 1 ∨ c.place.1 ≠ e.type ∨ c.place.2.contains e.stage = false then some 12
  else if capsReason e.inst c then some 13
  else if contentOk e.inst pMs c = false then some 12
  else match (if c = .cmdList then listsReason e plain else none) with
    | some r => some r
    | none => if v.bad then some 12 else none

end Sys2Proof.Machine
end

