-- ==== Sys2Proof/Machine/BringUpOps.lean ====
section
/-! DEFINITION. The manifest header, the choice of slot, and installation of sections (spec 04 R97 to R107; spec 20 R478). -/

namespace Sys2Proof.Machine

open Sys2Proof

/-- Island of the BCC. -/
def bccIsland : Nat := 141

/-- The manifest header from its 256 bytes (R97). -/
def Manifest.ofBytes (bs : Bytes) : Manifest :=
  { magic := BitVec.ofNat 32 (fieldOf bs 0 32), version := fieldOf bs 32 4, ovyarMin := fieldOf bs 36 4, ovyarMax := fieldOf bs 40 4
    keyIndex := ⟨fieldOf bs 44 2 % 4, Nat.mod_lt _ (by decide)⟩, sections := fieldOf bs 48 10, svn := fieldOf bs 64 7
    imageBytes := fieldOf bs 96 32, encrypted := fieldOf bs 128 1 == 1, svnCommit := fieldOf bs 129 1 == 1
    tableDigest := slice bs 24 32, buildId := slice bs 56 16, pubKey := slice bs 88 64, signature := slice bs 192 64 }

/-- A section table entry from its 64 bytes (R99). -/
def SectionEntry.ofBytes (bs : Bytes) : SectionEntry :=
  { raw := bs, type := fieldOf bs 0 8, stage := fieldOf bs 8 2, enc := fieldOf bs 10 1 == 1, inst := fieldOf bs 16 16
    version := fieldOf bs 32 4, offset := fieldOf bs 64 32, length := fieldOf bs 96 32, dest := fieldOf bs 128 32, digest := slice bs 24 32 }

/-- The section table. -/
def sectionTable (n : Nat) (bs : Bytes) : List SectionEntry := (List.range n).map fun i => SectionEntry.ofBytes (slice bs (64 * i) 64)

/-- Check 8 of R105: sizes, stages, rising order without overlap after the table, and the STAGE 1 limit (R101). An entry that breaks R99 (an
OFFSET that is no multiple of 256, a LENGTH of 0 or beyond 2²⁸ − OFFSET) fails it too; R99 states no reason code. DESIGN CHOICE, log entry 154. -/
def Manifest.sizesOk (m : Manifest) (capacity : Nat) (t : List SectionEntry) : Bool :=
  let tableEnd := 256 + 64 * m.sections
  decide (m.imageBytes ≤ capacity) && decide (m.imageBytes ≤ 268435456) && decide (1 ≤ m.sections) && decide (m.sections ≤ 1023)
    && decide (tableEnd ≤ m.imageBytes) && t.all (fun e => decide (1 ≤ e.stage))
    && (List.zip t (t.drop 1)).all (fun (a, b) => decide (a.stage ≤ b.stage) && decide (a.offset < b.offset) && decide (a.offset + a.length ≤ b.offset))
    && t.all (fun e => decide (tableEnd ≤ e.offset) && e.offset % 256 == 0 && decide (1 ≤ e.length) && decide (e.length + e.offset ≤ 268435456))
    && decide ((t.filter fun e => e.stage == 1).foldl (fun n e => n + e.length) 0 ≤ 4194304)

/-- The first check of R105 that a header fails, 0 where it passes them all. -/
def headerReason (otp : Otp) (capacity : Nat) (header table : Bytes) : BitVec 4 :=
  let m := Manifest.ofBytes header
  let hash := sha256 (header.take 192)
  if m.magic ≠ 0x42544F45 then 2
  else if m.version ≠ 1 then 3
  else if sha256 m.pubKey ≠ otp.keyHash[m.keyIndex] ∨ otp.revoked.getLsbD m.keyIndex.val = true then 4
  else if !(ecdsaVerify (beNat (m.pubKey.take 32)) (beNat (m.pubKey.drop 32)) (beNat (m.signature.take 32)) (beNat (m.signature.drop 32)) hash) then 5
  else if m.svn < otp.rollback then 6
  else if 1 < m.ovyarMin ∨ m.ovyarMax < 1 then 7
  else if !(m.sizesOk capacity (sectionTable m.sections table)) then 8
  else if sha256 (table.take (64 * m.sections)) ≠ m.tableDigest then 9
  else 0

/-- A slot after its header has been checked (R105, R98). -/
def Slot.check (x : Slot) (otp : Otp) (header table : Bytes) : Slot :=
  let r := headerReason otp x.bytes header table
  let m := Manifest.ofBytes header
  { x with checked := true, fail := r, candidate := r = 0, header := some m, digest := sha256 (header.take 192), table := sectionTable m.sections table }

/-- SVN of a slot's image. -/
def Slot.svn (x : Slot) : Nat := match x.header with | some m => m.svn | none => 0

/-- The candidate that R106 selects. -/
def chooseSlot (a b : Slot) : Option (Fin 2) :=
  if a.candidate then (if b.candidate && decide (a.svn < b.svn) then some 1 else some 0)
  else if b.candidate then some 1 else none

/-- No image runs: the device stays in S0 until reset (R106). -/
def Bcc.noCandidate (b : Bcc) : Bcc := { b with result := .noCandidate, held := true }

/-- Selection, once both headers have been checked (R106). -/
def Bcc.select (b : Bcc) : Bcc :=
  if b.slots[0].checked && b.slots[1].checked && b.slot.isNone then
    match chooseSlot b.slots[0] b.slots[1] with
    | some k => { b with slot := some k, slots := modAt b.slots k fun (x : Slot) => { x with tried := true } }
    | none => b.noCandidate
  else b

/-- The selected slot. -/
def Bcc.sel (b : Bcc) : Slot := match b.slot with | some k => b.slots[k] | none => {}

/-- The image digest (R98). -/
def Bcc.imageDigest (b : Bcc) : Bytes := match b.slot with | some k => b.slots[k].digest | none => List.replicate 32 0

/-- The manifest of the selected image. -/
def Bcc.manifest (b : Bcc) : Manifest := match b.sel.header with | some m => m | none => {}

/-- Plaintext of a section (R103): none where the tag does not match or no image key is programmed. R103 gives no outcome for an encrypted
section whose bytes 12 to 15 are not zero: they are ignored. DESIGN CHOICE, log entry 155. -/
def Otp.plain (o : Otp) (e : SectionEntry) (stored : Bytes) : Option Bytes :=
  if e.enc then
    match o.imageKey with
    | none => none
    | some k =>
      let n := stored.length
      if n < 32 then none else gcmOpen k (stored.take 12) e.raw (slice stored 16 (n - 32)) (stored.drop (n - 16))
  else some stored

/-- A schedule table from its 32-byte entries (R79); bytes after the last whole entry are an entry filled up with zeros. DESIGN CHOICE, log entry 169. -/
def SchedEntry.ofBytes (bs : Bytes) : SchedEntry :=
  { version := BitVec.ofNat 4 (fieldOf bs 0 4), target := BitVec.ofNat 8 (fieldOf bs 4 8), pred := BitVec.ofNat 9 (fieldOf bs 12 9)
    golden := fieldOf bs 21 1 == 1, start := BitVec.ofNat 18 (fieldOf bs 32 18), window := BitVec.ofNat 18 (fieldOf bs 50 18)
    minRt := BitVec.ofNat 18 (fieldOf bs 68 18), maxRt := BitVec.ofNat 18 (fieldOf bs 86 18), deadline := BitVec.ofNat 18 (fieldOf bs 104 18)
    list := BitVec.ofNat 32 (fieldOf bs 128 32), repeats := BitVec.ofNat 4 (fieldOf bs 160 4), spacing := BitVec.ofNat 18 (fieldOf bs 164 18) }
def scheduleOf (bs : Bytes) : List SchedEntry := (List.range ((bs.length + 31) / 32)).map fun i => SchedEntry.ofBytes (slice bs (32 * i) 32)

/-- The template that a HEADGATE section holds, its extractors from their entries (R131). -/
def templateIn (bs : Bytes) : Option Template :=
  (Config.templateOf bs).map fun (t : Template) => { t with extractors := (Config.extractorsOf bs).map Extractor.ofBytes }

/-- The QSA section, its structures from their bytes (R360). -/
def qsaIn (bs : Bytes) : QsaCfg :=
  let f (v : Vector (Option QpStruct) 8) (x : Nat × QpStruct) : Vector (Option QpStruct) 8 := if h : x.1 < 8 then v.set x.1 (some x.2) else v
  { Config.qsaOf bs with structs := ((Config.qsaStructsOf bs).map QpStruct.ofBytes).foldl f (Vector.replicate 8 none) }

/-- The content that a section's plaintext spells, by TYPE (R100); none for a TYPE that R100 does not list. DESIGN CHOICE, log entry 6. -/
def SectionContent.ofBytes (type inst : Nat) (p : Bytes) : Option SectionContent :=
  match type with
  | 0x01 => some (.timebase (Config.timebaseOf p))
  | 0x02 => some (.islands (Config.islandsOf p).1 (Config.islandsOf p).2)
  | 0x03 => some (.safety (Config.safetyOf p))
  | 0x04 => some (.port (Config.portOf inst p))
  | 0x05 => some (.headgate (Config.headgateOf p) (templateIn p))
  | 0x06 => some (.pose (Config.poseOf p))
  | 0x07 => some (.channelB (Config.channelBOf p).1 (Config.channelBOf p).2)
  | 0x08 => some (.guard (Config.guardOf p))
  | 0x09 => some (.canSafe (Config.canSafeOf p))
  | 0x0A => some (.qanat (Config.qanatOf p))
  | 0x0B => some (.output (Config.outputOf p))
  | 0x0C => some (.observe (Config.observeOf p))
  | 0x10 => some (.schedule (scheduleOf p))
  | 0x11 => some (.pau (Config.pauOf p))
  | 0x12 => some (.pcu (Config.pcuOf p))
  | 0x13 => some (.te (Config.teOf p))
  | 0x14 => some .cmdList
  | 0x15 => some .modelSlot
  | 0x16 => some (.tracker (Config.trackerOf p).1 (Config.trackerOf p).2)
  | 0x17 => some (.qsa (qsaIn p))
  | _ => none

/-- Why a section fails (R107), or its plaintext and its content. -/
def Bcc.judge (b : Bcc) (e : SectionEntry) (stored : Bytes) : Except (BitVec 4) (Bytes × SectionContent) :=
  if sha256 stored ≠ e.digest then .error 10 else
  match b.otp.plain e stored with
  | none => .error 11
  | some p =>
    match SectionContent.ofBytes e.type e.inst p with
    | none => .error 12
    | some c => match contentReason b b.sel.table b.next e p c with | some r => .error r | none => .ok (p, c)

/-- A section fails (R107): the BCC, and whether IMG_SECTION_FAIL is raised. -/
def Bcc.fail (b : Bcc) (e : SectionEntry) (r : BitVec 4) : Bcc × Bool :=
  let noted := { b with failed := some b.next, reason := r }
  if e.stage = 1 then
    match b.slot with
    | none => (noted, false)
    | some k =>
      let other : Fin 2 := if k = 0 then 1 else 0
      let slots := modAt b.slots k fun (x : Slot) => { x with fail := r }
      if b.slots[other].candidate && !b.slots[other].tried then
        ({ noted with slots := modAt slots other fun (x : Slot) => { x with tried := true }, slot := some other, next := 0, retry := false
                      installed := [], last := none, readBytes := 0 }, false)
      else ({ noted with slots := slots, installed := [], last := none }.noCandidate, false)
  else if r = 10 ∧ b.retry = false then ({ b with retry := true }, false)
  else ({ noted with result := .sectionFail }, true)

/-- A section passes: it is installed, and after the last one the BCC stops reading. -/
def Bcc.pass (b : Bcc) (e : SectionEntry) (plain : Bytes) (c : SectionContent) : Bcc :=
  { b with installed := b.installed ++ [{ index := b.next, entry := e, bytes := plain, content := c }], last := some b.next
           next := b.next + 1, retry := false
           result := if b.next + 1 = b.sel.table.length then .complete else .reading }

/-- Every section of a stage of the selected slot has been installed (R111). STAGE 1 and STAGE 2 count with at least one; an image without a
STAGE 3 section has none left to install. -/
def Bcc.stageRead (b : Bcc) (st : Nat) : Bool :=
  let n := (b.sel.table.filter fun (e : SectionEntry) => e.stage == st).length
  b.slot.isSome && (st == 3 || decide (0 < n)) && (b.installed.filter fun (i : Installed) => i.entry.stage == st).length == n

/-- The image has sections of a stage. -/
def Bcc.hasStage (b : Bcc) (st : Nat) : Bool := b.sel.table.any fun (e : SectionEntry) => e.stage == st

/-- The Cistern regions that the lists of a CMDLIST section name (R469): the section itself, written footprints, sync words, completion records. -/
def listRegions (e : SectionEntry) (plain : Bytes) : List (Nat × Nat) :=
  let ls := (listsIn e.stage (plain.length / 64 + 1) e.dest plain).getD []
  let feet := ls.flatMap fun (l : Listing) => l.cmds.flatMap fun c => (l.feet c.2 0).filter fun (f : Foot) => f.write && f.space == 0
  (e.dest, plain.length) :: feet.map (fun (f : Foot) => (f.lo.toNat, (f.hi - f.lo).toNat))
    ++ ls.flatMap fun (l : Listing) => (l.syncs 0x50).map (fun x => (x.2.1, 4)) ++ (if l.hdr.completion = 0xFFFFFFFF then [] else [(l.hdr.completion, 32)])

/-- The Cistern regions that a section names (R469). The place of the PAU pending store is given by no section (notes/assumptions/32.md). DESIGN CHOICE, log entries 6, 32. -/
def regionsOf (e : SectionEntry) (plain : Bytes) (c : SectionContent) : List (Nat × Nat) :=
  match c with
  | .cmdList => listRegions e plain
  | .modelSlot => let p := slotPlace e.dest; if p.space = .cistern then [(p.addr, plain.length)] else []
  | .pcu p => p.regions.filterMap fun x => if x.1.space = .cistern then some (x.1.addr, x.2) else none
  | .tracker t k => [(k.regionBase, k.regionBytes), (k.opsBase, 2 * opsBytes t.capacity)]
      ++ [(t.trkCount, 4), (t.trk, 32768), (t.trkTid, 2048), (t.detCount, 4), (t.det, 32768), (t.detSupport, 2048), (t.ac, 1048576), (t.acTid, 2048)].flatMap
        fun (x : ParityBase × Nat) => [(x.1.base, x.2), (x.1.base + x.1.odd, x.2)]
  | .qsa q => q.regions
  | .guard g => [(g.sumBase, 256 + g.sumSize * g.sumSize / 8)]
  | _ => []

/-- A model slot filled with its section (R291): its content in memory and its entry in the slot table. -/
def State.fillSlot (s : State) (i : Installed) : State :=
  let p := slotPlace i.entry.dest
  let s1 : State := { s with mem := s.mem.write p.space p.addr i.bytes }
  if h : i.entry.inst < 64 then
    { s1 with tes := { s1.tes with slots := s1.tes.slots.set i.entry.inst (some ⟨p.space, p.addr, i.bytes.length, sha256 i.bytes⟩) } }
  else s1

/-- The bytes of a QSA section's structures, one behind another (R360, R363). -/
def structBytes (section_ : Bytes) : Bytes := (Config.qsaStructsOf section_).flatMap fun b => b.take (QpStruct.ofBytes b).2.bytes

/-- Install a headgate (R165): its stream waits. -/
def Headgate.install (g : Headgate) (c : HgCfg) (t : Option Template) (now : T64) : Headgate :=
  { g with cfg := some c, templ := t, installedAt := now, st := .waiting }

/-- Install the content of a PORT section in its port (R117, R118, R136, R146); CAN2 and CAN3 are always ACTIVE (R142). -/
def Ports.install (p : Ports) (inst : Nat) (c : PortCfg) (now : T64) : Ports :=
  match c with
  | .csi c => if h : inst < 8 then { p with csi := modAt p.csi ⟨inst, h⟩ fun (x : CsiPort) => { x with cfg := some c } } else p
  | .eth c => if h : 8 ≤ inst ∧ inst < 14 then { p with eth := modAt p.eth ⟨inst - 8, by omega⟩ fun (x : EthPort) => { x with cfg := some c } } else p
  | .spi c => if h : 16 ≤ inst ∧ inst < 20 then
      { p with spi := modAt p.spi ⟨inst - 16, by omega⟩ fun (x : SpiPort) => { x with cfg := some c, initDue := true } } else p
  | .enc c => if h : 20 ≤ inst ∧ inst < 28 then { p with enc := modAt p.enc ⟨inst - 20, by omega⟩ fun (x : EncPort) => { x with cfg := some c } } else p
  | .can c => if h : 28 ≤ inst ∧ inst < 32 then
      { p with can := modAt p.can ⟨inst - 28, by omega⟩ fun (x : CanPort) =>
          { x with cfg := some (match x.cfg with
              | some old => { c with nominal := old.nominal, fdRate := old.fdRate, xlRate := old.xlRate, active := c.active || decide (30 ≤ inst) }
              | none => { c with active := c.active || decide (30 ≤ inst) }) } }
      else p
  | .bus c => if h : 32 ≤ inst ∧ inst < 34 then
      { p with bus := modAt p.bus ⟨inst - 32, by omega⟩ fun (x : BusPort) => x.queue c now } else p

/-- CAN2 and CAN3 as the CANSAFE section sets them (R118, R463): always ACTIVE, with the filters that PORT sections add. -/
def Ports.installCanSafe (p : Ports) (c : CanSafeCfg) : Ports :=
  let f (x : CanPort) : CanPort :=
    { x with cfg := some { active := true, nominal := c.nomRate, fdRate := if c.xl then 0 else c.dataRate, xlRate := if c.xl then c.dataRate else 0
                           filters := match x.cfg with | some o => o.filters | none => [] } }
  { p with can := modAt (modAt p.can 2 f) 3 f }

/-- Put a section's content into its block: a model slot is filled (R291), the structures of the QSA lie at STRUCT_BASE (R363). SCHEDULE, PCU and
CMDLIST sections wait for their stage's entry. Until the
ISLANDS section is released the mode is not known and device time runs; a Replay image then sets it to 0 and holds it (R86, R116). DESIGN CHOICE, log entries 74, 156. -/
def State.apply (s : State) (i : Installed) : State :=
  let s : State := { s with mem := { s.mem with regions := s.mem.regions ++ regionsOf i.entry i.bytes i.content } }
  let inst := i.entry.inst
  match i.content with
  | .timebase c => { s with tb := s.tb.install c s.twinId }
  | .islands c m =>
    { s with isl := ({ s.isl with cfg := c } : Islands).hold, mem := { s.mem with cfg := m }
             tb := if c.replay then { s.tb with now := 0, frac := 0, frame := none, past := [] } else s.tb }
  | .safety c => { s with safety := { s.safety with cfg := c }, ev := { s.ev with classTable := some c.classTable } }
  | .port c => { s with ports := s.ports.install inst c s.tb.now }
  | .headgate c t => if h : inst < 64 then { s with hgs := s.hgs.set inst (s.hgs[inst].install c t s.tb.now) } else s
  | .pose c => { s with pl := { s.pl with cfg := c, installed := true } }
  | .channelB c rs => { s with cb := { s.cb with cfg := c, installed := true }, pau := { s.pau with rs := rs } }
  | .guard c => { s with guard := { s.guard with cfg := c } }
  | .canSafe c => { s with out := { s.out with can := c }, ports := s.ports.installCanSafe c }
  | .qanat c => { s with qnt := { s.qnt with cfg := c, installed := true, pair := if c.twin then .seeking else .solo, lastValid := s.tb.now } }
  | .output c =>
    let e6 := modAt s.ports.eth 6 fun (x : EthPort) => { x with cfg := some c.eth[0] }
    let e7 := modAt e6 7 fun (x : EthPort) => { x with cfg := some c.eth[1] }
    { s with out := { s.out with cfg := c, installed := true }, ports := { s.ports with eth := e7 } }
  | .observe c =>
    { s with ev := { s.ev with cfg := { irqMask := c.irqMask } }, grt := { s.grt with cfg := c.mon }, obp := { s.obp with win := c.win } }
  | .pau c =>
    let entries : Vector AlignEntry 24 := Vector.ofFn fun (k : Fin 24) => { st := if c.alignSet.contains k && k.val != c.anchor.val then .nominal else .fixed }
    { s with pau := { s.pau with cfg := c, installed := true, entries := entries } }
  | .te c => if h : inst < 4 then { s with tes := { s.tes with te := modAt s.tes.te ⟨inst, h⟩ fun (x : Te) => { x with cfg := c } } } else s
  | .tracker c kv => { s with trk := { s.trk with cfg := c, installed := true }, kv := kv }
  | .qsa c => { s with qsa := { s.qsa with cfg := c, installed := true }, mem := s.mem.write .cistern c.structBase (structBytes i.bytes) }
  | .modelSlot => s.fillSlot i
  | .schedule _ | .pcu _ | .cmdList => s

/-- Mark the sections of a stage released. -/
def Bcc.release (b : Bcc) (st : Nat) : Bcc :=
  { b with installed := b.installed.map fun (i : Installed) => if i.entry.stage = st then { i with released := true } else i }

/-- The sections of a stage. -/
def Bcc.ofStage (b : Bcc) (st : Nat) : List Installed := b.installed.filter fun (i : Installed) => i.entry.stage == st

/-- The islands that a stage adds (R112): its fixed ones and the port islands that its PORT sections name. S3 adds the QSA where the image has a
QSA section, and the S2 islands where it has no STAGE 2 section. DEDUCED, log entry 19. -/
def Bcc.adds (b : Bcc) (st k : Nat) : Bool :=
  (b.ofStage st).any (fun (i : Installed) => i.entry.type == 0x04 && i.entry.inst == k)
    || (match st with
        | 1 => poweredS1 k
        | 2 => poweredS2 k
        | _ => (poweredS3 k && b.installed.any fun (i : Installed) => i.entry.type == 0x17) || (!b.hasStage 2 && poweredS2 k))

/-- An island that a stage or one before it powers (R112). -/
def Bcc.upTo (b : Bcc) (st k : Nat) : Bool := poweredS0 k || (List.range st).any fun (j : Nat) => b.adds (j + 1) k

/-- Every STAGE 1 section has passed: the settings are released to their blocks and the S1 islands take power (R107, R112). -/
def State.releaseS1 (s : State) : State :=
  let s1 := (s.bcc.ofStage 1).foldl State.apply s
  { s1 with bcc := s1.bcc.release 1, isl := s1.isl.powerOn (s1.bcc.adds 1) }

/-- A section of STAGE 2 or 3 has passed: its settings go to its block; with the last one of the stage its islands take power (R112). -/
def State.installLater (s : State) (i : Installed) : State :=
  let s1 := s.apply i
  if s1.bcc.stageRead i.entry.stage then { s1 with isl := s1.isl.powerOn (s1.bcc.adds i.entry.stage) } else s1

/-- What a stage's entry puts into force: command lists placed in memory, the schedule table and the PCU section (R111). DEDUCED, log entry 19. -/
def State.enterContent (s : State) (i : Installed) : State :=
  match i.content with
  | .cmdList => { s with mem := s.mem.write .cistern i.entry.dest i.bytes }
  | .schedule es => { s with seq := { s.seq with table := es, prev := (s.tb.no, s.seq.table) :: s.seq.prev } }
  | .pcu c =>
    -- both BEV buffers are cleared whole (R266)
    let n := c.bev.h * c.bev.w * c.bev.cFeat * (c.levelOf 8 c.bev.src).nz * c.bev.fmt.bytes
    let zero (m : Memory) (p : Place) : Memory := if c.bev.enable then m.zero p.space p.addr n else m
    { s with pcu := { s.pcu with sections := ⟨s.tb.no, c, Vector.replicate 2 []⟩ :: s.pcu.sections }
             mem := zero (zero s.mem c.bevBuf.even) c.bevBuf.odd }
  | _ => s

/-- IN_FORCE of the sections that a stage's SCHEDULE or PCU section replaces (R504). -/
def Bcc.replace (b : Bcc) (st : Nat) : Bcc :=
  let has (t : Nat) : Bool := b.installed.any fun (i : Installed) => i.entry.stage == st && i.entry.type == t
  { b with installed := b.installed.map fun (i : Installed) =>
      if decide (i.entry.stage < st) && (i.entry.type == 0x10 || i.entry.type == 0x12) && has i.entry.type then { i with inForce := false } else i }

/-- Enter S2 or S3 (R111): the sections of the stage come into force. DEDUCED, log entry 19. -/
def State.enterStage (s : State) (st : Nat) : State :=
  let s1 := (s.bcc.ofStage st).foldl State.enterContent s.keepCopies
  { s1 with bcc := { (s1.bcc.release st).replace st with stage := BitVec.ofNat 2 st }
            ev := s1.ev.raise (evt .stageEntry bccIsland 0 st) }

end Sys2Proof.Machine
end

