-- ==== Sys2Proof/Machine/CaptureOps.lean ====
section
/-! DEFINITION. The writer of the capture ring (spec 03 R87, R92). -/

namespace Sys2Proof.Machine

open Sys2Proof

/-- Island of the replay reader and of the capture events: the PCIe island (R90). -/
def pcieIsland : Nat := 138

/-- Place of a STREAM field in the vectors of 65: headgates 0 to 63, then STREAM 255. R87 gives STREAM no value from 64 to 254; such a chunk
counts with STREAM 255 and passes without a halt. DESIGN CHOICE, log entry 142. -/
def streamIdx (n : Nat) : Fin 65 := if h : n < 64 then ⟨n, by omega⟩ else ⟨64, by decide⟩

/-- Bytes of a chunk with its header and its padding (R87). -/
def chunkSize (length : Nat) : Nat := 32 + (length + 7) / 8 * 8

/-- A chunk's bytes (R87). -/
def chunkBytes (type stream : Nat) (no : Word) (stamp deliver : T64) (payload : Bytes) : Bytes :=
  packBytes 32 [(4, 1), (4, type), (8, stream), (16, payload.length), (32, no.toNat), (64, stamp.toNat), (64, deliver.toNat)]
    ++ padTo (chunkSize payload.length - 32) payload

/-- First address of the CAPTURE region (R474). -/
def MemCfg.captureBase (c : MemCfg) : Nat := match c.regions.find? fun r => r.kind == .capture with | some r => r.base | none => 0

/-- Bytes of the ring that hold chunks not yet freed. DESIGN CHOICE, log entry 47. -/
def State.captureUsed (s : State) : Nat :=
  s.capture.written - min s.capture.written (Config.captureFreed s.capture.written s.tb.now)

/-- Write one chunk, or stop with CAPTURE_LOSS when the ring has no place for it (R92). -/
def State.putChunk (s : State) (type stream : Nat) (stamp deliver : T64) (payload : Bytes) : State :=
  if !s.capture.active then s else
  let size := s.isl.cfg.captureSize
  let bs := chunkBytes type stream (s.capture.nextNo[streamIdx stream]) stamp deliver payload
  if size < s.captureUsed + bs.length then
    { s with capture := { s.capture with active := false, full := true, items := [], losses := bump s.capture.losses }
             ev := s.ev.raise (evtOpen .captureLoss pcieIsland 0) }
  else
    let off := s.capture.written % size
    let first := min bs.length (size - off)
    let base := s.mem.cfg.captureBase
    { s with
      mem := (s.mem.write .dram (base + off) (bs.take first)).write .dram base (bs.drop first)
      capture := { s.capture with written := s.capture.written + bs.length
                                  nextNo := modAt s.capture.nextNo (streamIdx stream) (fun (n : Word) => n + 1) } }

/-- Write one waiting item as a RECORD chunk (R92). -/
def State.writeItem (s : State) (x : CapItem) (rest : List CapItem) : State :=
  ({ s with capture := { s.capture with items := rest } } : State).putChunk 0 x.stream.val x.stamp x.deliver x.bytes

/-- Write every item that waits: they are due before a chunk of this instant, and chunks are read in due-time order (R88, R92). -/
def State.flushItems (s : State) : State := s.capture.items.foldl (fun (s : State) (x : CapItem) => s.writeItem x (s.capture.items.drop 1)) s

/-- Bring a waiting map into force (R48); a capture that runs writes its MAP chunk, with the guard cycle start as STAMP (R92). -/
def State.installMap (s : State) : State :=
  match s.tb.mapNext with
  | some (g, m) =>
    if tReached s.tb.now g then ({ s with tb := s.tb.installMap } : State).flushItems.putChunk 2 255 g 0 m.bytes else s
  | none => s

/-- The condition of CAPTURE_START (R92, R476). -/
def State.captureReady (s : State) : Bool :=
  !s.replaying && s.bcc.stage == 3 && s.isl.cfg.captureSize != 0 && s.mem.trained && !s.capture.active
    && (!s.capture.full || decide (4 * s.captureUsed ≤ 3 * s.isl.cfg.captureSize))

/-- The island of the headgate cluster of a stream: eight headgates each (R68). -/
def clusterOf (h : Fin 64) : Fin 144 := ⟨34 + h.val / 8, by omega⟩

/-- A headgate carries data once its cluster is enrolled (R71). -/
def State.clusterUp (s : State) (h : Fin 64) : Bool := s.isl.enrolled[clusterOf h]

/-- An item reaches its headgate (R117): it joins the inbox, and where its stream is captured it waits to be written (R92). A RECORD
payload holds at most 65,535 bytes (R87). No item crosses to a cluster that is not enrolled (R71). -/
def State.present (s : State) (h : Fin 64) (it : Item) (stamp : T64) (bytes : Bytes) : State :=
  if !s.clusterUp h then s else
  { s with
    hgs := Headgates.push s.hgs h it
    capture := if s.capture.active && s.isl.cfg.captureMask.getLsbD h.val && s.enabledStreams.getLsbD h.val && decide (bytes.length ≤ 65535) then
        { s.capture with items := s.capture.items ++ [⟨h, stamp, s.tb.now, bytes⟩] }
      else s.capture }

/-- Hand an item over if there is one. -/
def State.presentOpt (s : State) : Option (Fin 64 × T64 × Item × Bytes) → State
  | some (h, stamp, it, bytes) => s.present h it stamp bytes
  | none => s

end Sys2Proof.Machine
end

