-- ==== Sys2Proof/Machine/BringUp.lean ====
section
/-! DEFINITION. The commands of the Boot and Configuration Controller (spec 04 R95 to R116). -/

namespace Sys2Proof.Machine

open Sys2Proof

/-- The BCC may read (R106, R107, R111): reset released, no hold in S0, no C3. -/
def State.loading (s : State) : Bool := s.tb.running && !s.bcc.held && !s.c3 && s.bcc.result == .reading

/-- Both chip selects are high and the data lines in high impedance: from LOAD_DONE to the next reset (R96, R506). While the BCC reads it
drives one slot at a time. -/
def State.xspiReleased (s : State) : Bool := !s.tb.running || s.bcc.held || s.c3 || s.bcc.result != .reading

/-- SFDP_READ (R95): a device answers with its capacity in bytes, within 500 µs of reset release. -/
def execSfdpRead (slot : Fin 2) (capacity : Nat) (s : State) : Host.Outcome State Fault Refusal :=
  .next (if s.loading && s.bcc.slots[slot].answered.isNone && tReached (us 500) s.tb.now then
    { s with bcc := { s.bcc with slots := modAt s.bcc.slots slot fun (x : Slot) => { x with answered := some true, bytes := capacity } } }
  else s)

/-- NO_DEVICE_TIMEOUT (R95, R105): no answer within 500 µs of reset release. -/
def execNoDeviceTimeout (slot : Fin 2) (s : State) : Host.Outcome State Fault Refusal :=
  .next (if s.loading && s.bcc.slots[slot].answered.isNone && tReached s.tb.now (us 500) then
    { s with bcc := ({ s.bcc with slots := modAt s.bcc.slots slot fun (x : Slot) =>
        { x with answered := some false, fail := 1, checked := true, candidate := false } } : Bcc).select }
  else s)

/-- HEADER_CHECK (R105, R106): the slot's header and section table. -/
def execHeaderCheck (slot : Fin 2) (header table : Bytes) (s : State) : Host.Outcome State Fault Refusal :=
  .next (if s.loading && s.bcc.slots[slot].answered == some true && !s.bcc.slots[slot].checked then
    { s with bcc := ({ s.bcc with slots := modAt s.bcc.slots slot fun (x : Slot) => x.check s.bcc.otp header table } : Bcc).select }
  else s)

/-- SECTION_READ (R107): the LENGTH stored bytes of the next section (R99). DEDUCED, log entry 97. -/
def execSectionRead (stored : Bytes) (s : State) : Host.Outcome State Fault Refusal :=
  .next (if s.loading && s.bcc.slot.isSome then
    match s.bcc.sel.table[s.bcc.next]? with
    | none => s
    | some e =>
      if stored.length ≠ e.length then s else
      let b := { s.bcc with readBytes := bumpBy s.bcc.readBytes stored.length, condAt := s.tb.now }
      match b.judge e stored with
      | .error r =>
        let (b, ev) := b.fail e r
        { s with bcc := b, ev := if ev then s.ev.raise (evt .imgSectionFail bccIsland 0 s.bcc.next) else s.ev }
      | .ok (plain, content) =>
        let s1 : State := { s with bcc := b.pass e plain content }
        if e.stage = 1 then (if s1.bcc.stageRead 1 then s1.releaseS1 else s1)
        else s1.installLater { index := s.bcc.next, entry := e, bytes := plain, content := content }
  else s)

/-- The latest guard cycle start. -/
def State.gk (s : State) : T64 := tick (s.tb.now.toNat / ticksPerUs * ticksPerUs)

/-- A guard cycle start or a frame boundary has come since the conditions of the stage held (R111); Replay mode waits for neither (R116). -/
def State.stageAtG (s : State) : Bool := s.replaying || tReached s.gk s.bcc.condAt
def State.stageAtB (s : State) : Bool := s.replaying || (match s.tb.frame with | some f => tReached f.b s.bcc.condAt | none => false)

/-- The condition of S1 entry (R111); once a section has failed the device stays in the stage it has reached (R107). -/
def State.s1Ready (s : State) : Bool :=
  s.enrolled && !s.bcc.held && !s.c3 && s.bcc.result != .sectionFail && s.bcc.stage == 0 && s.bcc.stageRead 1 && s.isl.ready (s.bcc.upTo 1) && s.stageAtG

/-- STAGE_ENTRY_S1 (R111, R193): at Gₖ, SAFE_OK_A and SAFE_OK_B rise outside Replay mode, and the Pose Ladder's first rung is the next whole microsecond. DESIGN CHOICE, log entry 2. -/
def execStageEntryS1 (s : State) : Host.Outcome State Fault Refusal :=
  .next (if s.s1Ready then
    let g := if s.replaying then s.tb.now else s.gk
    let k := g.toNat / ticksPerUs + 1
    { s with
      bcc := { s.bcc with stage := 1, s1At := some g }
      safety := { s.safety with raised := !s.replaying }
      pl := { s.pl with start := some k, nextK := some k }
      ev := s.ev.raise (evt .stageEntry bccIsland 0 1) }
  else s)

/-- The condition of S2 entry (R111, R116). -/
def State.s2Ready (s : State) : Bool :=
  !s.c3 && s.bcc.result != .sectionFail && s.bcc.stage == 1 && s.bcc.stageRead 2 && s.isl.ready (s.bcc.upTo 2) && s.mem.trained && s.stageAtB

/-- STAGE_ENTRY_S2 (R111): frame n of the latest boundary is the first under the S2 schedule. -/
def execStageEntryS2 (s : State) : Host.Outcome State Fault Refusal := .next (if s.s2Ready then s.enterStage 2 else s)

/-- The condition of S3 entry (R111): from S2, or from S1 where the image has no STAGE 2 section; after a third training failure the device stays
in S1 (R476). DEDUCED, log entry 19. -/
def State.s3Ready (s : State) : Bool :=
  !s.c3 && s.bcc.result != .sectionFail && (s.bcc.stage == 2 || (s.bcc.stage == 1 && !s.bcc.hasStage 2 && decide (s.mem.trainFails < 3))) && s.bcc.stageRead 3
    && s.isl.ready (s.bcc.upTo 3) && s.stageAtB

/-- The commit of the rollback counter (R104): programming starts with the entry to S3; a reset while it goes on leaves a count in between
(`Otp.interrupted`). DESIGN CHOICE, log entry 157. -/
def State.commitSvn (s : State) : State :=
  if s.bcc.manifest.svnCommit then
    { s with bcc := { s.bcc with svnCommitted := true, otp := { s.bcc.otp with
                rollback := max s.bcc.otp.rollback s.bcc.manifest.svn, programming := some (s.bcc.otp.rollback, s.tb.now) } }
             ev := s.ev.raise (evtOpen .svnCommitted bccIsland 0) }
  else s

/-- STAGE_ENTRY_S3 (R111, R104): the boundary of the entry is the first in S3, at which a capture may start (R92). -/
def execStageEntryS3 (s : State) : Host.Outcome State Fault Refusal :=
  .next (if s.s3Ready then
    let s1 := (s.enterStage 3).commitSvn
    { s1 with capture := { s1.capture with startAt := if s1.captureReady then some s1.tb.now else none } }
  else s)

/-- STAGE_LATE (R114): S1 not entered by 35 ms, or S3 by 1.2 s, after reset release; in normal mode only (R116). DEDUCED, log entry 25. -/
def execStageLate (s : State) : Host.Outcome State Fault Refusal :=
  .next (if s.tb.running && !s.replaying then
    let l1 := s.bcc.stage == 0 && !s.bcc.lateS1 && tReached s.tb.now (ms 35)
    let l3 := s.bcc.stage != 3 && !s.bcc.lateS3 && tReached s.tb.now (ms 1200)
    { s with bcc := { s.bcc with lateS1 := s.bcc.lateS1 || l1, lateS3 := s.bcc.lateS3 || l3 }
             ev := s.ev.raiseAll ((if l1 then [evtOpen .stageLate bccIsland 1] else []) ++ (if l3 then [evtOpen .stageLate bccIsland 3] else [])) }
  else s)

end Sys2Proof.Machine
end

