-- ==== Sys2Proof/Machine/CbOps.lean ====
section
/-! DEFINITION. Channel B: the occupancy grid, hits, rays and the stopping-distance table (spec 16 R385 to R391). -/

namespace Sys2Proof.Machine

open Sys2Proof

/-- NEVER (R385). -/
def never : BitVec 16 := 0xFFFF

/-- The times at a storage place. -/
def gridGet : List (Nat × CellTimes) → Nat → CellTimes
  | [], _ => {}
  | (k, c) :: r, p => if k = p then c else gridGet r p

/-- Put times at a storage place; NEVER twice removes the entry. -/
def gridSet : List (Nat × CellTimes) → Nat → CellTimes → List (Nat × CellTimes)
  | [], p, c => if c = {} then [] else [(p, c)]
  | (k, x) :: r, p, c =>
    if k < p then (k, x) :: gridSet r p c
    else if k = p then (if c = {} then r else (p, c) :: r)
    else if c = {} then (k, x) :: r else (p, c) :: (k, x) :: r

/-- Storage place of cell (i, j): (i mod SIZE) × SIZE + (j mod SIZE) (R385). -/
def CbCfg.place (c : CbCfg) (i j : Int) : Nat := (i % (c.size : Int)).toNat * c.size + (j % (c.size : Int)).toNat

/-- The window: SIZE cells from centre − SIZE/2 in each direction. -/
def CbCfg.inSpan (c : CbCfg) (centre i : Int) : Bool := decide (centre - c.size / 2 ≤ i) && decide (i < centre - c.size / 2 + c.size)

/-- Is a cell inside the window (R385). DEDUCED, log entry 122. -/
def Grid.inWindow (g : Grid) (c : CbCfg) (i j : Int) : Bool := c.inSpan g.ci i && c.inSpan g.cj j

/-- The cell index of an L64 coordinate (R385). -/
def CbCfg.index (c : CbCfg) (x : Int) : Int := (x * 100).fdiv ((c.cell * 2 ^ 32 : Nat) : Int)

/-- The cell of the window that a storage place holds along one axis. -/
def CbCfg.unplace (c : CbCfg) (centre : Int) (a : Nat) : Int := let lo := centre - c.size / 2; lo + ((a : Int) - lo) % (c.size : Int)

/-- Centre the window again (R385): a cell that enters it is set to NEVER. -/
def Grid.recentre (g : Grid) (c : CbCfg) (ci cj : Int) : Grid :=
  { cells := g.cells.filter fun (e : Nat × CellTimes) =>
      c.inSpan g.ci (c.unplace ci (e.1 / c.size)) && c.inSpan g.cj (c.unplace cj (e.1 % c.size))
    ci := ci, cj := cj }

/-- A time of LAST_HIT: the millisecond rounded up; 0xFFFF is stored as 0 (R385). -/
def hitMs (t : T64) : BitVec 16 := let v := BitVec.ofNat 16 ((t.toNat + ticksPerMs - 1) / ticksPerMs); if v = never then 0 else v

/-- A time of LAST_SEEN: the millisecond rounded down; 0xFFFF is stored as 0xFFFE (R385). -/
def seenMs (t : T64) : BitVec 16 := let v := BitVec.ofNat 16 (t.toNat / ticksPerMs); if v = never then 0xFFFE else v

/-- The later of a new time and the stored one, ages being taken modulo 65,536 ms (R385 to R387). -/
def laterMs (new old : BitVec 16) : BitVec 16 := if old = never ∨ 0 < (new - old).toInt then new else old

/-- The age of a stored time in ticks, modulo 65,536 ms and signed: a time rounded up may lie ahead (R385, R388). DEDUCED, log entry 122. -/
def ageTicks (t : T64) (v : BitVec 16) : Int :=
  let m := 65536 * ticksPerMs
  let a := ((t.toNat : Int) - ((v.toNat * ticksPerMs : Nat) : Int)) % (m : Int)
  if 2 * a < m then a else a - m

/-- States of a cell (R388), coded as in R450. -/
inductive CellSt where
  | free | occupied | unknown
deriving DecidableEq, Repr

/-- The state of a cell's times at a device time (R388). -/
def CellTimes.state (x : CellTimes) (c : CbCfg) (t : T64) : CellSt :=
  if x.hit ≠ never ∧ ageTicks t x.hit < (c.hold * ticksPerMs : Nat) then .occupied
  else if x.seen ≠ never ∧ ageTicks t x.seen < (c.seenAge * ticksPerMs : Nat) then .free
  else .unknown

/-- The state of a cell (R385, R388): outside the window UNKNOWN. -/
def Grid.state (g : Grid) (c : CbCfg) (t : T64) (i j : Int) : CellSt :=
  if g.inWindow c i j then (gridGet g.cells (c.place i j)).state c t else .unknown

/-- Change the times of a cell of the window. -/
def Grid.update (g : Grid) (c : CbCfg) (i j : Int) (f : CellTimes → CellTimes) : Grid :=
  let p := c.place i j
  { g with cells := gridSet g.cells p (f (gridGet g.cells p)) }

/-- One visit of the scrub (R385): every time of 16,384 ms or more is set to NEVER. -/
def Grid.scrub (g : Grid) (p : Nat) (t : T64) : Grid :=
  let old (v : BitVec 16) : BitVec 16 := if v ≠ never ∧ (16384 * ticksPerMs : Nat) ≤ ageTicks t v then never else v
  let x := gridGet g.cells p
  { g with cells := gridSet g.cells p ⟨old x.hit, old x.seen⟩ }

/-! ### Hits and sweeps (R386, R387) -/

/-- Is a core a hit: its Z lies in [Z_LO, Z_HI] (R386). -/
def CbCfg.isHit (c : CbCfg) (k : Core) : Bool :=
  decide (c.zLo * 65536 ≤ k.z.toInt * 1000) && decide (k.z.toInt * 1000 ≤ c.zHi * 65536)

/-- A place of the vehicle or reference frame (Q15.16) in the odometry frame (L64), by the arithmetic of R221: products rounded once to Q15.16,
sums exact, then saturated (R178, R386, R387, R389). -/
def fxCarry (px py : Int) (h : Word) (x y : Int) : Fx (Int × Int) := do
  let xo ← fxSat 64 (px + (qTrig x (cosTurn h) - qTrig y (sinTurn h)) * 65536)
  let yo ← fxSat 64 (py + (qTrig x (sinTurn h) + qTrig y (cosTurn h)) * 65536)
  return (xo, yo)

/-- A hit's place in the odometry frame; its saturations come with it (R386). -/
def hitAt (k : Core) (ref : PoseRec) : Int × Int × Nat :=
  let r := (fxCarry ref.x.toInt ref.y.toInt ref.heading k.x.toInt k.y.toInt).run 0
  (r.1.1, r.1.2, r.2)

/-- Enter a hit (R386): its cell takes the later LAST_HIT; one outside the window is counted. -/
def ChannelB.enterHit (b : ChannelB) (k : Core) (ref : PoseRec) : ChannelB :=
  let (x, y, n) := hitAt k ref
  let i := b.cfg.index x
  let j := b.cfg.index y
  let b := { b with sat := bumpBy b.sat n }
  if b.grid.inWindow b.cfg i j then
    { b with grid := b.grid.update b.cfg i j fun (c : CellTimes) => { c with hit := laterMs (hitMs k.tov) c.hit } }
  else { b with out := bump b.out }

/-- What a core leaves in its sweep (R387): T_σ of its sector, and h²_σ for a hit, in units of 2⁻³² m². -/
def SectorAcc.take (l : List SectorAcc) (k : Core) (h2 : Option Nat) : List SectorAcc :=
  let σ := k.sector.toNat
  let least (a b : Option Nat) : Option Nat := match a, b with | some x, some y => some (min x y) | some x, none => some x | none, y => y
  if l.any fun (a : SectorAcc) => a.sector == σ then
    l.map fun (a : SectorAcc) => if a.sector = σ then { a with h2 := least a.h2 h2 } else a
  else l ++ [⟨σ, h2, k.tov⟩]

/-- RANGE² − (Z − z_s)² (R387), 0 where rounding makes it negative. -/
def coreH2 (k : Core) (zs : Word) : Nat :=
  let d := k.z.toInt - zs.toInt
  (k.range.toInt * k.range.toInt - d * d).toNat

/-- CB_HIT_ENTRY of one core (R386, R387). DEDUCED, log entry 122. -/
def ChannelB.hit (b : ChannelB) (k : Core) (ref : Option PoseRec) (zs : Word) : ChannelB :=
  if !b.installed then b else
  let is := b.cfg.isHit k
  let b : ChannelB :=
    if k.depth then b
    else { b with sweep := modAt b.sweep k.sensor fun (l : List SectorAcc) => SectorAcc.take l k (if is then some (coreH2 k zs) else none) }
  match is, ref with
  | true, some r => b.enterHit k r
  | _, _ => b

/-- One ray to cast (R387): origin in L64, bearing, millisecond of T_σ and h² in units of 2⁻³² m². -/
structure RayJob where
  x : Int
  y : Int
  bearing : Word
  ms : BitVec 16
  h2 : Nat
deriving DecidableEq, Repr

/-- A length of `n` units of 1/`d` m in Q15.16 (R178). -/
def heldQ (n d : Nat) : Int := rneDiv ((n : Int) * 65536) d

/-- Samples of a ray in Q15.16: r = 0, Δ, 2Δ … while (r + CLR_MARGIN)² ≤ h², Δ = CELL / 2 (R387). DEDUCED, log entry 122. -/
def raySamples (cell : Nat) (margin : Int) (h2 : Nat) : Nat → Nat → List Int
  | 0, _ => []
  | fuel + 1, k =>
    let r := heldQ (k * cell) 200
    if (r + margin) * (r + margin) ≤ (h2 : Int) then r :: raySamples cell margin h2 fuel (k + 1) else []

/-- Mark the cells that a ray has seen; its saturations are counted (R384, R387). -/
def ChannelB.castRay (b : ChannelB) (j : RayJob) : ChannelB :=
  let c := b.cfg
  let n := isqrt j.h2 * 200 / (65536 * max 1 c.cell) + 400
  (raySamples c.cell (heldQ c.clrMargin 1000) j.h2 n 0).foldl (fun (b : ChannelB) r =>
    let ((x, y), k) := (fxCarry j.x j.y j.bearing r 0).run 0
    let p := c.index x
    let q := c.index y
    { b with sat := bumpBy b.sat k
             grid := if b.grid.inWindow c p q then b.grid.update c p q fun (t : CellTimes) => { t with seen := laterMs j.ms t.seen } else b.grid }) b

/-- Bearing of ray m (0 to 2) of sector σ in 2⁻³² turn: σ + 1/6°, 1/2°, 5/6° (R387). -/
def rayBearing (σ m : Nat) : Word := BitVec.ofInt 32 (rneRat ((6 * σ + 2 * m + 1 : Nat) * 4294967296 / 2160))

/-- The rays of a sector from the pose at T_σ, with the saturations of their origin (R387). -/
def sectorRays (c : CbCfg) (e : Extrinsic) (pose : PoseRec) (a : SectorAcc) : List RayJob × Nat :=
  let far := heldQ c.clearMax 1000
  let ((x, y), n) := (fxCarry pose.x.toInt pose.y.toInt pose.heading e.x.toInt e.y.toInt).run 0
  ((List.range 3).map fun m =>
    { x := x, y := y, bearing := pose.heading + e.yaw + rayBearing a.sector m, ms := seenMs a.tov, h2 := a.h2.getD (far * far).toNat }, n)

/-! ### The stopping-distance table (R389) -/

/-- L = 256 × D_STEP, mm (R389). -/
def CbCfg.reach (c : CbCfg) : Nat := 256 * c.dStep

/-- Bin edge e_j in 1/m (R389). -/
def CbCfg.edge (c : CbCfg) (j : Nat) : Rat := ((-(c.kappaSpan : Int) : Int) : Rat) / 1000 + (j : Rat) * (2 * (c.kappaSpan : Rat) / 1000 / (c.kbins : Rat))

/-- The bin that holds a curvature, held to the table's bins (R389, R398). DEDUCED, log entry 125. -/
def CbCfg.bin (c : CbCfg) (k : Rat) : Nat :=
  (clampInt 0 ((c.kbins : Int) - 1) (((k + (c.kappaSpan : Rat) / 1000) / (2 * (c.kappaSpan : Rat) / 1000 / (c.kbins : Rat))).floor)).toNat

/-- A footprint corner moved by `d` along the arc of curvature κ, in the vehicle frame, by the sine table (R389). -/
def arcPoint (κ d x y : Rat) : Rat × Rat :=
  let u := radToTurn (κ * d)
  let s := sinR u
  let c := cosR u
  let (px, py) := if κ = 0 then (d, (0 : Rat)) else (s / κ, (1 - c) / κ)
  (px + (c * x - s * y), py + (s * x + c * y))

/-- A corner on its arc in Q15.16 (R178, R389). DEDUCED, log entry 122. -/
def fxArc (κ d x y : Rat) : Fx (Int × Int) := do
  let p := arcPoint κ d x y
  return (← fxQ p.1, ← fxQ p.2)

/-- The points of the segment from p_l to p_r at distance s mm along bin i, in Q15.16 of the vehicle frame (R389). DEDUCED, log entry 122. -/
def CbCfg.segment (c : CbCfg) (i : Nat) (fwd : Bool) (s : Nat) : Fx (List (Int × Int)) := do
  let w : Rat := ((c.halfWidth + c.sideMargin : Nat) : Rat) / 1000
  let xe : Rat := if fwd then (c.front : Rat) / 1000 else -(c.rear : Rat) / 1000
  let d : Rat := if fwd then (s : Rat) / 1000 else -(s : Rat) / 1000
  let l ← fxArc (c.edge (i + 1)) d xe w
  let r ← fxArc (c.edge i) d xe (-w)
  let n := (((r.1 - l.1).natAbs + (r.2 - l.2).natAbs) * 200 + (65536 * c.cell - 1)) / (65536 * c.cell)
  (List.range (n + 1)).mapM fun (j : Nat) => do
    if n = 0 then return l
    return (← fxSat 32 (l.1 + rneDiv ((r.1 - l.1) * j) n), ← fxSat 32 (l.2 + rneDiv ((r.2 - l.2) * j) n))

/-- The cells of a segment from a pose (R389): the samples carried into the odometry frame. -/
def CbCfg.segmentCells (c : CbCfg) (pose : PoseRec) (i : Nat) (fwd : Bool) (s : Nat) : Fx (List (Int × Int)) := do
  (← c.segment i fwd s).mapM fun p => do
    let o ← fxCarry pose.x.toInt pose.y.toInt pose.heading p.1 p.2
    return (c.index o.1, c.index o.2)

/-- The free distance of a bin in one direction, mm (R389): s steps by Δ = CELL / 2. -/
def ChannelB.freeDist (b : ChannelB) (pose : PoseRec) (t : T64) (i : Nat) (fwd : Bool) : Nat → Nat → Fx Nat
  | 0, _ => return b.cfg.reach
  | fuel + 1, s => do
    if b.cfg.reach ≤ s then return b.cfg.reach
    if (← b.cfg.segmentCells pose i fwd s).all fun (p : Int × Int) => b.grid.state b.cfg t p.1 p.2 == .free then
      b.freeDist pose t i fwd fuel (s + 5 * b.cfg.cell)
    else return s - 5 * b.cfg.cell

/-- The stopping-distance table from a live record with the saturations met (R389, R390): VALID from the first table after S1 entry, whatever the
live record holds. DEDUCED, log entry 123. -/
def ChannelB.tableFrom (b : ChannelB) (pose : PoseRec) (t : T64) (s1 : Bool) : StopTable × Nat :=
  let fuel := b.cfg.reach / (5 * b.cfg.cell) + 1
  let r := ((List.range b.cfg.kbins).mapM fun i => do
      let f ← b.freeDist pose t i true fuel 0
      let v ← b.freeDist pose t i false fuel 0
      return (min 65535 f, min 65535 v)).run 0
  ({ valid := s1, kbins := b.cfg.kbins, t := t, x := pose.x, y := pose.y, heading := pose.heading, entries := r.1 }, r.2)

/-- Bytes of the table (R390). -/
def StopTable.bytes (x : StopTable) : Bytes :=
  packBytes 32 [(4, 1), (1, x.valid.toNat), (6, x.kbins), (21, 0), (64, x.t.toNat), (64, x.x.toNat), (64, x.y.toNat), (32, x.heading.toNat)]
    ++ x.entries.flatMap fun (e : Nat × Nat) => leBytes 2 e.1 ++ leBytes 2 e.2

/-- spd(d) for a distance in mm (R391). -/
def CbCfg.spd (c : CbCfg) (d : Rat) : Nat :=
  c.speedTable.getD (min 255 ((max 0 d) / (c.dStep : Rat)).floor.toNat) 0

/-- moved(p) in mm: |X − p.X| + |Y − p.Y| from a live record (R394). -/
def movedMm (live : PoseRec) (x y : BitVec 64) : Rat :=
  (((live.x.toInt - x.toInt).natAbs + (live.y.toInt - y.toInt).natAbs : Nat) : Rat) * 1000 / 4294967296

/-- The GRID body of a snapshot (R450): a 16-byte head and 2 bits a cell. -/
def GridSnap.body (x : GridSnap) (c : CbCfg) : Bytes :=
  let i0 := x.grid.ci - c.size / 2
  let j0 := x.grid.cj - c.size / 2
  let code (s : CellSt) : Nat := match s with | .free => 0 | .occupied => 1 | .unknown => 2
  packBytes 16 [(32, codeInt 32 i0), (32, codeInt 32 j0), (16, c.size), (8, c.cell), (40, 0)]
    ++ (List.range (c.size * c.size / 4)).map fun q =>
      BitVec.ofNat 8 (packNat ((List.range 4).map fun k =>
        let n := 4 * q + k
        (2, code (x.grid.state c x.t (i0 + ((n / c.size : Nat) : Int)) (j0 + ((n % c.size : Nat) : Int))))))

end Sys2Proof.Machine
end

