-- ==== Sys2Proof/Machine/TeRun.lean ====
section
/-! DEFINITION. How an engine takes lists, runs their commands, flushes and completes (spec 11 R280 to R284, spec 12 R318 to R324, spec 20 R484). -/

namespace Sys2Proof.Machine

open Sys2Proof

/-- Island that raises an engine's events: its load/store unit (R273). DEDUCED, log entry 117. -/
def teIsland (t : Fin 4) : Nat := 61 + 6 * t.val

/-- INSTANCE of R324. -/
def teInst (t : Fin 4) (q : Nat) : Nat := 4 * t.val + q

/-- What the running list of an engine offers next: header, command and its environment. -/
def Tes.front (x : Tes) (t : Fin 4) (m : Memory) (kv : KvCfg) : Option (ListRun × ListHeader × Command × CmdEnv) :=
  match x.te[t].run with
  | none => none
  | some r =>
    let h := ListHeader.ofBytes (m.read .cistern r.addr 64)
    if r.status = .complete ∧ r.ran < h.cmdCount then
      let slot := if hs : h.slot < 64 then x.slots[h.slot] else none
      some (r, h, Command.ofBytes (cmdBytes m r.addr h r.ran), ⟨m, ⟨t, slot, r.launch.frame.toNat % 2 == 1⟩, r.addr, x.te[t].cfg, kv⟩)
    else none

/-- The events and counters of one command's outcome (R324). -/
def Te.account (te : Te) (t : Fin 4) (r : ListRun) (o : CmdOut) : Te × List Ev :=
  let i := teInst t r.queue.val
  let te := { te with
    tensorClamp := bumpBy te.tensorClamp o.clamps.length, indexRange := bumpBy te.indexRange o.indexRange
    kvNoPage := bumpBy te.kvNoPage o.noPage, rbMismatch := bumpIf o.mismatch.isSome te.rbMismatch }
  (te,
   (match o.clamps with | c :: _ => [evt .tensorClamp (teIsland t) i c] | [] => [])
   ++ (if o.indexRange = 0 then [] else [evt .indexRange (teIsland t) i o.indexRange])
   ++ (match o.mismatch with | some n => [evt .rbMismatch (teIsland t) i n] | none => [])
   ++ (if o.bucket = 0 then [] else [evt .attBucket (teIsland t) i o.bucket])
   ++ (if o.noPage = 0 then [] else [evt .kvNoPage (teIsland t) i o.noPage]))

/-- A finished command: its flags and counts join the list's; a poisoned word stops the list (R187, R472). -/
def ListRun.after (r : ListRun) (o : CmdOut) (now : T64) : ListRun :=
  { r with ran := r.ran + 1, flags := r.flags ||| o.flags, indexRange := r.indexRange + o.indexRange, cmdAt := now
           status := if o.poisoned then .stopped else r.status }

/-- Run the next command of an engine's list if it has this opcode. DESIGN CHOICE, log entry 1. -/
def Tes.run (x : Tes) (t : Fin 4) (m : Memory) (kv : KvCfg) (now : T64) (opcode : Nat) (f : CmdEnv → Command → CmdOut) : Tes × Memory × List Ev :=
  match x.front t m kv with
  | none => (x, m, [])
  | some (r, _, c, e) =>
    if c.opcode = opcode then
      let o := f e c
      let (te, es) := x.te[t].account t r o
      ({ x with te := x.te.set t { te with run := some (r.after o now) } }, o.mem, es)
    else (x, m, [])

/-- The operands that a command reads, by its opcode (R303); SCATTER reads its destination where it combines (R310). -/
def Command.reads (c : Command) : List Nat :=
  match c.opcode with
  | 0x01 => [0, 3]
  | 0x10 | 0x11 | 0x12 => [0, 1, 2, 3, 4, 6, 7]
  | 0x20 => [0, 1]
  | 0x21 => if fieldNat (c.param 0) 0 2 = 0 then [0, 1] else [0, 1, 2]
  | 0x30 => [0]
  | 0x31 => [0, 1]
  | 0x32 => [0, 1, 2]
  | 0x33 => [0]
  | 0x34 => [0, 2]
  | 0x35 => [0, 1, 2]
  | 0x40 | 0x41 | 0x43 => [0, 1, 2, 3, 4]
  | 0x42 => [0, 1, 2]
  | 0x60 => [0]
  | _ => []

/-- The command that an engine has next is of this opcode. -/
def Tes.runs (x : Tes) (t : Fin 4) (m : Memory) (kv : KvCfg) (opcode : Nat) : Bool :=
  match x.front t m kv with | some (_, _, c, _) => c.opcode == opcode | none => false

/-- The tensors that the next command reads, if it is of this opcode, the rulebook of SPCONV among them (R303, R308). -/
def Tes.tensorsRead (x : Tes) (t : Fin 4) (m : Memory) (kv : KvCfg) (opcode : Nat) : List Tens :=
  match x.front t m kv with
  | none => []
  | some (_, _, c, e) => if c.opcode = opcode then
      c.reads.filterMap (fun k => e.tens? c k)
        ++ (if opcode = 0x12 then [((Desc.ofBytes (descBytes e.mem e.list (fieldNat (c.param 1) 0 12))).resolve e.env e.mem).1] else [])
    else []

/-- Does a command read the local buffer: a tensor that it reads lies in LOCAL, it reads a staging slot, or it reads the accumulator memory, which
is part of the buffer (R276, R315, R473). -/
def Tes.readsLocal (x : Tes) (t : Fin 4) (m : Memory) (kv : KvCfg) (opcode : Nat) : Bool :=
  (x.tensorsRead t m kv opcode).any (fun y => y.space == .loc t) || (x.runs t m kv opcode && [0x10, 0x11, 0x12, 0x40, 0x42].contains opcode)

/-- What a read of LPDDR5X at an address finds (R476): a correction is counted; an uncorrectable word is poisoned, and the command that reads it
stops (R472). -/
def Memory.dramFind (m : Memory) (a : Nat) : EccFind → Memory × List Ev
  | .clean => (m, [])
  | .corrected => ({ m with dramCe := bump m.dramCe }, [evtOpen .dramCe (m.cfg.dramIsland a) 0])
  | .uncorrectable => ({ (m.poison .dram (a / 8)) with dramUe := bump m.dramUe }, [evt .dramUe (m.cfg.dramIsland a) 0 (a / 64)])

/-- A tensor command, with what the local buffer's decoder finds while it reads LOCAL (R473), or that of LPDDR5X where it reads only there: the
word found is that of the first such tensor's first element (R476). DEDUCED, log entry 174. -/
def Tes.runEcc (x : Tes) (t : Fin 4) (m : Memory) (kv : KvCfg) (now : T64) (opcode : Nat) (ecc : EccFind) (f : CmdEnv → Command → CmdOut) :
    Tes × Memory × List Ev :=
  if x.readsLocal t m kv opcode then
    match ecc with
    | .clean => x.run t m kv now opcode f
    | .corrected =>
      let (y, m, es) := x.run t m kv now opcode f
      ({ y with te := modAt y.te t fun e => { e with localCe := bump e.localCe } }, m, es)
    | .uncorrectable =>
      let (y, m, es) := x.run t m kv now opcode fun e c => { mem := e.mem, clamps := e.clamps c, poisoned := true }
      (y, m, es ++ [evtOpen .teEccUe (teIsland t) t.val])
  else match (x.tensorsRead t m kv opcode).find? (fun y => y.space == .dram) with
    | none => x.run t m kv now opcode f
    | some y =>
      let found := m.dramFind y.base ecc
      let r := x.run t found.1 kv now opcode f
      (r.1, r.2.1, r.2.2 ++ found.2)

/-- The queue whose list starts next: the highest-priority one with a list ready (R282). -/
def Te.ready (te : Te) : Option (Fin 4) :=
  (List.finRange 4).find? fun q => te.chain[q].isSome || !te.flume[q].isEmpty

/-- LIST_START (R282): the next list of a chain, or the first of the launch entry at the flume's head. A head entry that reads uncorrectable is discarded (R473). -/
def Te.start (te : Te) (t : Fin 4) (m : Memory) (now : T64) (ue : Bool) : Te × List Ev :=
  match te.run, te.ready with
  | none, some q =>
    match te.chain[q], te.flume[q] with
    | some c, _ =>
      let h := ListHeader.ofBytes (m.read .cistern c.next.toNat 64)
      ({ te with chain := te.chain.set q (some { c with next := h.next })
                 run := some { queue := q, launch := c.launch, addr := c.next.toNat, startAt := now, cmdAt := now } }, [])
    | none, l :: rest =>
      if ue then ({ te with flume := te.flume.set q rest }, [evtOpen .cmdFlumeUe (teIsland t) (teInst t q.val)])
      else
        let h := ListHeader.ofBytes (m.read .cistern l.list.toNat 64)
        ({ te with flume := te.flume.set q rest, chain := te.chain.set q (some ⟨l, h.next, false⟩)
                   run := some { queue := q, launch := l, addr := l.list.toNat, startAt := now, cmdAt := now } }, [])
    | none, [] => (te, [])
  | _, _ => (te, [])

/-- Write a launch entry into a command flume (R281, R484): a full flume ignores it. -/
def Te.launch (te : Te) (t : Fin 4) (q : Fin 4) (l : LaunchEntry) (now : T64) : Te × List Ev :=
  let n := te.flume[q].length
  if 16 ≤ n then ({ te with overrun := te.overrun.set q true }, [evtOpen .cmdFlumeOverrun (teIsland t) (teInst t q.val)])
  else
    let lv := te.cfg.qLevel[q]
    let cross := lv != 0 && n + 1 == lv
    let quiet := match te.levelAt[q] with | some a => !(elapsed now a (10 * ticksPerUs)) | none => false
    ({ te with flume := te.flume.set q (te.flume[q] ++ [l])
               levelAt := if cross && !quiet then te.levelAt.set q (some now) else te.levelAt },
     if cross && !quiet then [evt .cmdFlumeLevel (teIsland t) (teInst t q.val) (n + 1)] else [])

/-- A flush of a queue (R284): its entries go, and its running chain ends at its next list boundary. DEDUCED, log entry 113. -/
def Te.flush (te : Te) (t : Fin 4) (q : Fin 4) : Te × List Ev :=
  let n := te.flume[q].length
  let inList : Bool := te.run.any fun r => r.queue == q
  let ends : Bool := te.chain[q].any fun c => !c.ending
  if n = 0 ∧ ends = false then (te, []) else
  ({ te with
      flume := te.flume.set q [], flushes := te.flushes.set q (bump te.flushes[q])
      chain := te.chain.set q (if inList then te.chain[q].map fun c => { c with ending := true } else none) },
   [evt .queueFlush (teIsland t) (teInst t q.val) (n + if ends = true then 65536 else 0)])

/-- The completion record (R323); an engine spends one cycle per ns of device time in either mode (R68, R294). DEDUCED, log entry 118. -/
def ListRun.record (r : ListRun) (t : Fin 4) (now : T64) : Bytes :=
  let cycles := (tDiff now r.startAt).toNat / 8
  packBytes 32 [(4, 1), (3, match r.status with | .complete => 0 | .stopped => 1 | .goldenFail => 2), (1, 0), (8, r.flags.toNat),
    (12, r.ran), (4, 0), (8, r.launch.entry.toNat), (4, r.launch.launch.toNat), (2, r.queue.val), (2, t.val), (16, 0),
    (32, r.launch.frame.toNat), (32, min cycles (2 ^ 32 - 1)), (64, now.toNat), (32, min r.indexRange (2 ^ 32 - 1)), (32, 0)]

/-- How a list's end leaves its task. -/
inductive TaskEnd where
  | running
  | complete (l : LaunchEntry)
  | stopped (l : LaunchEntry)
deriving DecidableEq, Repr

/-- LIST_COMPLETION (R323, R187): the record, the flag register and the end of the chain. -/
def Te.finish (te : Te) (t : Fin 4) (m : Memory) (now : T64) : Te × Memory × List Ev × TaskEnd :=
  match te.run with
  | none => (te, m, [], .running)
  | some r =>
    let h := ListHeader.ofBytes (m.read .cistern r.addr 64)
    if r.status = .complete ∧ r.ran < h.cmdCount then (te, m, [], .running) else
    let q := r.queue
    let m := if h.completion = 0xFFFFFFFF then m else m.write .cistern h.completion (r.record t now)
    let ending : Bool := match te.chain[q] with | some c => c.ending | none => true
    let ended := decide (r.status = .stopped) || ending || h.next == 0xFFFFFFFF
    let te := { te with run := none, qflags := te.qflags.set q r.flags, lists := te.lists.set q (bump te.lists[q])
                        chain := if ended then te.chain.set q none else te.chain }
    let es := if r.flags &&& te.cfg.flagEvent.setWidth 8 = 0 then []
      else [evt .arithFlags (teIsland t) (teInst t q.val) (r.flags.toNat % 32 + 256 * r.launch.entry.toNat)]
    (te, m, es,
     if !ended then .running else if r.status == .stopped || (ending && h.next != 0xFFFFFFFF) then .stopped r.launch else .complete r.launch)

/-- WORD, TAG, PREV and TIMEOUT of SIGNAL and WAIT (R318). -/
def Command.word (c : Command) : Nat := fieldNat c.bits 32 32
def Command.tag (c : Command) : Nat := fieldNat c.bits 64 8
def Command.prev (c : Command) : Nat := fieldNat c.bits 72 1
def Command.timeout (c : Command) : Nat := fieldNat c.bits 80 16

/-- The value of a sync word for a frame and tag (R318). -/
def syncValue (frame : Word) (prev tag : Nat) : Word := (frame - BitVec.ofNat 32 prev) * 256 + BitVec.ofNat 32 tag

/-- SIGNAL (R318): its list's earlier writes are done. -/
def Tes.signal (x : Tes) (t : Fin 4) (m : Memory) (kv : KvCfg) (now : T64) : Tes × Memory × List Ev :=
  match x.front t m kv with
  | none => (x, m, [])
  | some (r, _, _, _) => x.run t m kv now 0x50 fun e c =>
      { mem := e.mem.write .cistern c.word (leBytes 4 (syncValue r.launch.frame 0 c.tag).toNat) }

/-- Does the word that a WAIT names match (R318). -/
def waitMatches (m : Memory) (r : ListRun) (c : Command) : Bool :=
  m.readNat .cistern c.word 4 == (syncValue r.launch.frame c.prev c.tag).toNat

/-- Has a WAIT waited longer than its TIMEOUT, counted from its start (R318, R320). -/
def waitOver (r : ListRun) (c : Command) (now : T64) : Bool := elapsed now r.cmdAt (c.timeout * ticksPerUs + 1)

/-- Does the word that a WAIT samples lie in a poisoned word (R472). -/
def waitPoisoned (m : Memory) (c : Command) : Bool := m.poisoned .cistern c.word 4

/-- WAIT (R318): it completes on a match sampled within its TIMEOUT; a poisoned word stops its list (R472). -/
def Tes.wait (x : Tes) (t : Fin 4) (m : Memory) (kv : KvCfg) (now : T64) : Tes × Memory × List Ev :=
  match x.front t m kv with
  | some (r, _, c, _) =>
    if c.opcode = 0x51 ∧ waitPoisoned m c = true ∧ waitOver r c now = false then x.run t m kv now 0x51 fun e _ => { mem := e.mem, poisoned := true }
    else if waitMatches m r c && !waitOver r c now then x.run t m kv now 0x51 fun e _ => { mem := e.mem } else (x, m, [])
  | none => (x, m, [])

/-- WAIT_TIMEOUT (R320): a match at that instant counts as a match. -/
def Tes.waitTimeout (x : Tes) (t : Fin 4) (m : Memory) (kv : KvCfg) (now : T64) : Tes × List Ev :=
  match x.front t m kv with
  | some (r, _, c, _) =>
    if c.opcode = 0x51 ∧ (waitMatches m r c = false ∨ waitOver r c now = true) ∧ elapsed now r.cmdAt (c.timeout * ticksPerUs) = true then
      ({ x with te := modAt x.te t fun te => { te with syncTimeout := bump te.syncTimeout, run := some { r with status := .stopped, cmdAt := now } } },
       [evt .syncTimeout (teIsland t) (teInst t r.queue.val) c.word])
    else (x, [])
  | none => (x, [])

/-- DIGEST (R321). -/
def Tes.digest (x : Tes) (t : Fin 4) (m : Memory) (kv : KvCfg) (now : T64) (ecc : EccFind) : Tes × Memory × List Ev :=
  match x.front t m kv with
  | some (r, _, c, e) =>
    let g := (e.digest c r.golden).2
    let (y, m, es) := x.runEcc t m kv now 0x60 ecc fun e c => (e.digest c r.golden).1
    if c.opcode = 0x60 then
      ({ y with te := modAt y.te t fun te => { te with run := te.run.map fun z => { z with golden := if z.status = .stopped then z.golden else g } } }, m, es)
    else (y, m, es)
  | none => (x, m, [])

/-- GOLDEN_CHECK (R322): bit 0 for the digest, bit 1 for the flags. -/
def Tes.goldenCheck (x : Tes) (t : Fin 4) (m : Memory) (kv : KvCfg) (now : T64) : Tes × List Ev :=
  match x.front t m kv with
  | some (r, h, c, _) =>
    if c.opcode = 0x61 then
      let bad := (if r.golden = h.expectDigest then 0 else 1) + (if r.flags = h.expectFlags then 0 else 2)
      let r' := { r with ran := r.ran + 1, cmdAt := now, status := if bad = 0 then r.status else .goldenFail }
      ({ x with te := modAt x.te t fun te => { te with run := some r', goldenFail := bumpIf (bad != 0) te.goldenFail } },
       if bad = 0 then [] else [evt .goldenFail (teIsland t) (teInst t r.queue.val) bad])
    else (x, [])
  | none => (x, [])

end Sys2Proof.Machine
end

