-- ==== Sys2Proof/Machine/SeqOps.lean ====
section
/-! DEFINITION. The Frame Sequencer: launches, limits, timing misses and what a failed task leaves (spec 03 R79 to R84; spec 17 R419, R421; spec 10 R244). -/

namespace Sys2Proof.Machine

open Sys2Proof

/-- Island of the Frame Sequencer; timing events are raised by SSA, or by SSB once SSA is lost (R422). -/
def seqIsland : Nat := 134
def State.supIsland (s : State) : Nat := if s.safety.sup[0].lost then 131 else 130
/-- The supervisor that raises timing events. -/
def State.supNo (s : State) : Fin 2 := if s.safety.sup[0].lost then 1 else 0

/-- The schedule table of a frame (R79, R111): the table in force at its boundary. -/
def Seq.tableOf (q : Seq) (n : BitVec 64) : List SchedEntry :=
  q.prev.foldl (fun t x => if n < x.1 then x.2 else t) q.table

/-- The record of a launch. -/
def Seq.find (q : Seq) (n : BitVec 64) (e j : Nat) : Option Launch :=
  q.launches.find? fun (l : Launch) => l.frame == n && l.entry == e && l.j == j

/-- A launch has been aborted. -/
def Seq.abortedAt (q : Seq) (x : BitVec 64 × Nat × Nat) : Bool := match q.find x.1 x.2.1 x.2.2 with | some l => l.aborted | none => false

/-- Record a launch or a new outcome of it; launches of old frames are dropped. -/
def Seq.put (q : Seq) (l : Launch) : Seq :=
  { q with launches := l :: q.launches.filter fun (x : Launch) =>
      !(x.frame == l.frame && x.entry == l.entry && x.j == l.j) && decide (l.frame.toNat < x.frame.toNat + 8) }

/-- The OUTCOME code of R518. -/
def Launched.code : Launched → BitVec 3
  | .waiting => 0 | .running => 0 | .complete => 1 | .startMiss => 2 | .runLong => 3 | .deadlineMiss => 4 | .skipped => 5 | .stopped => 6

/-- Show an outcome in SEQ_ENTRY[e] (R518). -/
def Seq.show (q : Seq) (e : Fin 256) (j : Nat) (o : Launched) (short : Bool) : Seq :=
  { q with regs := modAt q.regs e fun (r : EntryReg) => { r with launch := BitVec.ofNat 4 j, outcome := o.code, runShort := short } }

/-- Every launch of an entry has completed in a frame. DEDUCED, log entry 15. -/
def Seq.entryDone (q : Seq) (n : BitVec 64) (e : Nat) : Bool :=
  match (q.tableOf n)[e]? with
  | some x => (List.range (x.repeats.toNat + 1)).all fun j => match q.find n e j with | some l => l.outcome == .complete | none => false
  | none => false

/-- Does the PRED chain of an entry lead to another. -/
def leadsTo (t : List SchedEntry) (target : Nat) : Nat → Nat → Bool
  | 0, _ => false
  | fuel + 1, e =>
    match t[e]? with
    | some x => if x.pred = 511 then false else x.pred.toNat == target || leadsTo t target fuel x.pred.toNat
    | none => false

/-- Entries whose checks a stretched frame shifts (R244): the 0x10 entry and those whose PRED chain leads to it. -/
def shifted (t : List SchedEntry) (e : Nat) : Bool :=
  (match t[e]? with | some x => x.target == 0x10 | none => false)
    || (List.range t.length).any fun p => (match t[p]? with | some x => x.target == 0x10 | none => false) && leadsTo t p 256 e

/-- The shift s of an entry's checks in a frame, in ticks. -/
def State.shift (s : State) (f : Frame) (e : Nat) : Nat :=
  if f.stretched && shifted (s.seq.tableOf f.no) e then (tDiff f.next f.b).toNat - s.tb.cfg.period else 0

/-- Bₙ + START + j × SPACING (R81). -/
def SchedEntry.startAt (x : SchedEntry) (b : T64) (j : Nat) : T64 := b + us (x.start.toNat + j * x.spacing.toNat)

/-- The latest launch instant and the latest completion of launch j (R81, R82). -/
def State.windowEnd (s : State) (f : Frame) (x : SchedEntry) (e j : Nat) : T64 := x.startAt f.b j + us x.window.toNat + tick (s.shift f e)
def State.deadlineOf (s : State) (f : Frame) (x : SchedEntry) (e j : Nat) : T64 :=
  f.b + us (x.deadline.toNat + j * x.spacing.toNat) + tick (s.shift f e)

/-- Place of a target outside the TEs in the vector of busy units. -/
def unitOf (target : BitVec 8) : Option (Fin 6) := if h : 16 ≤ target.toNat ∧ target.toNat < 22 then some ⟨target.toNat - 16, by omega⟩ else none

/-- The output assembly entry of a frame's schedule (TARGET 0x14), with its index. -/
def Seq.assembly (q : Seq) (n : BitVec 64) : Option (Nat × SchedEntry) :=
  match (q.tableOf n).findIdx? fun (x : SchedEntry) => x.target == 0x14 with
  | some e => ((q.tableOf n)[e]?).map fun (x : SchedEntry) => (e, x)
  | none => none

/-- What a batch finds of its feed frame (R375). -/
inductive Feed where
  | wait
  | absent (m : Option Frame)
  | ready (m : Frame)
deriving DecidableEq, Repr

/-- The feed frame of a batch with nominal launch time L (R375): the largest m with Bₘ + D_out ≤ L, available if its 0x14 task completed by Bₘ + D_out. -/
def State.feedOf (s : State) (l : T64) : Feed :=
  match s.tb.frame with
  | some f0 =>
    match (f0 :: s.tb.past).find? fun (f : Frame) => match s.seq.assembly f.no with
        | some (_, x) => tReached l (f.b + us x.deadline.toNat) | none => false with
    | none => .absent none
    | some f =>
      match s.seq.assembly f.no with
      | none => .absent (some f)
      | some (e, x) =>
        match s.seq.find f.no e 0 with
        | some r =>
          if r.outcome = .complete ∧ (match r.doneAt with | some d => tReached (f.b + us x.deadline.toNat) d | none => false) = true then .ready f
          else if (r.outcome = .running ∨ r.outcome = .waiting) ∧ tLater s.tb.now (f.b + us x.deadline.toNat) = false then .wait
          else .absent (some f)
        | none => .absent (some f)
  | none => .absent none

/-- The alignment lane holds a problem of the batch that the QSA runs, or may come to hold one (R380, R381): the batch has not ended, its feed frame
is available or not yet decided, and that lane's candidate is enabled. -/
def State.alignLaneBusy (s : State) : Bool :=
  match s.seq.busy[2] with
  | none => false
  | some (n, e, j) => !(s.seq.finished.contains (n, e, j)) && match (s.seq.tableOf n)[e]?, s.tb.frameNo n with
    | some x, some f => (match s.feedOf (x.startAt f.b j) with
        | .wait => true
        | .absent _ => false
        | .ready m =>
          let c := s.qsa.cfg
          decide (c.alignLane.val < c.candidates) && (candidateAt s.mem (c.feedBase + (m.no.toNat % 2) * c.feedBytes) c.alignLane.val).enable)
    | _, _ => true

/-- TARGET can accept the task of frame n (R81, R281, R244, R380, R381): a TE queue below 16 entries; another unit that is idle; the PCU from
the frame's close; a batch only while the QSA holds no other task, the alignment task while its lane is idle. -/
def State.accepts (s : State) (x : SchedEntry) (n : BitVec 64) : Bool :=
  match unitOf x.target with
  | none => decide ((s.tes.te[(⟨x.target.toNat / 4 % 4, Nat.mod_lt _ (by decide)⟩ : Fin 4)].flume[(⟨x.target.toNat % 4, Nat.mod_lt _ (by decide)⟩ : Fin 4)]).length < 16)
  | some u =>
    s.seq.busy[u].isNone
      && (x.target != 0x10 || (match s.seq.closed with | some c => decide (n.toNat ≤ c.toNat) | none => false))
      && (x.target != 0x12 || s.seq.busy[5].isNone) && (x.target != 0x15 || !s.alignLaneBusy)

/-- Is launch j of entry e due in frame n and within its window (R82), its predecessor complete and its target free (R81). DEDUCED, log entry 15. -/
def State.launchable (s : State) (n : BitVec 64) (e j : Nat) : Bool :=
  match (s.seq.tableOf n)[e]?, s.tb.frameNo n with
  | some x, some f =>
    s.enrolled && !s.c3 && !(s.replaying && !s.replay.started) && decide (j ≤ x.repeats.toNat) && (s.seq.find n e j).isNone
      && !s.seq.bad.contains e && tReached s.tb.now (x.startAt f.b j) && !tLater s.tb.now (s.windowEnd f x e j)
      && (x.pred == 511 || s.seq.entryDone n x.pred.toNat) && s.accepts x n
  | _, _ => false

/-- START_ORDER (R83): an earlier entry with an earlier or equal START has not launched; a missed or skipped launch is none. -/
def Seq.outOfOrder (q : Seq) (n : BitVec 64) (e : Nat) : Bool :=
  match (q.tableOf n)[e]? with
  | none => false
  | some x => (List.range e).any fun d => match (q.tableOf n)[d]? with
    | some y => decide (y.start.toNat ≤ x.start.toNat)
        && (match q.find n d 0 with | some l => l.outcome == .startMiss || l.outcome == .skipped | none => true)
    | none => false

/-- DATA of a timing event (R419). -/
def timingData (e j : Nat) : Nat := e + j * 65536

/-- A supervisor's copy of an entry's misses holds a frame. -/
def Supervisor.missedIn (v : Supervisor) (e : Fin 256) (n : BitVec 64) : Bool := v.missed.any fun x => x.1 == e && x.2 == n

/-- Frames in a row with a miss of an entry, from a frame on, downwards or upwards, at most `fuel`. -/
def Supervisor.runDown (v : Supervisor) (e : Fin 256) : Nat → BitVec 64 → Nat
  | 0, _ => 0
  | fuel + 1, n => if v.missedIn e n then 1 + (if n = 0 then 0 else v.runDown e fuel (n - 1)) else 0
def Supervisor.runUp (v : Supervisor) (e : Fin 256) : Nat → BitVec 64 → Nat
  | 0, _ => 0
  | fuel + 1, n => if v.missedIn e n then 1 + v.runUp e fuel (n + 1) else 0

/-- A supervisor takes a miss of an entry in a frame into its own copy. -/
def Supervisor.takeMiss (v : Supervisor) (e : Fin 256) (n : BitVec 64) : Supervisor :=
  { v with missed := (e, n) :: v.missed.filter fun x => decide (n.toNat < x.2.toNat + 256) }

/-- A timing miss of an entry in a frame (R419), once for a frame: the run of consecutive frames that it belongs to, and TIMING_ESCALATE at
TIMING_C2. DEDUCED, log entry 15. -/
def State.miss (s : State) (n : BitVec 64) (e : Fin 256) : State :=
  let v := s.safety.sup[s.supNo]
  if v.lost || v.missedIn e n then s else
  let w := v.takeMiss e n
  let run := w.runDown e 255 n + w.runUp e 255 (n + 1)
  let up := decide (s.safety.cfg.timingC2 ≤ run)
  { s with
    safety := { s.safety with sup := s.safety.sup.map fun (x : Supervisor) => if x.lost then x else x.takeMiss e n }
    seq := { s.seq with regs := modAt s.seq.regs e fun (r : EntryReg) => { r with missRun := BitVec.ofNat 8 (min 255 run) }
                        timingMiss := bump s.seq.timingMiss
                        timingEscalate := bumpIf up s.seq.timingEscalate }
    ev := if up then s.ev.raise (evt .timingEscalate s.supIsland e.val e.val) else s.ev }

/-- The raising supervisor knows a miss of an entry in a frame or in a later one. -/
def State.missedSince (s : State) (n : BitVec 64) (e : Fin 256) : Bool :=
  s.safety.sup[s.supNo].missed.any fun x => x.1 == e && decide (n.toNat ≤ x.2.toNat)

/-- A timing fault of a launch (R419, R421): of a golden entry GOLDEN_FAIL with DATA[2], else its event and a timing miss. DEDUCED, log entries 15, 96. -/
def State.timingFault (s : State) (n : BitVec 64) (e : Fin 256) (j : Nat) (k : EvKind) : State :=
  match (s.seq.tableOf n)[e.val]? with
  | none => s
  | some x =>
    if s.safety.sup[0].lost && s.safety.sup[1].lost then s
    else if x.golden then { s with ev := s.ev.raise (evt .goldenFail s.supIsland e.val 4) }
    else
      let s1 : State := { s with ev := s.ev.raise (evt k s.supIsland e.val (timingData e.val j)) }
      if k = .runShort then s1 else s1.miss n e

/-- The effect of a verdict on hold, runs and events (R395). -/
def State.giveVerdict (s : State) (v : Verdict) (n : BitVec 64) (data : Nat) : State :=
  let c := s.guard.cfg
  let w := s.weir
  let bad := v = .conflict ∨ v = .noSummary
  let inS3 := s.bcc.stage == 3
  -- NO_SUMMARY counts towards C2_COUNT, and is reported, in S3 only
  let counts := v = .conflict ∨ (v = .noSummary ∧ inS3 = true)
  let same := w.verdict = some v
  let run := if counts then (if same then (if w.conflictRun = 255 then 255 else w.conflictRun + 1) else 1) else 0
  let calm := v = .agree ∨ v = .mismatch
  let clear := if calm then (if w.clearRun = 255 then 255 else w.clearRun + 1) else 0
  let hold := if v = .conflict then true else if w.hold && calm && decide (c.clearFrames ≤ clear.toNat) then false else w.hold
  let diverge := counts ∧ run.toNat = c.c2Count
  let s := s.keepCopies
  { s with
    weir := { w with verdict := some v, hold := hold, conflictRun := run, clearRun := clear, data := BitVec.ofNat 32 data, given := some v, frame := some n
                     summary := if bad then { w.summary with valid := false } else w.summary }
    ev := s.ev.raiseAll
      ((match v with
        | .agree => []
        | .mismatch => [evt .weirMismatch 128 0 data]
        | .conflict => [evt .weirConflict 128 0 data]
        | .noSummary => if inS3 then [evt .weirNoSummary 128 0 data] else [])
       ++ (if diverge then [evt .weirDiverge 128 0 data] else [])) }

/-- The problem that the alignment task of frame n solves (R231, R236): that of the window that frame n − 1 closed, and only in S3. -/
def State.stepWork (s : State) (n : BitVec 64) : Option AlignWork :=
  s.pau.work.filter fun (w : AlignWork) => w.frame + 1 == n && decide (3 ≤ s.bcc.stage.toNat)

/-- What a task that is skipped, late or aborted leaves of its unit: the Weir gives NO_SUMMARY (R394), the alignment step is discarded (R236). -/
def State.unitFailed (s : State) (target : BitVec 8) (n : BitVec 64) : State :=
  if target = 0x13 then s.giveVerdict .noSummary n 0
  else if target = 0x15 then
    match s.stepWork n with
    | some _ => (let r := s.pau.discardStep; { s with pau := r.1, ev := s.ev.raiseAll r.2 })
    | none => s
  else s

/-- What the abort of a task leaves of its unit: the Tracker's tracks of frame n are not in force (R355). A task that DEADLINE_MISS has met has
failed already. -/
def State.unitAborted (s : State) (target : BitVec 8) (n : BitVec 64) (failed : Bool) : State :=
  if target = 0x11 then { s with trk := s.trk.undo n } else if failed then s else s.unitFailed target n

/-- The entries of a frame's schedule that launch on GENERATION engines: its generation work (R335). -/
def State.generationEntries (s : State) (n : BitVec 64) : List Nat :=
  (List.range (s.seq.tableOf n).length).filter fun e =>
    match (s.seq.tableOf n)[e]? with
    | some x => decide (x.target.toNat < 16) && s.tes.te[(⟨x.target.toNat / 4 % 4, Nat.mod_lt _ (by decide)⟩ : Fin 4)].cfg.gen
    | none => false

/-- The generation work of a frame has completed: every such entry has (R335). -/
def State.generationDone (s : State) (n : BitVec 64) : Bool := (s.generationEntries n).all fun e => s.seq.entryDone n e

/-- Free the unit that runs a launch. -/
def Seq.freeUnit (q : Seq) (n : BitVec 64) (e j : Nat) : Seq :=
  { q with busy := Vector.ofFn fun (u : Fin 6) => if q.busy[u] = some (n, e, j) then none else q.busy[u]
           finished := q.finished.filter fun x => !(x == (n, e, j)) }

/-- Skip the launches of an entry that have not been launched in a frame, with what that leaves of its unit. -/
def State.skipEntry (s : State) (n : BitVec 64) (e : Nat) : State :=
  match (s.seq.tableOf n)[e]? with
  | none => s
  | some x =>
    let open_ := (List.range (x.repeats.toNat + 1)).filter fun j => (s.seq.find n e j).isNone
    if open_.isEmpty then s else
    let q := open_.foldl (fun (q : Seq) j => q.put ⟨n, e, j, .skipped, s.tb.now, false, false, none⟩) s.seq
    let q := if h : e < 256 then q.show ⟨e, h⟩ (open_.foldl max 0) .skipped false else q
    ({ s with seq := q } : State).unitFailed x.target n

/-- The successors of a failed launch are skipped for the frame (R82). -/
def State.skipSuccessors (s : State) (n : BitVec 64) (e : Nat) : State :=
  (List.range (s.seq.tableOf n).length).foldl (fun (s : State) k => if leadsTo (s.seq.tableOf n) e 256 k then s.skipEntry n k else s) s

/-- A batch that RUN_LONG stops (R380, R369): it counts as a batch, every lane reports ABORTED, and no command is written. DEDUCED, log entry 120. -/
def State.abortBatch (s : State) : State :=
  let q := { s.qsa with batch := s.qsa.batch + 1, results := Vector.replicate 64 ({ status := .aborted } : SolveResult) }
  let base := q.cfg.resultBase + (q.batch.toNat % 2) * 65536
  { s with
    qsa := q
    mem := (List.range 64).foldl (fun (m : Memory) l => m.write .cistern (base + 1024 * l) (({ status := .aborted } : SolveResult).bytes l s.tb.now)) s.mem }

/-- The alignment solve that RUN_LONG stops reports ABORTED (R367, R369). -/
def State.abortAlign (s : State) : State :=
  let r : SolveResult := { status := .aborted }
  { s with qsa := { s.qsa with alignResult := r }
           mem := s.mem.write .cistern (s.qsa.cfg.resultBase + 131072) (r.bytes s.qsa.cfg.alignLane.val s.tb.now) }

/-- Abort a running task (R82, R269, R284, R380): a TE queue is flushed; the PCU ends with the step in progress; the lanes of a solve that still
runs stop and report ABORTED; the other units stop. DEDUCED, log entry 120. -/
def State.abort (s : State) (x : SchedEntry) (n : BitVec 64) (e j : Nat) (failed : Bool) : State :=
  match unitOf x.target with
  | none =>
    let t : Fin 4 := ⟨x.target.toNat / 4 % 4, Nat.mod_lt _ (by decide)⟩
    let q : Fin 4 := ⟨x.target.toNat % 4, Nat.mod_lt _ (by decide)⟩
    let r := s.tes.te[t].flush t q
    { s with tes := { s.tes with te := s.tes.te.set t r.1 }, ev := s.ev.raiseAll r.2 }
  | some _ =>
    if x.target = 0x10 then s
    else
      let s1 : State := { s with seq := s.seq.freeUnit n e j }
      if s.seq.finished.contains (n, e, j) then s1.unitAborted x.target n failed
      else if x.target = 0x12 then s1.abortBatch
      else if x.target = 0x15 then s1.abortAlign.unitAborted x.target n failed
      else s1.unitAborted x.target n failed

/-- RUN_LONG where it is due (R82): a running task not completed by t + MAX_RT is aborted. DEDUCED, log entry 15. -/
def State.runLongNow (s : State) (n : BitVec 64) (e : Fin 256) (j : Nat) : State :=
  match (s.seq.tableOf n)[e.val]?, s.tb.frameNo n, s.seq.find n e.val j with
  | some x, some f, some l =>
    if (l.outcome = .running ∨ (l.outcome = .deadlineMiss ∧ l.doneAt = none ∧ l.aborted = false))
        ∧ tLater s.tb.now (l.at_ + us x.maxRt.toNat + tick (s.shift f e.val)) = true then
      let s1 : State := { s with seq := (s.seq.put { l with outcome := .runLong, aborted := true }).show e j .runLong l.runShort }
      (s1.timingFault n e j .runLong).abort x n e.val j (decide (l.outcome = .deadlineMiss))
    else s
  | _, _, _ => s

/-- DEADLINE_MISS where it is due (R82, R27): not completed by Bₙ + DEADLINE; the successors are skipped. -/
def State.deadlineNow (s : State) (n : BitVec 64) (e : Fin 256) (j : Nat) : State :=
  match (s.seq.tableOf n)[e.val]?, s.tb.frameNo n, s.seq.find n e.val j with
  | some x, some f, some l =>
    if (l.outcome = .running ∨ l.outcome = .runLong) ∧ l.doneAt = none ∧ tLater s.tb.now (s.deadlineOf f x e.val j) = true then
      let late := decide (l.outcome = .running)
      let s1 : State := { s with seq := (s.seq.put { l with outcome := .deadlineMiss }).show e j .deadlineMiss l.runShort }
      let s2 := s1.timingFault n e j .deadlineMiss
      (if late then s2.unitFailed x.target n else s2).skipSuccessors n e.val
    else s
  | _, _, _ => s

/-- The report of a finished task (R82), with the RUN_SHORT check: a task that RUN_LONG or DEADLINE_MISS has met keeps that outcome. -/
def State.complete (s : State) (x : SchedEntry) (n : BitVec 64) (e : Fin 256) (j : Nat) : State :=
  match s.seq.find n e.val j with
  | some l =>
    if (l.outcome = .running ∨ l.outcome = .runLong ∨ l.outcome = .deadlineMiss)
        ∧ (s.seq.finished.contains (n, e.val, j) || (x.target == 0x14 && s.seq.busy[4] == some (n, e.val, j))) = true then
      let inTime := decide (l.outcome = .running)
      let short := x.minRt != 0 && tLater (l.at_ + us x.minRt.toNat) s.tb.now
      let o : Launched := if inTime then .complete else l.outcome
      let q := ((s.seq.freeUnit n e.val j).put { l with outcome := o, runShort := short, doneAt := some s.tb.now }).show e j o short
      let q := if inTime && !s.missedSince n e && j == x.repeats.toNat then
          { q with regs := modAt q.regs e fun (r : EntryReg) => { r with missRun := 0 } } else q
      let s1 := ({ s with seq := q } : State).sample 0 e.val (tDiff s.tb.now l.at_ / ticksPerUs)
      if short then s1.timingFault n e j .runShort else s1
    else s
  | none => s

end Sys2Proof.Machine
end

