-- ==== Sys2Proof/Machine/Pcu.lean ====
section
/-! DEFINITION. The command of the Point Cloud Unit (spec 10_point_cloud_unit). -/

namespace Sys2Proof.Machine

open Sys2Proof

/-- The state of a headgate at the close of a frame (R253). -/
def Pau.closeState (p : Pau) (n : BitVec 64) (h : Fin 64) : HgSt :=
  match p.closeSt.find? fun e => e.1 == n with | some e => e.2[h] | none => .off

/-- The coverage source of a range sensor for a frame (R253): its latest SWEEP_END or FRAME_END with TOV before the next boundary. -/
def Pau.coverOf (p : Pau) (isDepth : Fin 64 → Bool) (s : Fin 8) (n : BitVec 64) (next : T64) : Option CoverSrc :=
  (p.rs[s]).map fun (c : RsCfg) => ⟨c.geo.hg, isDepth c.geo.hg, (p.marks[s]).find? fun (r : Rec) => tLater next r.tov, p.closeState n c.geo.hg⟩

/-- Put a unit's task in the list of those whose work is done (R82). -/
def Seq.finish (q : Seq) (x : BitVec 64 × Nat × Nat) : Seq := if q.finished.contains x then q else { q with finished := q.finished ++ [x] }

/-- PCU_TASK (R243 to R270): the task of the frame that the PCU runs. `abortAfter` is the last step that completes where RUN_LONG has aborted the
task, or C3 has stopped it (R412), at least 1 (R269); it counts for nothing otherwise. A poisoned word that step 1 reads aborts it as that step completes (R472).
DEDUCED, log entry 29. -/
def execPcuTask (abortAfter : Fin 9) (s : State) : Host.Outcome State Fault Refusal :=
  s.gate (.next (match s.seq.busy[0] with
    | none => s
    | some (n, e, j) =>
      match s.tb.frameNo n with
      | none => s
      | some f =>
        let late := s.seq.abortedAt (n, e, j)
        let stop : Nat := if s.pcu.readsPoison n s.mem then 1 else if late then max 1 abortAfter.val else 8
        let aborts := decide (stop < 8)
        let store := (if n.toNat % 2 = 0 then s.pau.handed[0] else s.pau.handed[1]).filter fun (x : Handed) => x.frame == n
        if s.seq.finished.contains (n, e, j) || (store.isNone && !(decide (stop < 2))) then s else
        let env : PcuEnv :=
          { n := n, b := f.b, next := f.next, period := s.tb.cfg.period
            points := match store with | some x => x.points | none => []
            cover := (List.finRange 8).map fun (k : Fin 8) =>
              s.pau.coverOf s.isDepth k n f.next
            last := stop }
        let r := s.pcu.task env s.mem
        { s with pcu := r.1, mem := r.2.1, ev := s.ev.raiseAll r.2.2
                 seq := if aborts then s.seq.freeUnit n e j else s.seq.finish (n, e, j) }))

end Sys2Proof.Machine
end

