-- ==== Sys2Proof/Machine/ChannelB.lean ====
section
/-! DEFINITION. The commands of Channel B and of the Weir (spec 16 R385 to R390, R394, R395). -/

namespace Sys2Proof.Machine

open Sys2Proof

/-- Islands of Channel B's seen marking, its table and its own memory (R384). -/
def cbTableIsland : Nat := 124
def cbMemIsland : Nat := 125

/-- z translation of the extrinsic set in force for a core's frame (R387). -/
def State.zOf (s : State) (k : Core) : Word :=
  match s.pau.rs[k.sensor] with
  | some c => (c.geo.inForce (s.pau.setFor k.frame).dev[k.sensor.val]!).z
  | none => 0

/-- CB_HIT_ENTRY (R386, R387): the core at the head of the input crossing. -/
def execCbHitEntry (s : State) : Host.Outcome State Fault Refusal :=
  s.gate (.next (match s.cb.input with
    | .hit k :: rest =>
      let ref : Option PoseRec := match s.pau.refFor k.frame with | some r => r | none => none
      { s with cb := ({ s.cb with input := rest } : ChannelB).hit k ref (s.zOf k) }
    | _ => s))

/-- The covered sectors of a sweep with what was kept of each (R387): a sector in which no point was written has a free T_σ. DESIGN CHOICE, log entry 51. -/
def ChannelB.coveredSectors (b : ChannelB) (k : Fin 8) (covered : BitVec 360) (tov : T64) : List SectorAcc :=
  (List.range 360).filterMap fun (σ : Nat) =>
    if covered.getLsbD σ then
      match (b.sweep[k]).find? fun (a : SectorAcc) => a.sector == σ with
      | some a => if 120 * ticksPerMs < (tDiff tov a.tov).toNat then none else some a
      | none => (Config.pointlessSector k.val tov σ).map fun (d : Nat) => ⟨σ, none, tov - tick (d % (120 * ticksPerMs + 1))⟩
    else none

/-- The pose queries of a sweep: t = T_σ, α = T_σ + LAG + 1 µs (R387). -/
def State.sectorPose (s : State) (a : SectorAcc) : Option PoseRec := s.checkedPose a.tov (a.tov + us (s.pl.cfg.lag + 1))

/-- CB_SEEN_MARKING (R387): the record at the head of the input crossing. A STATE record tells the stream's state; a SWEEP_END of a POINTS stream in ACTIVE
marks its covered sectors, once every pose answer it asks for is there; a sector whose answer carries VALID = 0 casts no ray. -/
def execCbSeenMarking (s : State) : Host.Outcome State Fault Refusal :=
  s.gate (.next (match s.cb.input with
    | .mark r k :: rest =>
      let b : ChannelB := { s.cb with input := rest }
      match r.body with
      | .state new _ _ => { s with cb := { b with streams := b.streams.set k new } }
      | .sweepEnd covered _ _ =>
        let cleared : ChannelB := { b with sweep := b.sweep.set k [] }
        match s.pau.rs[k] with
        | some c =>
          if b.streams[k] = .active && !(s.isDepth c.geo.hg) && b.installed then
            let secs := b.coveredSectors k covered r.tov
            if secs.any fun (a : SectorAcc) => (s.sectorPose a).isNone then s else
            let jobs := secs.map fun (a : SectorAcc) =>
              match s.sectorPose a with
              | some p =>
                if p.valid then
                  let e := match s.tb.frameAt a.tov with
                    | some f => c.geo.inForce (s.pau.setFor f.no).dev[k.val]!
                    | none => c.geo.ext
                  sectorRays b.cfg e p a
                else ([], 0)
              | none => ([], 0)
            let s1 := secs.foldl (fun (s : State) (a : SectorAcc) => s.countQuery a.tov (a.tov + us (s.pl.cfg.lag + 1))) s
            { s1 with cb := (jobs.flatMap (·.1)).foldl ChannelB.castRay { cleared with sat := bumpBy cleared.sat (jobs.map (·.2)).sum } }
          else { s with cb := cleared }
        | none => { s with cb := cleared }
      | _ => { s with cb := b }
    | _ => s))

/-- GRID_RECENTRE (R385): the window is centred on the cell of the live record of the latest whole millisecond; it stays where that record carries VALID = 0.
DEDUCED, log entry 122. -/
def execGridRecentre (s : State) : Host.Outcome State Fault Refusal :=
  s.gate (let live := s.pl.checked (s.pl.liveAt (ms (s.tb.now.toNat / ticksPerMs))).1
  .next (if s.enrolled && s.cb.installed && live.valid then
    { s with cb := { s.cb with grid := s.cb.grid.recentre s.cb.cfg (s.cb.cfg.index live.x.toInt) (s.cb.cfg.index live.y.toInt) } }
  else s))

/-- GRID_SCRUB (R385): the scrub's next cell. -/
def execGridScrub (s : State) : Host.Outcome State Fault Refusal :=
  s.gate (.next (if s.enrolled && s.cb.installed then
    { s with cb := { s.cb with grid := s.cb.grid.scrub s.cb.scrubAt s.tb.now, scrubAt := (s.cb.scrubAt + 1) % (s.cb.cfg.size * s.cb.cfg.size) } }
  else s))

/-- CB_ECC (R385, R473): an uncorrectable error of a grid cell, at its storage place, or elsewhere in Channel B's memory. -/
def execCbEcc (cell : Option (Nat × Nat)) (s : State) : Host.Outcome State Fault Refusal :=
  s.gate (.next (if !s.enrolled then s else
    match cell with
    | none => { s with ev := s.ev.raise (evtOpen .cbMemUe cbMemIsland 0) }
    | some (a, b) =>
      if a < s.cb.cfg.size ∧ b < s.cb.cfg.size then
        { s with cb := { s.cb with grid := { s.cb.grid with cells := gridSet s.cb.grid.cells (a * s.cb.cfg.size + b) {} }, ecc := bump s.cb.ecc }
                 ev := s.ev.raise (evtOpen .cbEcc cbMemIsland 0) }
      else s))

/-- A table in computation that is not swapped within 150 µs of its start raises CB_TABLE_LATE, once (R420). -/
def State.tableLate (s : State) : State :=
  match s.cb.building with
  | some x =>
    if s.cb.lateAt != some x.t && tLater s.tb.now (x.t + us 150) then
      { s with cb := { s.cb with lateAt := some x.t, tableLate := bump s.cb.tableLate }, ev := s.ev.raise (evtOpen .cbTableLate cbTableIsland 0) }
    else s
  | none => s

/-- TABLE_START (R389, R390, R420): at the due multiple of TABLE_PERIOD, from the live record of that instant; skipped while the table before is not swapped. -/
def execTableStart (s : State) : Host.Outcome State Fault Refusal :=
  s.gate (let t := us (s.tb.now.toNat / ticksPerUs / s.cb.cfg.tablePeriod * s.cb.cfg.tablePeriod)
  .next (if !s.enrolled || !s.cb.installed then s else
    match s.cb.building with
    | some x =>
      let s1 := s.tableLate
      if x.t = t || s1.cb.skipAt == some t then s1
      else { s1 with cb := { s1.cb with skipAt := some t, tableLate := bump s1.cb.tableLate }, ev := s1.ev.raise (evtOpen .cbTableLate cbTableIsland 0) }
    | none =>
      if s.cb.table.t = t ∧ s.cb.table.kbins ≠ 0 then s
      else
        let live := s.pl.liveAt t
        let x := s.cb.tableFrom (s.pl.checked live.1) t (s.bcc.stage != 0)
        { s with cb := { s.cb with building := some x.1, sat := bumpBy s.cb.sat x.2 }
                 pl := { s.pl with sat := bumpBy s.pl.sat live.2 } }))

/-- TABLE_SWAP (R390, R420): the completed table goes to the Guard Engine's double buffer. -/
def execTableSwap (s : State) : Host.Outcome State Fault Refusal :=
  s.gate (.next (match s.tableLate.cb.building with
    | some x => let s := s.tableLate; { s.keepCopies with cb := { s.cb with building := none, table := x, recent := (x :: s.cb.recent).take 1024, tables := bump s.cb.tables } }
    | none => s))

/-! ### The Weir -/

/-- Cistern address of the free-space summary of frame n (R393). DESIGN CHOICE, log entry 55. -/
def GuardCfg.summaryAt (c : GuardCfg) (n : BitVec 64) : Nat := c.sumBase + if n.toNat % 2 = 1 then Config.summaryOdd c.sumSize else 0

/-- The summary's header as the lists wrote it; valid for frame n where VALID is 1 and FRAME names the frame (R393, R394). DEDUCED, log entry 124. -/
def readSummary (c : GuardCfg) (kbins : Nat) (m : Memory) (n : BitVec 64) : Summary :=
  let h := m.read .cistern (c.summaryAt n) 256
  { valid := fieldOf h 0 4 == 1 && fieldOf h 4 1 == 1 && fieldOf h 32 32 == n.toNat % 2 ^ 32
    frame := BitVec.ofNat 32 (fieldOf h 32 32), bn := BitVec.ofNat 64 (fieldOf h 64 64), x := BitVec.ofNat 64 (fieldOf h 128 64)
    y := BitVec.ofNat 64 (fieldOf h 192 64), heading := BitVec.ofNat 32 (fieldOf h 256 32)
    free := (List.range kbins).map fun i => (fieldOf h (512 + 32 * i) 16, fieldOf h (528 + 32 * i) 16) }

/-- FREE[r][c] of the summary (R393). -/
def summaryBit (c : GuardCfg) (m : Memory) (n : BitVec 64) (r k : Int) : Bool :=
  if 0 ≤ r ∧ r < c.sumSize ∧ 0 ≤ k ∧ k < c.sumSize then
    let b := r.toNat * c.sumSize + k.toNat
    (m.get .cistern (c.summaryAt n + 256 + b / 8)).getLsbD (b % 8)
  else false

/-- Does a cell's centre map to a summary bit of 1 (R394). DEDUCED, log entry 124. -/
def freeByA (g : GuardCfg) (c : CbCfg) (m : Memory) (n : BitVec 64) (x : Summary) (i j : Int) : Bool :=
  let cell : Rat := (c.cell : Rat) / 100
  let dx := ((i : Rat) + 1 / 2) * cell - lVal x.x
  let dy := ((j : Rat) + 1 / 2) * cell - lVal x.y
  let cs := cosR x.heading
  let sn := sinR x.heading
  summaryBit g m n ((((cs * dx + sn * dy) / cell).floor) + g.sumSize / 2) ((((cs * dy - sn * dx) / cell).floor) + g.sumSize / 2)

/-- d_env of R394 in mm. -/
def envelopeMm (g : GuardCfg) (c : CbCfg) (live : PoseRec) : Nat :=
  let v : Rat := (live.v.toInt.natAbs : Rat) * 1000 / 65536
  (match c.speedTable.findIdx? fun (x : Nat) => decide (v ≤ (x : Rat)) with | some i => i * c.dStep | none => c.reach) + g.envExtra

/-- The cells of the forward samples of a bin with s ≤ d_env, each once (R394). DEDUCED, log entry 124. -/
def CbCfg.envelopeCells (c : CbCfg) (live : PoseRec) (bin d : Nat) : List (Int × Int) :=
  let Δ := 5 * c.cell
  let n := min (d / Δ) ((c.reach - 1) / Δ) + 1
  ((List.range n).flatMap fun k => ((c.segmentCells live bin true (k * Δ)).run 0).1).foldl
    (fun (l : List (Int × Int)) (x : Int × Int) => if l.contains x then l else x :: l) []

/-- The verdict of frame n with its data (R394). DESIGN CHOICE, log entry 56. DEDUCED, log entry 124. -/
def State.weirVerdict (s : State) (n : BitVec 64) (tw : T64) (x : Summary) : Verdict × Nat :=
  let g := s.guard.cfg
  let c := s.cb.cfg
  let live := s.pl.checked s.pl.live
  if !x.valid then (.noSummary, 0)
  else if !live.valid || s.cb.table.kbins == 0 then Config.weirOpen n
  else
    let bin := s.guard.bin
    let cells := c.envelopeCells live bin (envelopeMm g c live)
    let conflict := (cells.filter fun (p : Int × Int) => s.cb.grid.state c tw p.1 p.2 != .free && freeByA g c s.mem n x p.1 p.2).length
    if g.cellMin ≤ conflict then (.conflict, conflict)
    else
      let da := ((x.free.getD bin (0, 0)).1 : Rat) - movedMm live x.x x.y
      let db := ((s.cb.table.entries.getD bin (0, 0)).1 : Rat) - movedMm live s.cb.table.x s.cb.table.y
      if da < (c.reach : Rat) ∧ db < (c.reach : Rat) ∧ (g.margin : Rat) < absRat (da - db) then (.mismatch, (absRat (da - db)).floor.toNat)
      else (.agree, 0)

/-- WEIR_TASK (R394, R395): the task of the frame that the Weir runs; its start instant is its launch. A late task gave its NO_SUMMARY already. DEDUCED, log entry 124. -/
def execWeirTask (s : State) : Host.Outcome State Fault Refusal :=
  s.gate (.next (match s.seq.busy[3] with
    | none => s
    | some (n, e, j) =>
      if s.seq.finished.contains (n, e, j) then s else
      let done : State := { s with seq := s.seq.finish (n, e, j) }
      match s.seq.find n e j with
      | some l =>
        if l.outcome = .running then
          let x := readSummary s.guard.cfg s.cb.cfg.kbins s.mem n
          let v := s.weirVerdict n l.at_ x
          ({ done.keepCopies with weir := { done.weir with summary := x } } : State).giveVerdict v.1 n v.2
        else done
      | none => done))

end Sys2Proof.Machine
end

