-- ==== Sys2Proof/Machine/SluiceCmds.lean ====
section
/-! DEFINITION. The commands of the event arbiter (spec 03 R72 to R78, spec 22 R508). -/

namespace Sys2Proof.Machine

open Sys2Proof

/-- Is sequence number a later than b (R72). -/
def seqLater (a b : BitVec 48) : Bool := decide (0 < (a - b).toInt)

/-- IRQ_N is low (R78). -/
def Sluice.irqLow (q : Sluice) : Bool := match q.irqSeq with | some x => seqLater x q.ack | none => false

/-- The island whose event is taken (R75): round robin after the island taken last, or the lowest in Replay mode. -/
def Sluice.pick (q : Sluice) (replay : Bool) : Option (Fin 144) :=
  let has (i : Fin 144) : Bool := !q.intake[i].isEmpty
  if replay then (List.finRange 144).find? has
  else ((List.finRange 144).map fun (i : Fin 144) => (⟨(q.lastIsland + 1 + i.val) % 144, Nat.mod_lt _ (by decide)⟩ : Fin 144)).find? has

/-- How many islands present an event. -/
def Sluice.presenting (q : Sluice) : Nat := ((List.finRange 144).filter fun i => !q.intake[i].isEmpty).length

/-- Number an event and deliver it to the event ring, the supervisors, IRQ_N and the first-fault records (R72, R74, R77, R516). DESIGN CHOICE, log entries 22, 62. -/
def Sluice.number (q : Sluice) (e : Ev) (now : T64) : Sluice :=
  let r : EvRecord := ⟨q.next, e.island, e.kind, e.cls, e.inst, e.data, now⟩
  { q with
    next := q.next + 1, lastIsland := e.island, ringWr := bump q.ringWr, ring := (r :: q.ring).take 4096
    ssaBuf := r :: q.ssaBuf, ssbBuf := r :: q.ssbBuf
    irqSeq := if q.cfg.irqMask.getLsbD (Config.eventCode e.kind).toNat then some r.seq else q.irqSeq
    firstC2 := if q.firstC2.isNone && e.cls == .c2 then some r else q.firstC2
    firstC3 := if q.firstC3.isNone && e.cls == .c3 then some r else q.firstC3
    lastC1 := if e.cls = .c1 then some now else q.lastC1, lastC0 := if e.cls = .c0 then some now else q.lastC0 }

/-- Take the front event of an island. -/
def Sluice.take (q : Sluice) (i : Fin 144) (now : T64) : Sluice :=
  match q.intake[i] with
  | [] => q
  | e :: rest => ({ q with intake := q.intake.set i rest } : Sluice).number e now

/-- The MSI-X message of a falling edge of IRQ_N (R464), where the host has enabled MSI-X; while its vector is masked it stays pending. PRESUMED, log
entry 18. -/
def Observation.irq (o : Observation) (before after : Bool) (now : T64) : Observation :=
  if !before && after && Config.msixEnabled now then
    if o.msix[3].getLsbD 0 then { o with msixPending := true } else { o with msixSent := some (o.msix[1] ++ o.msix[0], o.msix[2]) }
  else o

/-- The supervisors' buffers have room for an event (R77): neither ever loses one. A lost supervisor takes none (R423). -/
def State.supervisorsTake (s : State) : Bool :=
  (s.safety.sup[0].lost || decide (s.ev.ssaBuf.length < 256)) && (s.safety.sup[1].lost || decide (s.ev.ssbBuf.length < 256))

/-- SLUICE_INTAKE (R75, R77): one event is taken once the supervisors' buffers have room; a tie is counted, and charged to the frame in
normal mode (R83). DEDUCED, log entry 141. -/
def execSluiceIntake (s : State) : Host.Outcome State Fault Refusal :=
  s.gate (.next (if s.enrolled && s.supervisorsTake then
    match s.ev.pick s.replaying with
    | none => s
    | some i =>
      let tie := decide (1 < s.ev.presenting)
      let q := s.ev.take i s.tb.now
      { s with
        ev := { q with ties := bumpIf tie q.ties, ssaBuf := if s.safety.sup[0].lost then [] else q.ssaBuf
                       ssbBuf := if s.safety.sup[1].lost then [] else q.ssbBuf }
        seq := if tie && !s.replaying then
            s.seq.charge (match s.tb.frameAt s.tb.now with | some f => f.no | none => 0) fun (x : Ndc) => { x with tie := x.tie + 1 }
          else s.seq
        obp := s.obp.irq s.ev.irqLow q.irqLow s.tb.now }
  else s))

/-- EVENTS_LOST (R75): with space in the FIFO, the count of what was not queued is queued. -/
def execEventsLost (island : Fin 144) (s : State) : Host.Outcome State Fault Refusal :=
  s.gate (.next (if s.ev.lost[island] ≠ 0 ∧ s.ev.intake[island].length < 16 then
    { s with ev := ({ s.ev with lost := s.ev.lost.set island 0 } : Sluice).raise (evt .eventsLost island.val 0 s.ev.lost[island]) }
  else s))

/-- SLUICE_IRQ_ACK_LOW_WRITE (R508): stages the low word. -/
def execSluiceIrqAckLowWrite (value : Word) (s : State) : Host.Outcome State Fault Refusal :=
  .next { s with ev := { s.ev with ackLow := value } }

/-- SLUICE_IRQ_ACK_HIGH_WRITE (R508, R78): sets the whole field. -/
def execSluiceIrqAckHighWrite (value : Word) (s : State) : Host.Outcome State Fault Refusal :=
  let q : Sluice := { s.ev with ack := value.setWidth 16 ++ s.ev.ackLow }
  .next { s with ev := q, obp := s.obp.irq s.ev.irqLow q.irqLow s.tb.now }

end Sys2Proof.Machine
end

