-- ==== Sys2Proof/Machine/Grotto.lean ====
section
/-! DEFINITION. The commands of the Grotto (spec 21 R485 to R495). -/

namespace Sys2Proof.Machine

open Sys2Proof

/-- The largest i from 1 to 63 with lo × 2^(i−1) ≤ v (R488). -/
def log2Bin (lo v : Int) : Nat → Nat
  | 0 => 1
  | i + 1 => if lo * 2 ^ i ≤ v then i + 1 else log2Bin lo v i

/-- The bin of a sample (R488). -/
def MonCfg.bin (c : MonCfg) (v : Int) : Fin 64 :=
  let i : Nat := if v < c.lo then 0 else if c.log2 then min 63 (max 1 (log2Bin c.lo v 63)) else min 63 (1 + ((v - c.lo) / (c.width : Int)).toNat)
  ⟨i % 64, Nat.mod_lt _ (by decide)⟩

/-- A monitor is full (R491). -/
def Monitor.isFull (x : Monitor) (c : MonCfg) : Bool := decide (c.maxSamples ≤ x.samples.toNat)

/-- Record one sample (R489). -/
def Monitor.record (x : Monitor) (c : MonCfg) (v : Int) (seq : BitVec 48) (now : T64) : Monitor :=
  let w := BitVec.ofInt 32 v
  let lower := decide (v < x.min.toInt)
  let higher := decide (x.max.toInt < v)
  { x with
    samples := x.samples + 1, firstToo := if x.samples = 0 then now else x.firstToo, lastToo := now
    min := if lower then w else x.min, minSeq := if lower then seq else x.minSeq, minToo := if lower then now else x.minToo
    max := if higher then w else x.max, maxSeq := if higher then seq else x.maxSeq, maxToo := if higher then now else x.maxToo
    sum := BitVec.ofInt 64 (satInt 64 (x.sum.toInt + v))
    bins := modAt x.bins (c.bin v) fun (n : Word) => n + 1 }

/-- One sample at one monitor (R488 to R491, R494): counted in DROPPED while the Grotto is frozen or the monitor full. -/
def Monitor.take (x : Monitor) (c : MonCfg) (e : Sample) (frozen : Bool) (seq : BitVec 48) (now : T64) : Monitor :=
  if !c.takes e then x
  else if frozen || x.isFull c then { x with dropped := bump x.dropped }
  else x.record c e.value seq now

/-- Recording stands still: a freeze is in force, 100 ms of device time at most (R494, R495). -/
def Grotto.frozen (g : Grotto) (now : T64) : Bool := match g.freeze with | some t => !(elapsed now t (100 * ticksPerMs)) | none => false

/-- GROTTO_SAMPLE (R488 to R491): the oldest sample that has not reached the Grotto. DESIGN CHOICE, log entry 17. -/
def execGrottoSample (s : State) : Host.Outcome State Fault Refusal :=
  s.gate (.next (match s.grt.samples with
    | [] => s
    | e :: rest =>
      let g := s.grt
      { s with grt := { g with
        samples := rest
        mon := Vector.ofFn fun (i : Fin 64) => g.mon[i].take g.cfg[i] e (g.frozen s.tb.now) s.ev.current s.tb.now } }))

/-- GRT_CTRL_FREEZE_WRITE (R494, R495): a 1 stops recording and clears EXPIRED; a freeze in force goes on
from its own start, or starts again where it has expired (R502). DEDUCED, log entry 134. -/
def execGrtCtrlFreezeWrite (value : Word) (s : State) : Host.Outcome State Fault Refusal :=
  let g := s.grt
  .next { s with grt :=
    if value.getLsbD 0 then { g with freeze := (if g.frozen s.tb.now then g.freeze else some s.tb.now), expired := false }
    else { g with freeze := none } }

/-- FREEZE_EXPIRY (R495): 100 ms of device time after its start the Grotto ends a freeze. DEDUCED, log entry 134. -/
def execFreezeExpiry (s : State) : Host.Outcome State Fault Refusal :=
  s.gate (.next (match s.grt.freeze with
    | some t => if elapsed s.tb.now t (100 * ticksPerMs) then { s with grt := { s.grt with freeze := none, expired := true } } else s
    | none => s))

/-- GRT_CURSOR_WRITE (R493). -/
def execGrtCursorWrite (value : Word) (s : State) : Host.Outcome State Fault Refusal :=
  .next { s with grt := { s.grt with cursor := ⟨value.toNat % 64, Nat.mod_lt _ (by decide)⟩ } }

/-- The monitor entry of R492. -/
def Monitor.bytes (x : Monitor) (c : MonCfg) (m : Nat) : Bytes :=
  packBytes 16 [(4, 1), (6, m), (1, c.en.toNat), (1, (c.en && x.isFull c).toNat), (1, c.log2.toNat), (3, 0), (8, c.source), (8, 0),
    (16, c.inst.getD 0xFFFF), (16, 0), (32, codeInt 32 c.lo), (32, c.width)]
  ++ packBytes 16 [(32, x.samples.toNat), (32, x.dropped.toNat), (32, c.maxSamples), (32, 0)]
  ++ packBytes 32 [(64, x.firstToo.toNat), (64, x.lastToo.toNat)]
  ++ packBytes 64 [(32, x.min.toNat), (32, x.max.toNat), (48, x.minSeq.toNat), (16, 0), (48, x.maxSeq.toNat), (16, 0), (64, x.minToo.toNat), (64, x.maxToo.toNat),
    (64, x.sum.toNat)]
  ++ x.bins.toList.flatMap fun (n : Word) => leBytes 4 n.toNat

end Sys2Proof.Machine
end

