-- ==== Sys2Proof/Machine/OutOps.lean ====
section
/-! DEFINITION. Output messages: the frame digest (spec 03 R93), the output header, rings and transmit queues (spec 19 R445 to R455, R466) and the bodies of a frame's messages (R449, R340). -/

namespace Sys2Proof.Machine

open Sys2Proof

/-- Role code (R446). -/
def Role.code : Role → Nat | .none => 0 | .primary => 1 | .secondary => 2

/-! ### The frame digest (R93) -/

/-- A stream was MASKED for the whole of a frame. -/
def Headgate.maskedThrough (g : Headgate) (b next : T64) : Bool :=
  (match g.maskLog.find? fun (x : T64 × Bool) => tReached b x.1 with | some x => x.2 | none => false)
    && !(g.maskLog.any fun (x : T64 × Bool) => tLater x.1 b && tLater next x.1)

/-- A headgate's part: 32 zero bytes where it is unused or masked throughout, else the SHA-256 of its records of the frame. -/
def Headgate.digestPart (g : Headgate) (f : Frame) : Bytes :=
  if g.cfg.isNone || g.maskedThrough f.b f.next then List.replicate 32 0
  else sha256 (match g.logs.find? fun (l : FlumeLog) => l.frame == f.no with | some l => l.bytes | none => [])

/-- SLOT fields of the lists of a chain. -/
def chainSlots (m : Memory) : Nat → Nat → List Nat
  | 0, _ => []
  | fuel + 1, a =>
    if a = 0xFFFFFFFF then [] else
    let h := ListHeader.ofBytes (m.read .cistern a 64)
    h.slot :: chainSlots m fuel h.next.toNat

/-- Model slots that the command lists of frame n name, ascending: the lists of every entry of the frame's schedule table with a TE target. -/
def State.namedSlots (s : State) (n : BitVec 64) : List Nat :=
  let l := (s.seq.tableOf n).flatMap fun (x : SchedEntry) => if x.target.toNat < 16 then chainSlots s.mem 256 x.list.toNat else []
  (List.range 64).filter fun k => l.contains k

/-- Weight-slot digest of a slot. -/
def State.slotDigest (s : State) (k : Nat) : Bytes :=
  if h : k < 64 then (match s.tes.slots[k] with | some x => x.digest | none => List.replicate 32 0) else List.replicate 32 0

/-- The frame digest of an opened frame. -/
def State.digestOf (s : State) (f : Frame) : Bytes :=
  let named := s.namedSlots f.no
  (sha256 (leBytes 8 f.no.toNat ++ leBytes 8 f.b.toNat ++ s.bcc.imageDigest ++ leBytes 2 named.length
    ++ (named.flatMap fun k => leBytes 2 k ++ s.slotDigest k)
    ++ s.hgs.toList.flatMap fun (g : Headgate) => g.digestPart f)).take 16

/-- The frame digest that results of frame n carry: the one already published, or the one now due. -/
def State.frameDigest (s : State) (n : BitVec 64) : Bytes :=
  match s.out.digests.find? fun (d : BitVec 64 × Bytes) => d.1 == n with
  | some d => d.2
  | none => match s.tb.frameNo n with | some f => s.digestOf f | none => List.replicate 16 0

/-- Keep the digest of a frame, so that every result of the frame carries the same one. -/
def State.keepDigest (s : State) (n : BitVec 64) : State :=
  if s.out.digests.any fun (d : BitVec 64 × Bytes) => d.1 == n then s
  else { s with out := { s.out with digests := ((n, s.frameDigest n) :: s.out.digests).take 8 } }

/-! ### Messages -/

/-- The 96-byte output header (R446). -/
def OutMsg.header (m : OutMsg) (frag frags : Nat) (last : Bool) : Bytes :=
  packBytes 48 [(4, 1), (4, m.stream.val), (1, m.valid.toNat), (2, m.stage.toNat), (3, m.cls.toNat), (4, m.pair.toNat), (2, m.role.toNat),
    (1, m.twinId.toNat), (1, last.toNat), (1, m.assembled.toNat), (9, 0), (32, m.seq.toNat), (16, frag), (16, frags), (32, m.frame.toNat),
    (64, m.bn.toNat), (32, m.body.length), (32, m.aoc.toNat), (64, m.tov.toNat), (64, m.too.toNat)]
  ++ padTo 16 m.map ++ padTo 16 m.digest ++ List.replicate 16 0

/-- Write bytes into a ring at its write count, modulo its size; bytes that the message itself overwrites are lost (R466). -/
def Ring.put (r : Ring) (size : Nat) (bs : Bytes) : Ring :=
  if size = 0 then r else
  let skip := bs.length - size
  let off := (r.wr.toNat + skip) % size
  let data := bs.drop skip
  let first := min data.length (size - off)
  { cells := cellsPut (cellsPut r.cells off (data.take first)) 0 (data.drop first), wr := r.wr + BitVec.ofNat 32 bs.length }

/-- A message as its ring holds it (R466). -/
def OutMsg.ringBytes (m : OutMsg) : Bytes :=
  m.header 0 1 true ++ m.body ++ List.replicate ((64 - m.body.length % 64) % 64) 0

/-- The fragments of a message (R454): sizes in the queue, and R-TAG numbers where the message goes out on both ports. DESIGN CHOICE, log entry 50. -/
def OutMsg.fragments (m : OutMsg) (fragBytes : Nat) (tag : Option (BitVec 16)) : List Fragment :=
  let n := max 1 ((m.body.length + fragBytes - 1) / fragBytes)
  (List.range n).map fun i =>
    { msg := m, frag := i, frags := n, rTag := tag.map fun (t : BitVec 16) => t + BitVec.ofNat 16 i
      size := 96 + min fragBytes (m.body.length - i * fragBytes) + Config.queueOverhead m.stream.val }

/-- The bytes of a fragment's datagram (R454). DESIGN CHOICE, log entry 135. -/
def Fragment.bytes (f : Fragment) (fragBytes : Nat) : Bytes :=
  f.msg.header f.frag f.frags (f.frag + 1 == f.frags) ++ slice f.msg.body (f.frag * fragBytes) fragBytes

/-- Bytes that a queue holds. -/
def queueBytes (q : List Fragment) : Nat := q.foldl (fun (a : Nat) (f : Fragment) => a + f.size) 0

/-- Vehicle port p is up: its Ethernet port 6 + p has link. -/
def State.vehicleLink (s : State) (p : Fin 2) : Bool := s.ports.eth[6 + p.val].link

/-- Queue a message's copy on one vehicle port (R455). -/
def State.queueCopy (s : State) (p : Fin 2) (q : Fin 8) (fs : List Fragment) : State :=
  let o := s.out.port[p]
  if !s.vehicleLink p then { s with out := { s.out with port := s.out.port.set p { o with linkDownDrop := bump o.linkDownDrop } } }
  else if s.out.cfg.qBytes[q] < queueBytes o.queues[q] + queueBytes fs then
    { s with out := { s.out with port := s.out.port.set p { o with txDrop := bump o.txDrop } }
             ev := s.ev.raise (evtOpen .outTxDrop (14 + p.val) p.val) }
  else { s with out := { s.out with port := s.out.port.set p { o with queues := o.queues.set q (o.queues[q] ++ fs) } } }

/-- What a message states beside the fields every message takes from the state. -/
structure Emission where
  valid : Bool
  assembled : Bool := false
  frame : Word
  bn : T64
  basis : T64
  tov : T64
  digest : Bytes
  body : Bytes
deriving DecidableEq, Repr

/-- AOC in µs, rounded down, saturating (R451). -/
def aocUs (too basis : T64) : Word := BitVec.ofNat 32 (min (tDiff too basis / ticksPerUs).toNat (2 ^ 32 - 1))

/-- The message of a stream at this instant. -/
def State.message (s : State) (k : Fin 6) (e : Emission) : OutMsg :=
  { stream := k, valid := e.valid && !s.c3, stage := s.bcc.stage, cls := s.reported, pair := s.pairCode
    role := BitVec.ofNat 2 s.qnt.role.code, twinId := s.twinId, assembled := e.assembled, seq := s.out.seq[k], frame := e.frame, bn := e.bn
    aoc := aocUs s.tb.now e.basis, tov := e.tov, too := s.tb.now, map := s.tb.map.bytes, digest := e.digest, body := e.body }

/-- Emit a message (R445 to R455, R466): its ring, and outside Replay mode its transmit queues. -/
def State.emit (s : State) (k : Fin 6) (e : Emission) : State :=
  let c := s.out.cfg.stream[k]
  if !s.out.installed || !c.en then s else
  let m := s.message k e
  let both := c.p6 && c.p7
  let fs := m.fragments s.out.cfg.fragBytes (if both then some s.out.cb[k] else none)
  let s1 : State := { s with out := { s.out with
    seq := modAt s.out.seq k fun (n : Word) => n + 1
    cb := if s.replaying then s.out.cb else modAt s.out.cb k fun (n : BitVec 16) => n + BitVec.ofNat 16 fs.length
    ring := modAt s.out.ring k fun (r : Ring) => r.put c.ringBytes m.ringBytes
    last := s.out.last.set k (some m) } }
  if s.replaying then s1 else
  let s2 := if c.p6 then s1.queueCopy 0 c.queue fs else s1
  if c.p7 then s2.queueCopy 1 c.queue fs else s2

/-! ### Bodies -/

/-- The reference pose record that the outputs of a frame carry (R219, R222). DESIGN CHOICE, log entry 48. -/
def State.refRecord (s : State) (n : BitVec 64) : PoseRec :=
  match s.pau.refFor n with
  | some (some r) => r
  | _ => { Config.noRefPose n with valid := false }

/-- The four counts and their sum (R84); they read 0 in Replay mode. -/
def State.ndcBytes (s : State) (n : BitVec 64) : Bytes :=
  let d : Ndc := if s.replaying then {} else s.seq.ndcOf n
  let c (v : Nat) : Nat × Nat := (16, min v 65535)
  packBytes 12 [(32, min d.total (2 ^ 32 - 1)), c d.late, c d.overrun, c d.tie, c d.order]

/-- The FRAME body (R449); unassembled it holds FRAME_NO, EXT_SEQ, REF_POSE and the non-determinism fields only (R447). DEDUCED, log entry 131. -/
def State.frameBody (s : State) (n : BitVec 64) (assembled : Bool) (tracks paths points : Nat) : Bytes :=
  let set := s.pau.setFor n
  let head := leBytes 8 n.toNat ++ leBytes 4 set.seq.toNat ++ leBytes 2 tracks ++ leBytes 2 paths ++ leBytes 4 points ++ s.ndcBytes n
    ++ (s.refRecord n).bytes
  if !assembled then head ++ List.replicate (1456 - head.length) 0 else
  let (done, cover) := match s.pcu.sectionFor n with
    | some x => (let p := x.cfg.doneRec.at_ n; s.mem.read p.space p.addr 64, let p := x.cfg.cover.at_ n; s.mem.read p.space p.addr 512)
    | none => (List.replicate 64 0, List.replicate 512 0)
  let present (i : Fin 24) : Bool := (s.pau.geometry i).isSome
  head ++ done ++ cover ++ ((List.finRange 24).flatMap fun (i : Fin 24) => if present i then s.pau.alignRecord i set else List.replicate 32 0)
    ++ packBytes 16 ((List.finRange 24).map fun (i : Fin 24) => (1, (present i).toNat))

/-- One step of a path record (R340). -/
def pathStep (x y a b : Word) : Bytes :=
  leBytes 4 (f32ToQ x).toNat ++ leBytes 4 (f32ToQ y).toNat ++ leBytes 2 (f32ToMm a) ++ leBytes 2 (f32ToMm b)

/-- The path record of row t of bucket j (R340); the flag tells a row that is not valid. DESIGN CHOICE, log entry 49. -/
def State.pathRecord (s : State) (n : BitVec 64) (j t : Nat) (id : Nat) : Bytes × Bool :=
  let base := Config.pathBase j (n.toNat % 2 == 1) + 192 * t
  let w (i k : Nat) : Word := BitVec.ofNat 32 (s.mem.readNat .cistern (base + 16 * i + 4 * k) 4)
  let ok := (List.range 12).all fun i => (List.range 4).all fun k => f32IsFin (w i k) && (k < 2 || !f32Lt (w i k) 0)
  (packBytes 16 [(4, 1), (1, ok.toNat), (11, 0), (16, id), (32, n.toNat % 2 ^ 32), (32, (t32 s.trk.tov).toNat), (16, s.kv.stepMs), (16, j)]
    ++ (List.range 12).flatMap fun i => pathStep (w i 0) (w i 1) (w i 2) (w i 3), ok)

/-- The path records of frame n with their TRACK_IDs, in ascending bucket and row (R333, R340). -/
def State.pathRecords (s : State) (n : BitVec 64) : List (Nat × Bytes × Bool) :=
  let cap := s.trk.cfg.capacity
  let ops := s.kv.opsBase + if n.toNat % 2 = 1 then opsBytes cap else 0
  (List.range 7).flatMap fun j =>
    (List.range (min cap (s.mem.readNat .cistern (ops + 4 * j) 4))).map fun t =>
      let id := s.mem.readNat .cistern (ops + 64 + 40 * cap * j + 4 * cap + 4 * t) 4
      (id, s.pathRecord n j t id)

/-- The Tracker task of frame n has completed (R82): a launch of target 0x11 of the frame was reported as finished. -/
def State.trackerDone (s : State) (n : BitVec 64) : Bool :=
  s.seq.launches.any fun l => l.frame == n && l.doneAt.isSome && (match (s.seq.tableOf n)[l.entry]? with | some x => x.target == 0x11 | none => false)

/-- The tracks of frame n are published: they are the Tracker's own and its task completed (R355). -/
def State.tracksOf (s : State) (n : BitVec 64) : Bool := s.trk.frame == some n && s.trackerDone n

/-- N of the frame set of frame n, as its completion record holds it (R270). -/
def State.pointCount (s : State) (n : BitVec 64) : Nat :=
  match s.pcu.sectionFor n with
  | some x =>
    let p := x.cfg.doneRec.at_ n
    let r := s.mem.read p.space p.addr 64
    if fieldOf r 32 64 = n.toNat ∧ fieldOf r 4 1 = 1 then fieldOf r 192 32 else 0
  | none => 0

/-- The POINTS body: the records with frame index ≡ 0 modulo POINTS_STRIDE (R456). -/
def State.pointsBody (s : State) (n : BitVec 64) : Bytes :=
  match s.pcu.sectionFor n with
  | some x =>
    let p := x.cfg.ptRec.at_ n
    let st := max 1 s.out.cfg.pointsStride
    (List.range ((s.pointCount n + st - 1) / st)).flatMap fun i => s.mem.read p.space (p.addr + 64 * (i * st)) 64
  | none => []

end Sys2Proof.Machine
end

