-- ==== Sys2Proof/Machine/GuardOps.lean ====
section
/-! DEFINITION. The guard word: its bytes, the Guard Engine's inputs and what it computes from them (spec 16 R396 to R402). -/

namespace Sys2Proof.Machine

open Sys2Proof

/-- Islands of the Guard Engine and of its port (R68). -/
def guardIsland : Nat := 126
def guardPortIsland : Nat := 127

/-- LIMIT's code (R400). -/
def Limit.code : Limit → Nat
  | .table => 0 | .summary => 1 | .cap => 2 | .degradedCap => 3 | .noPose => 4 | .noTable => 5 | .invalid => 6

/-- The limit a code below 6 names. -/
def Limit.ofCode : Nat → Limit
  | 0 => .table | 1 => .summary | 2 => .cap | 3 => .degradedCap | 4 => .noPose | 5 => .noTable | _ => .invalid

/-- Bytes of a guard word (R400). -/
def GuardWord.bytes (w : GuardWord) : Bytes :=
  packBytes 32 [(4, 1), (1, w.valid.toNat), (1, w.crossChecked.toNat), (2, w.stage.toNat), (3, w.cls.toNat), (4, w.pair.toNat), (3, w.limit.code),
    (1, w.cmdUsed.toNat), (1, w.aUsed.toNat), (1, w.hold.toNat), (3, 0), (4, w.k.toNat % 10), (4, 0), (32, w.k.toNat % 2 ^ 32),
    (16, w.vFwd.toNat), (16, w.vRev.toNat), (16, w.kappaLo.toNat), (16, w.kappaHi.toNat), (16, w.aoc.toNat), (16, w.heading.toNat),
    (32, w.x.toNat), (32, w.y.toNat), (32, w.aux.toNat)]
  ++ padTo 16 w.map ++ padTo 16 w.digest ++ leBytes 4 (w.k.toNat / 2 ^ 32) ++ List.replicate 12 0

/-- The core: bytes 0 to 31 (R400). -/
def GuardWord.core (w : GuardWord) : Bytes := w.bytes.take 32

/-- What the Guard Engine takes at a latch (R396): inputs that are unusable are none. -/
structure GuardIn where
  g : T64
  live : Option PoseRec
  table : Option StopTable
  summary : Option Summary
  cmd : Option MotionCmd
deriving DecidableEq, Repr

/-- The inputs at Gₖ with what makes each unusable (R395, R396, R411). -/
def State.guardIn (s : State) (g : T64) : GuardIn :=
  let t := s.cb.table
  let x := s.weir.summary
  let c := s.qsa.cmd
  let fits := s.weir.verdict == some .agree || s.weir.verdict == some .mismatch
  { g := g
    live := if s.pl.live.valid then some s.pl.live else none
    table := if t.valid && tReached t.t (g - us (2 * s.cb.cfg.tablePeriod)) then some t else none
    summary :=
      if x.valid && fits && !s.weir.hold && decide (2 ≤ s.bcc.stage.toNat) && !s.c2
        && decide (tDiff g x.bn ≤ (s.guard.cfg.aMaxAge * ticksPerMs : Nat)) then some x else none
    cmd := if s.qsa.written && c.valid && !s.c2 && decide (tDiff g c.tov ≤ (s.guard.cfg.cmdMaxAge * ticksPerMs : Nat)) then some c else none }

/-- OMEGA / V of a pose record, 0 below 0.05 m/s (R394, R396). -/
def PoseRec.curvature (p : PoseRec) : Rat := if (1 : Rat) / 20 ≤ absRat (qVal p.v) then qVal p.omega / qVal p.v else 0

/-- The bin c of R398; without a pose the bin of the word before. -/
def State.guardBin (s : State) (i : GuardIn) : Nat :=
  let poseBin := match i.live with | some p => s.cb.cfg.bin p.curvature | none => s.guard.bin
  match i.cmd with
  | some c =>
    -- CURV is Q15.16 (R379)
    s.cb.cfg.bin (qVal (c.steps.getD 0 (0, 0)).2)
  | none => poseBin

/-- spd of a record's free distances, less what the vehicle has moved since (R398). -/
def freeSpeeds (c : CbCfg) (n : Nat) (l : List (Nat × Nat)) (moved : Rat) : List (Nat × Nat) :=
  (List.range n).map fun (i : Nat) => let d := l.getD i (0, 0); (c.spd ((d.1 : Rat) - moved), c.spd ((d.2 : Rat) - moved))

/-- The bounds lo and hi around bin c (R398). -/
def spreadBins (vf : List Nat) (kwidth kbins c : Nat) : Nat → Nat × Nat → Nat × Nat
  | 0, b => b
  | fuel + 1, (lo, hi) =>
    let lo' := if c - lo < kwidth ∧ 0 < lo ∧ vf.getD c 0 ≤ vf.getD (lo - 1) 0 then lo - 1 else lo
    let hi' := if hi - c < kwidth ∧ hi < kbins - 1 ∧ vf.getD c 0 ≤ vf.getD (hi + 1) 0 then hi + 1 else hi
    if lo' = lo ∧ hi' = hi then (lo, hi) else spreadBins vf kwidth kbins c fuel (lo', hi')

/-- A KAPPA field: 2⁻¹¹ 1/m, rounded up for KAPPA_LO and down for KAPPA_HI (R398), held to S16. -/
def kappaUp (k : Rat) : BitVec 16 := BitVec.ofInt 16 (satInt 16 (k * 2048).ceil)
def kappaDown (k : Rat) : BitVec 16 := BitVec.ofInt 16 (satInt 16 (k * 2048).floor)

/-- The cap on V_FWD and V_REV of the stage (R397). -/
def State.stageCap (s : State) : Nat :=
  let g := s.guard.cfg
  if s.bcc.stage = 1 then min g.vCap s.safety.cfg.reducedCap else if s.bcc.stage = 2 then min g.vCap g.s2Cap else g.vCap

/-- DEGRADED_CAP applies (R397): in C2, and in S2 and S3 whenever the summary is not used. -/
def State.degradedCapOn (s : State) (i : GuardIn) : Bool := s.c2 || (decide (2 ≤ s.bcc.stage.toNat) && i.summary.isNone)

/-- The least bound and its code; the higher code wins a tie (R398). -/
def leastBound : List (Nat × Nat) → Nat × Nat
  | [] => (0, 0)
  | x :: r => r.foldl (fun (a b : Nat × Nat) => if b.1 < a.1 ∨ (b.1 = a.1 ∧ a.2 < b.2) then b else a) x

/-- The earliest basis time of a word (R400); a used command without a feed frame gives none. DESIGN CHOICE, log entry 52. -/
def State.guardBasis (s : State) (i : GuardIn) : T64 :=
  let bases : List T64 :=
    (if s.cb.table.kbins = 0 then [] else [s.cb.table.t - ms s.cb.cfg.seenAge])
      ++ (match i.summary with | some x => [x.bn] | none => [])
      ++ (match i.cmd with | some c => (match c.feedB with | some b => [b] | none => []) | none => [])
  match bases with
  | b :: r => r.foldl (fun (a x : T64) => if tLater a x then x else a) b
  | [] => Config.noBasis i.g

/-- AOC in units of 10 µs, rounded down, saturating (R400). -/
def guardAoc (g basis : T64) : BitVec 16 := BitVec.ofNat 16 (min 65535 (tDiff g basis / (10 * ticksPerUs : Nat)).toNat)

/-- The opened frame whose number ends in the 32 bits given. -/
def State.frameOf32 (s : State) (n : Word) : Option (BitVec 64) :=
  match s.tb.frame with
  | none => none
  | some f => ((f :: s.tb.past).find? fun (x : Frame) => x.no.setWidth 32 == n).map fun (x : Frame) => x.no

/-- DIGEST (R400) and the frame it belongs to. -/
def State.guardDigest (s : State) (i : GuardIn) : Bytes × Option (BitVec 64) :=
  match i.summary with
  | some x => match s.frameOf32 x.frame with | some n => (s.frameDigest n, some n) | none => (List.replicate 16 0, none)
  | none => match i.cmd with
    | some c => (c.digest, s.frameOf32 c.frame)
    | none => (List.replicate 16 0, none)

/-- The speed bounds, the curvature bounds and LIMIT of word k from its inputs (R396 to R398); the bin chosen comes first. DEDUCED, log entry 125. -/
def State.guardBounds (s : State) (i : GuardIn) (w : GuardWord) : Nat × GuardWord :=
  let c := s.cb.cfg
  let bin := s.guardBin i
  let zero : List (Nat × Nat) := List.replicate c.kbins (0, 0)
  let tab := match i.live, i.table with
    | some p, some t => freeSpeeds c c.kbins t.entries (movedMm p t.x t.y)
    | _, _ => zero
  let sum := match i.live, i.summary with
    | some p, some x => some (freeSpeeds c c.kbins x.free (movedMm p x.x x.y))
    | _, _ => none
  let both : List (Nat × Nat) := match sum with
    | some l => List.zipWith (fun (a b : Nat × Nat) => (min a.1 b.1, min a.2 b.2)) tab l
    | none => tab
  let vf := both.map (·.1)
  let span := spreadBins vf s.guard.cfg.kWidth c.kbins bin (2 * s.guard.cfg.kWidth + 1) (bin, bin)
  let cap := s.stageCap
  let deg := s.degradedCapOn i
  let capAll := if deg then min cap s.safety.cfg.degradedCap else cap
  let fwd := leastBound ([((tab.getD bin (0, 0)).1, 0)]
    ++ (match sum with | some l => [((l.getD bin (0, 0)).1, 1)] | none => [])
    ++ [(cap, 2)] ++ (if deg then [(s.safety.cfg.degradedCap, 3)] else [])
    ++ (if i.live.isNone then [(0, 4)] else []) ++ (if i.table.isNone then [(0, 5)] else []))
  let revs := ((List.range c.kbins).filter fun (j : Nat) => decide (span.1 ≤ j) && decide (j ≤ span.2)).map fun (j : Nat) => (both.getD j (0, 0)).2
  let rev := revs.foldl min (min capAll s.guard.cfg.vRevCap)
  let v : GuardWord := { w with limit := .ofCode fwd.2, vFwd := BitVec.ofNat 16 (min 65535 fwd.1), vRev := if i.live.isNone then 0 else BitVec.ofNat 16 (min 65535 rev) }
  match i.live with
  | some p =>
    (bin, { v with kappaLo := kappaUp (c.edge span.1), kappaHi := kappaDown (c.edge (span.2 + 1))
                   heading := p.heading.extractLsb' 16 16, x := p.x.extractLsb' 16 32, y := p.y.extractLsb' 16 32 })
  | none => (bin, v)

/-- The fields of every word of R399: invalid, with no speed and no curvature. -/
def GuardWord.invalidated (w : GuardWord) : GuardWord :=
  { w with valid := false, vFwd := 0, vRev := 0, kappaLo := 0, kappaHi := 0, limit := .invalid }

/-- Open a rotation of ten at K mod 10 = 0 and take AUX from the word that opened it (R401). DESIGN CHOICE, log entry 57. -/
def Guard.rotate (g : Guard) (w : GuardWord) : Guard :=
  let g1 : Guard := if w.k.toNat % 10 = 0 then { g with rotMap := w.map, rotDigest := w.digest, rotK := w.k } else g
  let slot := w.k.toNat % 10
  let fresh := g1.rotK.toNat = w.k.toNat / 10 * 10
  let aux : Word :=
    if !fresh then Config.auxBefore w.k
    else if slot < 4 then BitVec.ofNat 32 (fieldOf g1.rotMap (32 * slot) 32)
    else if slot < 8 then BitVec.ofNat 32 (fieldOf g1.rotDigest (32 * (slot - 4)) 32)
    else if slot = 8 then BitVec.ofNat 32 (g1.rotK.toNat / 2 ^ 32)
    else 0
  { g1 with word := some { w with aux := aux } }

/-- The word of cycle k as its inputs give it (R398, R399, R400), with the bin, the frame of its digest and its basis. DESIGN CHOICE, log entry 58. -/
def State.guardWord (s : State) (g : T64) (ecc : Bool) : GuardWord × Nat × Option (BitVec 64) × T64 :=
  let i := s.guardIn g
  let k : BitVec 64 := BitVec.ofNat 64 (g.toNat / ticksPerUs)
  let d := s.guardDigest i
  let prev : GuardWord := match s.guard.word with | some w => w | none => {}
  let base : GuardWord :=
    { prev with
      valid := true, crossChecked := s.qnt.pair == .crossChecked, stage := s.bcc.stage, cls := s.reported, pair := s.pairCode
      cmdUsed := i.cmd.isSome, aUsed := i.summary.isSome, hold := s.weir.hold, k := k, aoc := guardAoc g (s.guardBasis i), map := s.tb.map.bytes, digest := d.1 }
  let r := s.guardBounds i base
  let w : GuardWord :=
    if ecc then { Config.guardEccWord k with valid := true, crossChecked := base.crossChecked, stage := base.stage, cls := base.cls, pair := base.pair, k := k }
    else r.2
  (if s.c3 then w.invalidated else w, r.1, d.2, s.guardBasis i)

/-- The fallback frame (R399, R420): word k − 1 with K = k, CLASS C3 and nothing permitted. DEDUCED, log entry 125. -/
def Guard.fall (g : Guard) (t : T64) : Guard :=
  let prev : GuardWord := match g.word with | some w => w | none => {}
  { g.rotate { prev.invalidated with k := BitVec.ofNat 64 (t.toNat / ticksPerUs), cls := 4 } with fallback := true, latched := some t }

/-- The state as the latch at Gₖ sees it (R29): an input that changed at or after Gₖ is taken from its copy; a C3 collected at Gₖ counts (R412). -/
def State.atLatch (s : State) (g : T64) : State :=
  let c := s.guard.copies
  let at_ := match s.safety.c3At with | some t => tReached g t | none => false
  let s : State := match s.guard.liveKept with
    | some (t, r) => if t = g then { s with pl := { s.pl with live := r } } else s
    | none => s
  if s.guard.copyAt = some g then
    { s with
      cb := { s.cb with table := c.table }
      weir := { s.weir with summary := c.summary, verdict := c.verdict, hold := c.weirHold }
      qsa := { s.qsa with cmd := c.cmd, written := c.written }
      safety := { s.safety with latchA := c.latchA || (at_ && s.safety.latchA), latchB := c.latchB || (at_ && s.safety.latchB), latchC2 := c.latchC2 }
      bcc := { s.bcc with stage := c.stage } }
  else s

/-- PAIR and CROSS_CHECKED as the latch at Gₖ takes them (R28, R29, R437). -/
def State.pairAt (s : State) (g : T64) (w : GuardWord) : GuardWord :=
  if s.guard.copyAt = some g then { w with pair := s.guard.copies.pair, crossChecked := s.guard.copies.crossChecked } else w

/-- The Guard Engine runs (R28): from S1 on, with its sections installed; in Replay mode no word is computed until device time starts to
advance (R116). -/
def State.guardRuns (s : State) : Bool := s.enrolled && s.bcc.stage != 0 && s.cb.installed && (!s.replaying || s.replay.started)

/-- The frame of a word on guard port p (R402). -/
def GuardWord.portFrame (w : GuardWord) (p : Nat) (twinId : Bool) : Bytes :=
  let b := packBytes 4 [(16, 0x6D2B), (4, 1), (1, p), (1, twinId.toNat), (2, 0), (8, w.k.toNat % 256)] ++ w.core
  b ++ leBytes 4 (crc32c b)

/-- Bit of a frame on a data lane at a bit time (R402): bit j of byte b leaves at bit time 4b + floor(j / 2) on lane j mod 2. -/
def PortFrame.bit (f : PortFrame) (n : Nat) (lane : Fin 2) : Bool := (f.bytes.getD (n / 4) 0).getLsbD (2 * (n % 4) + lane.val)

/-- A data lane of a guard port at a device time (R402): 160 bit times of 5 ns from the start of the latest frame; low between frames. -/
def State.guardLane (s : State) (p lane : Fin 2) (t : T64) : Bool :=
  match s.guard.sent[p] with
  | some f =>
    let d := tDiff t f.start
    decide (0 ≤ d) && decide (d < (160 * 5 * ticksPerNs : Nat)) && f.bit (d.toNat / (5 * ticksPerNs)) lane
  | none => false

/-- The level of the forwarded clock of the guard ports at a device time (R402, R535): from the end of phase enrolment it rises 2.5 ns and falls
7.5 ns after each multiple of 10 ns; in Replay mode it is held low. -/
def State.guardClock (s : State) (t : T64) : Bool :=
  s.enrolled && !s.replaying && decide (20 ≤ t.toNat % 80) && decide (t.toNat % 80 < 60)

end Sys2Proof.Machine
end

