-- ==== Sys2Proof/Machine/Guard.lean ====
section
/-! DEFINITION. The commands of the Guard Engine (spec 16 R396 to R402; spec 17 R420; spec 18 R436). -/

namespace Sys2Proof.Machine

open Sys2Proof

/-- What takes effect at Gₖ beside the word: the map (R48), the role with its event (R436) and the release of the C2 lines (R409). A C2 event
of the release's own frame keeps its lines. DESIGN CHOICE, log entry 3. DEDUCED, log entries 23, 90. -/
def State.atG (s : State) : State :=
  let s1 := s.installMap
  let s2 : State := match s1.qnt.roleNext with
    | some r =>
      if r = s1.qnt.role then { s1 with qnt := { s1.qnt with roleNext := none } }
      else { s1 with qnt := { s1.qnt with role := r, roleNext := none }, ev := s1.ev.raise (evt .roleChange 136 0 r.code) }
    | none => s1
  if s2.safety.releaseDue && !s2.ev.c2InFrame then
    { s2 with safety := { s2.safety with releaseDue := false }, ev := { s2.ev with lineC2 := Vector.replicate 144 false } }
  else s2

/-- What the Guard sees of a live record whose CRC fails: none that is VALID (R396). -/
def State.withoutLive (s : State) (crcBad : Bool) : State :=
  if crcBad then { s with pl := { s.pl with live := { s.pl.live with valid := false } } } else s

/-- GUARD_CYCLE_LATCH (R396 to R401): the latch at the Gₖ that has come, once for each k. An uncorrectable error in the Guard's memory raises
GUARD_ECC (R426); `poseCrcBad`: the live record's CRC fails at the latch; a lockstep mismatch raises GUARD_LOCKSTEP and puts the fallback frame in the word's place (R399). DEDUCED, log entry 125. -/
def execGuardCycleLatch (lockstepOk : Bool) (ecc : EccFind) (poseCrcBad : Bool) (s : State) : Host.Outcome State Fault Refusal :=
  s.gate (let g := s.latestG
  .next (if !s.enrolled || s.guard.latched == some g then s else
    let s1 := s.atG
    if !s1.guardRuns then { s1 with guard := { s1.guard with latched := some g } } else
    let bad := ecc == .uncorrectable
    let s2 := if bad then s1.raise [evtOpen .guardEcc guardIsland 0] else s1
    if !lockstepOk then { s2 with guard := s2.guard.fall g, ev := s2.ev.raise (evtOpen .guardLockstep guardIsland 0) }
    else
      let r := ((s1.atLatch g).withoutLive poseCrcBad).guardWord g bad
      let gd : Guard := s2.guard.rotate (s1.pairAt g r.1)
      let s3 := match r.2.2.1 with | some n => s2.keepDigest n | none => s2
      { s3 with guard := { gd with latched := some g, fallback := false, cmd := (s1.atLatch g).qsa.cmd, bin := r.2.1, frame := r.2.2.1, basis := r.2.2.2 } }))

/-- GUARD_LATE (R420): word k is not there 700 ns after Gₖ; the fallback frame goes out. DEDUCED, log entry 125. -/
def execGuardLate (s : State) : Host.Outcome State Fault Refusal :=
  s.gate (let g := s.latestG
  .next (if s.guardRuns && s.guard.latched != some g && tReached s.tb.now (g + tick (700 * ticksPerNs)) then
    { s with guard := s.guard.fall g, ev := s.ev.raise (evtOpen .guardLate guardIsland 0) }
  else s))

/-- GUARD_PORT_FRAME (R402): 700 ns after Gₖ the frame of word k starts on both ports. Frames start with the first valid word and none is sent in Replay mode. DEDUCED, log entry 126. -/
def execGuardPortFrame (s : State) : Host.Outcome State Fault Refusal :=
  s.gate (.next (match s.guard.word with
    | none => s
    | some w =>
      let at_ : T64 := us w.k.toNat + tick (700 * ticksPerNs)
      let due := match s.guard.sent[0] with | some f => f.start != at_ | none => w.valid
      if due && s.guardRuns && !s.replaying && tReached s.tb.now at_ then
        { s with guard := { s.guard with sent := Vector.ofFn fun (p : Fin 2) => some ⟨at_, w.portFrame p.val s.twinId⟩ } }
      else s))

/-- PL_RUNG_LATE (R420): the next rung is not visible 10 µs after its latest time; raised once for a rung. -/
def execPlRungLate (s : State) : Host.Outcome State Fault Refusal :=
  s.gate (.next (match s.pl.nextK with
    | none => s
    | some k =>
      if s.enrolled && s.pl.lateK != some k && tReached s.tb.now (us (k + s.pl.cfg.lag + 10)) then
        { s with pl := { s.pl with lateK := some k }, ev := s.ev.raise (evtOpen .plRungLate 44 0) }
      else s))

end Sys2Proof.Machine
end

