-- ==== Sys2Proof/Machine/Headgates.lean ====
section
/-! DEFINITION. The commands of the headgates and of the data flumes (spec 06_headgates, spec 20 R479 to R483). -/

namespace Sys2Proof.Machine

open Sys2Proof

/-- Stamps of the items of a stream that are still arriving at its port (R165): a running or pending SPI burst, an edge whose code is still to
be issued, a frame or packet whose last bytes are to come. -/
def State.comingTo (s : State) (h : Fin 64) : List T64 :=
  match s.hgs[h].cfg with
  | none => []
  | some c =>
    if hs : 16 ≤ c.port ∧ c.port < 20 then
      let p := s.ports.spi[c.port - 16]
      p.running.toList ++ p.waiting.toList
    else if he : 20 ≤ c.port ∧ c.port < 28 then s.ports.enc[c.port - 20].pend.map fun (x : EncEdge) => x.stamp
    else Config.arriving c.port s.tb.now

/-- HEADGATE_ITEM (R157): the oldest item handed over passes the check chain; an accepted one gives an INPUT_GAP sample (R486). -/
def execHeadgateItem (h : Fin 64) (s : State) : Host.Outcome State Fault Refusal :=
  s.gate (let g := s.hgs[h]
  let r := g.next h s.tb.now (s.tb.map.state == .settling) s.tb.offsetAt
  let s1 := s.setHg h r
  .next (match r.1.accepted == g.accepted, g.lastStamp, r.1.lastStamp with
    | false, some a, some b => s1.sample 2 h.val (tDiff b a / ticksPerUs)
    | _, _, _ => s1))

/-- EXTERNAL_MASK_RELEASE (R165): a MISALIGNED or EXTERNAL reason. -/
def execExternalMaskRelease (h : Fin 64) (reason : BitVec 8) (s : State) : Host.Outcome State Fault Refusal :=
  s.gate (.next (if reason = reasonMisaligned ∨ reason = reasonExternal then
    { s with hgs := modAt s.hgs h fun (g : Headgate) => (g.release h s.tb.now reason).endItem false } else s))

/-- PKT_GAP_EXPIRY (R165). -/
def execPktGapExpiry (h : Fin 64) (s : State) : Host.Outcome State Fault Refusal :=
  s.gate (.next { s with hgs := modAt s.hgs h fun (g : Headgate) => g.gap h s.tb.now (s.comingTo h) })

/-- STREAM_TIMEOUT (R165). -/
def execStreamTimeout (h : Fin 64) (s : State) : Host.Outcome State Fault Refusal := s.gate (.next (s.setHg h (s.hgs[h].timeout h s.tb.now (s.comingTo h))))

/-- STREAM_ABSENT (R165). -/
def execStreamAbsent (h : Fin 64) (s : State) : Host.Outcome State Fault Refusal := s.gate (.next (s.setHg h (s.hgs[h].checkAbsent h s.tb.now (s.comingTo h))))

/-- The entry of a headgate in the POSE section: an encoder, or an IMU (R194). -/
def PoseLadder.encOf (pl : PoseLadder) (h : Fin 64) : Option Nat := pl.cfg.encs.findIdx? fun (e : PlEnc) => e.headgate == h
def PoseLadder.imuOf (pl : PoseLadder) (h : Fin 64) : Option Nat := pl.cfg.imus.findIdx? fun (e : PlImu) => e.headgate == h

/-- Some block reads the headgate's data flume (R479). -/
def State.hasReader (s : State) (h : Fin 64) : Bool :=
  (s.pau.rsOf h).isSome || (s.pau.camOf h).isSome || (s.pl.encOf h).isSome || (s.pl.imuOf h).isSome

/-- Charge the dropped records of a write cycle to their frames (R83). -/
def State.chargeDrops (s : State) (late overrun : List (BitVec 64)) : State :=
  if s.replaying then s else
  let q := late.foldl (fun (q : Seq) f => q.charge f fun (x : Ndc) => { x with late := x.late + 1 }) s.seq
  { s with seq := overrun.foldl (fun (q : Seq) f => q.charge f fun (x : Ndc) => { x with overrun := x.overrun + 1 }) q }

/-- DATA_FLUME_WRITE_CYCLE (R163, R480, R481). -/
def execDataFlumeWriteCycle (h : Fin 64) (s : State) : Host.Outcome State Fault Refusal :=
  s.gate (let e : WriteEnv := { now := s.tb.now, tb := s.tb, closeTicks := s.pcu.closeTicks, read := s.hasReader h }
  let r := s.hgs[h].writeCycle h e
  .next (({ s with hgs := s.hgs.set h r.1, ev := s.ev.raiseAll r.2.2.2 } : State).chargeDrops r.2.1 r.2.2.1))

/-- A record that Channel B's input receives unchanged (R384, R479). -/
def forwards (b : RecBody) : Bool := match b with | .sweepEnd .. | .frameEnd .. | .state .. => true | _ => false

/-- Hand on the records at the front of a pipe that need no compensation: they follow the points before them into Channel B's input (R384). -/
def State.forwardMarks (s : State) (pipe : Fin 4) : State :=
  let l := s.pau.pipes[pipe]
  let mark (x : PipeItem) : Bool := forwards x.r.body
  { s with
    pau := { s.pau with pipes := s.pau.pipes.set pipe (l.dropWhile mark) }
    cb := { s.cb with input := s.cb.input ++ (l.takeWhile mark).map fun (x : PipeItem) => .mark x.r x.sensor } }

/-- What the PAU does with a record of a range sensor's flume (R224, R384, R479): points, and the records that it forwards, join the sensor's
pipe and leave it in flume order. -/
def Pau.takeRange (p : Pau) (s : Fin 8) (r : Rec) : Pau :=
  let queued : Pau := match p.rs[s] with
    | some c => { p with pipes := modAt p.pipes (c.pipeOf s) fun (l : List PipeItem) => l ++ [⟨r, s, false⟩] }
    | none => p
  match r.body with
  | .point .. | .depthPixel .. | .state .. => queued
  | .sweepEnd .. | .frameEnd .. => { queued with marks := modAt p.marks s fun (l : List Rec) => (r :: l).take 64 }
  | _ => p

/-- What the PAU does with a record of a camera's flume (R225, R228). -/
def Pau.takeCamera (p : Pau) (c : Fin 16) (h : Fin 64) (r : Rec) (frame : Option (BitVec 64)) : Pau :=
  match r.body with
  | .pixelRow row dt _ emb bytes => p.takeRow c r.tov frame row.toNat dt emb bytes
  | .frameEnd .. => p.endImage c
  | .state new _ _ =>
    let bit : BitVec 64 := BitVec.ofNat 64 (2 ^ h.val)
    { p with masked := if new = .masked then p.masked ||| bit else p.masked &&& ~~~bit }
  | _ => p

/-- A record read from a data flume reaches its reader (R479). -/
def State.readRecord (s : State) (h : Fin 64) (r : Rec) : State :=
  match s.pau.rsOf h, s.pau.camOf h with
  | some k, _ =>
    let s1 : State := { s with pau := s.pau.takeRange k r }
    match s.pau.rs[k] with | some c => s1.forwardMarks (c.pipeOf k) | none => s1
  | none, some c => { s with pau := s.pau.takeCamera c h r ((s.tb.frameAt r.tov).map (·.no)) }
  | none, none =>
    if (s.pl.encOf h).isSome || (s.pl.imuOf h).isSome then { s with pl := { s.pl with inbox := s.pl.inbox ++ [r] } } else s

/-- A skipped point of a dropped item counts in PAU_NO_POSE (R482). -/
def State.skipRecord (s : State) (r : Rec) : State :=
  match r.body with
  | .point .. | .depthPixel .. => { s with pau := { s.pau with noPose := bump s.pau.noPose } }
  | _ => s

/-- An uncorrectable record is skipped, counted and breaks the run; FLUME_UE is raised once in a frame (R480). -/
def State.flumeUe (s : State) (h : Fin 64) (g : Headgate) : State :=
  let again := decide (g.ueFrame = some s.tb.no)
  { s with hgs := s.hgs.set h { g.breakRun with flumeUe := bump g.flumeUe, ueFrame := some s.tb.no }
           ev := if again then s.ev else s.ev.raise (evtOpen .flumeUe (hgIsland h) h.val) }

/-- The island of a flume's reader (R68, R479): the PAU's of its range sensor or of the cameras, else the Pose Ladder's. -/
def State.readerUp (s : State) (h : Fin 64) : Bool :=
  match s.pau.rsOf h, s.pau.camOf h with
  | some k, _ => (List.range 4).all (fun (i : Nat) => s.isl.enrolled[46 + i]!) && s.isl.enrolled[122]
  | none, some _ => (List.range 4).all fun (i : Nat) => s.isl.enrolled[46 + i]!
  | none, none => s.isl.enrolled[44]

/-- FLUME_READ (R480, R482, R473): the reader takes the oldest visible record once its island is enrolled (R71); `ue` says that it reads
uncorrectable. -/
def execFlumeRead (h : Fin 64) (ue : Bool) (s : State) : Host.Outcome State Fault Refusal :=
  s.gate (.next (if s.hasReader h && s.readerUp h then
    match s.hgs[h].readRec with
    | (none, _) => s
    | (some r, g) =>
      if ue then s.flumeUe h g else
      let d := g.dropStep r
      let s1 : State := { s with hgs := s.hgs.set h { g with drop := d.2 } }
      if d.1 then s1.skipRecord r else s1.readRecord h r
  else s))

/-- FLUME_DROP (R482): the PAU drops the rest of the item one of whose answers carried MODE LOST. -/
def execFlumeDrop (h : Fin 64) (s : State) : Host.Outcome State Fault Refusal :=
  s.gate (.next (match s.pau.lostItem.find? fun (x : Fin 64 × BitVec 16) => x.1 == h with
    | some x =>
      let rest := s.pau.lostItem.filter fun (y : Fin 64 × BitVec 16) => y.1 != h
      { s with pau := { s.pau with lostItem := rest }, hgs := modAt s.hgs h fun (g : Headgate) => { g with drop := some x.2 } }
    | none => s))

end Sys2Proof.Machine
end

