-- ==== Sys2Proof/Machine/Memories.lean ====
section
/-! DEFINITION. The commands of the Cistern and of LPDDR5X (spec 20 R467 to R477). -/

namespace Sys2Proof.Machine

open Sys2Proof

/-- The observation port among the Cistern's ports. -/
def obsPort : CisternPort := 11

/-- A request that a bank can serve (R467): up to 64 bytes of one aligned line of the bank; the observation port only reads. DEDUCED, log entry 98. -/
def CisternReq.fits (r : CisternReq) (bank : Nat) : Bool :=
  let n := match r.data with | some d => d.length | none => r.len
  decide (1 ≤ n) && decide (r.addr % 64 + n ≤ 64) && r.addr / bankBytes == bank && !(r.port == obsPort && r.data.isSome)

/-- The requests that compete for a bank cycle: in Replay mode the observation port only where no other port requests (R91). -/
def competing (replay : Bool) (rs : List CisternReq) : List CisternReq :=
  if replay && rs.any (fun (r : CisternReq) => r.port != obsPort) then rs.filter fun (r : CisternReq) => r.port != obsPort else rs

/-- The request that is served (R468): round-robin, starting after the port served last. -/
def Memory.arbitrate (m : Memory) (bank : Fin 64) (rs : List CisternReq) : Option CisternReq :=
  ((List.range 12).filterMap fun k => rs.find? fun (r : CisternReq) => r.port.val == (m.served[bank].val + 1 + k) % 12).head?

/-- Island of a bank (R467). -/
def bankIsland (bank : Fin 64) : Nat := 80 + bank.val / 2

/-- What a read finds in one of its words (R472): poison and its event, or a correction. `a` is the byte offset of the word. DEDUCED, log entry 99. -/
def State.cisternEcc (s : State) (bank : Fin 64) (a : Nat) (ecc : EccFind) : State :=
  if ecc = .uncorrectable then
    { s with mem := { (s.mem.poison .cistern (a / 8)) with cisternUe := bump s.mem.cisternUe }, ev := s.ev.raise (evtOpen .cisternUe (bankIsland bank) bank.val) }
  else if ecc = .corrected then
    { s with mem := { s.mem with cisternCe := bump s.mem.cisternCe }, ev := s.ev.raise (evt .cisternCe (bankIsland bank) bank.val a) }
  else s

/-- What a read returns: the observer sees zeros for a poisoned word (R472). -/
def Memory.readFor (m : Memory) (p : CisternPort) (a n : Nat) : Bytes :=
  if p = obsPort then (List.range n).map fun i => if m.cisternBad.contains ((a + i) / 8) then 0 else m.get .cistern (a + i)
  else m.read .cistern a n

/-- CISTERN_ACCESS (R467 to R472): one bank cycle in which ports present requests; one is served. `ecc` is what its decoder finds in word `word`
of the line that is read. An address beyond the Cistern does not exist. DEDUCED, log entries 34, 99. -/
def execCisternAccess (bank : Fin 64) (reqs : List CisternReq) (ecc : EccFind) (word : Fin 8) (s : State) : Host.Outcome State Fault Refusal :=
  s.gate (match reqs.find? fun (r : CisternReq) => decide (cisternBytes ≤ r.addr) with
  | some r => .fault (.noSuchAddress r.addr)
  | none => .next (if !s.isl.enrolled[bankIsland bank]! then s else
    match s.mem.arbitrate bank (competing s.replaying (reqs.filter fun (r : CisternReq) => r.fits bank.val)) with
    | none => s
    | some r =>
      let m : Memory := { s.mem with served := s.mem.served.set bank r.port }
      match r.data with
      | some d => { s with mem := m.write .cistern r.addr d }
      | none =>
        let a := r.addr / 64 * 64 + 8 * word.val
        let read := decide (a < r.addr + r.len) && decide (r.addr < a + 8)
        let known := (List.range 8).find? fun k => m.cisternBad.contains (r.addr / 64 * 8 + k) && m.poisoned .cistern r.addr r.len
          && decide (r.addr / 64 * 64 + 8 * k < r.addr + r.len) && decide (r.addr < r.addr / 64 * 64 + 8 * k + 8)
        let s1 : State := { s with mem := m }
        let s2 := match known with
          | some k => s1.cisternEcc bank (r.addr / 64 * 64 + 8 * k) .uncorrectable
          | none => if read then s1.cisternEcc bank a ecc else s1
        { s2 with mem := { s2.mem with readData := s2.mem.readData.set r.port (s2.mem.readFor r.port r.addr r.len) } }))

/-- PATROL_SCRUB (R471, R472): the next line of a bank, 4,096 bank cycles after the one before. DEDUCED, log entry 100. -/
def execPatrolScrub (bank : Fin 64) (ecc : EccFind) (word : Fin 8) (s : State) : Host.Outcome State Fault Refusal :=
  s.gate (.next (if s.isl.enrolled[bankIsland bank]! && elapsed s.tb.now s.mem.scrubAt[bank] 32768 then
    let l := s.mem.scrubLine[bank]
    let a := bank.val * bankBytes + 64 * l.toNat + 8 * word.val
    let s1 : State := { s with mem := { s.mem with
      scrubLine := s.mem.scrubLine.set bank (l + 1), scrubAt := s.mem.scrubAt.set bank s.tb.now
      cisternScrubs := bumpIf (l == 32767 && bank == 63) s.mem.cisternScrubs } }
    if ecc == EccFind.uncorrectable && !s.mem.inRegion a then
      { s1 with mem := { s1.mem with cisternUeFree := bump s1.mem.cisternUeFree }, ev := s1.ev.raise (evtOpen .cisternUeFree (bankIsland bank) bank.val) }
    else s1.cisternEcc bank a ecc
  else s))

/-- The zero-fill of training (R476), and the model slots whose sections are installed: a slot is filled once and nothing erases it (R291).
DEDUCED, log entry 173. -/
def State.zeroFilled (s : State) : Memory :=
  let m := s.mem.cfg.regions.foldl (fun (m : Memory) (r : DramRegion) => if r.kind = .capture then m else m.zero .dram r.base r.bytes) s.mem
  s.bcc.installed.foldl (fun (m : Memory) (i : Installed) => match i.content with
    | .modelSlot => let p := slotPlace i.entry.dest; if p.space = .dram then m.write .dram p.addr i.bytes else m
    | _ => m) m

/-- LPDDR5X_TRAINING (R476): an attempt in S1; a success zero-fills the GENERAL and SLOTS regions; after the third failure there is none. -/
def execLpddr5xTraining (ok : Bool) (s : State) : Host.Outcome State Fault Refusal :=
  s.gate (.next (if s.bcc.stage == 1 && s.isl.enrolled[139]! && !s.mem.trained && decide (s.mem.trainFails < 3) then
    if ok then
      { s with mem := { s.zeroFilled with trained := true }, bcc := { s.bcc with condAt := s.tb.now } }
    else { s with mem := { s.mem with trainFails := s.mem.trainFails + 1 }, ev := s.ev.raise (evtOpen .memTrainFail 139 0) }
  else s))

/-- Ticks between two lines of the LPDDR5X patrol scrub: the whole space once per SCRUB_PERIOD (R476). DEDUCED, log entry 100. -/
def MemCfg.scrubStep (c : MemCfg) : Nat := c.scrubPeriod * 3600 * ticksPerSec * 64 / max 1 c.dramBytes

/-- DRAM_SCRUB (R476): the next 64 bytes of the LPDDR5X space. DEDUCED, log entries 100, 101. -/
def execDramScrub (ecc : EccFind) (word : Fin 8) (s : State) : Host.Outcome State Fault Refusal :=
  s.gate (.next (if s.mem.trained && elapsed s.tb.now s.mem.dramScrubAt s.mem.cfg.scrubStep then
    let c := s.mem.cfg
    let a := s.mem.dramScrub + 8 * word.val
    let last := decide (c.dramBytes ≤ s.mem.dramScrub + 64)
    let i := c.dramIsland a
    let m : Memory := { s.mem with dramScrub := if last then 0 else s.mem.dramScrub + 64, dramScrubAt := s.tb.now, dramScrubs := bumpIf last s.mem.dramScrubs }
    match ecc with
    | .clean => { s with mem := m }
    | .corrected => { s with mem := { m with dramCe := bump m.dramCe }, ev := s.ev.raise (evtOpen .dramCe i 0) }
    | .uncorrectable =>
      match c.kindAt a with
      | some .capture => { s with mem := m.poison .dram (a / 8) }
      | some _ => { s with mem := { (m.poison .dram (a / 8)) with dramUe := bump m.dramUe }, ev := s.ev.raise (evt .dramUe i 0 (a / 64)) }
      | none => { s with mem := { m with cisternUeFree := bump m.cisternUeFree }, ev := s.ev.raise (evtOpen .cisternUeFree i 0) }
  else s))

end Sys2Proof.Machine
end

