-- ==== Sys2Proof/Machine/Qsa.lean ====
section
/-! DEFINITION. The commands of the QP Solver Array (spec 15_qp_solver_array). -/

namespace Sys2Proof.Machine

open Sys2Proof

/-- Island that raises the QSA's events: the first of its eight (R68). DEDUCED, log entry 117. -/
def qsaIsland : Nat := 114

/-- Give the batch's command and the COMMAND message (R379, R445). The record takes stage, class and pair of the instant; VALID is 0 in S1, S2,
C2 and C3 (R31). -/
def State.writeCommand (s : State) (c : MotionCmd) (feed : Option Frame) : State :=
  let c : MotionCmd := { c with valid := c.valid && s.bcc.stage == 3 && !s.c2 && !s.c3, stage := s.bcc.stage, cls := s.reported, pair := s.pairCode, feedB := feed.map fun (f : Frame) => f.b }
  let bn : T64 := match feed with | some f => f.b | none => 0
  let zero := c.digest == List.replicate 16 0
  ({ s.keepCopies with qsa := { s.qsa with cmd := c, written := true } } : State).emit 4
    { valid := c.valid, frame := if zero then 0 else c.frame, bn := if zero then 0 else bn, basis := bn, tov := c.tov, digest := c.digest, body := c.bytes }

/-- Solve every lane of a batch, write the results and count what they met (R369 to R373, R378 step 3). -/
def State.runLanes (s : State) (region : Nat) (pose : PoseRec) : State × List SolveResult × List (List Word × Nat) :=
  let q := s.qsa
  let lanes := (List.range 64).map fun l => if l < q.cfg.candidates then q.cfg.lane s.mem region l pose else (({} : SolveResult), 0, false, [], 0)
  let rs := lanes.map (·.1)
  let base := q.cfg.resultBase + (q.batch.toNat % 2) * 65536
  let mem := (List.zip (List.range 64) rs).foldl (fun (m : Memory) (x : Nat × SolveResult) =>
    m.write .cistern (base + 1024 * x.1) (x.2.bytes x.1 s.tb.now)) s.mem
  let bad := lanes.foldl (fun (a : Nat) x => a + x.2.1) 0
  let feedBad := lanes.any fun x => x.2.2.1
  let numeric := (rs.filter fun (r : SolveResult) => r.zero || r.refineFail || r.status == .numeric).length
  ({ s with
      mem := mem
      qsa := { q with results := Vector.ofFn fun (l : Fin 64) => rs.getD l.val {}, badDelta := bumpBy q.badDelta bad
                      numeric := bumpBy q.numeric numeric, feedBad := bumpIf feedBad q.feedBad }
      ev := s.ev.raiseAll ((if feedBad then [evtOpen .qsaFeedBad qsaIsland 0] else []) ++ (if numeric = 0 then [] else [evt .qsaNumeric qsaIsland 0 numeric])) },
   rs, lanes.map fun x => x.2.2.2)

/-- The steps of the selected lane's command, clamped; the clamps are counted (R377, R378 step 4). -/
def QsaCfg.laneSteps (c : QsaCfg) (r : SolveResult) (params : List Word) (struct : Nat) : List (Word × Word) × Nat :=
  let rows : List OutRow := match (if h : struct < 8 then c.structs[struct] else none) with | some s => s.rows | none => []
  let step (i : Nat) : (Word × Bool) × (Word × Bool) :=
    (clampQ c.vMax ((rows.getD (2 * i) {}).value r.x params), clampQ c.kappaMax ((rows.getD (2 * i + 1) {}).value r.x params))
  let l := (List.range 8).map step
  (l.map fun x => (x.1.1, x.2.1), l.foldl (fun (a : Nat) x => a + x.1.2.toNat + x.2.2.toNat) 0)

/-- The step time of a structure, OUT_DT in ms. -/
def QsaCfg.outDt (c : QsaCfg) (struct : Nat) : Nat := match (if h : struct < 8 then c.structs[struct] else none) with | some s => s.outDt | none => 100

/-- The frame digest of a batch's feed frame is kept. -/
def State.keepFeed (s : State) (f : Option Frame) : State := match f with | some m => s.keepDigest m.no | none => s

/-- One batch (R378): its pose answer and feed are decided. DEDUCED, log entry 120. DESIGN CHOICE, log entry 190. -/
def State.batch (s : State) (pose : PoseRec) (feed : Feed) (l : T64) : State :=
  let s : State := { s with qsa := { s.qsa with batch := s.qsa.batch + 1 } }
  let q := s.qsa
  let tov := l + us q.cfg.lead
  let f : Option Frame := match feed with | .ready m => some m | .absent m => m | .wait => none
  let aoc : Word := match f with | some m => aocUs s.tb.now m.b | none => 0
  let s0 := s.keepFeed f
  let base : MotionCmd :=
    { stop := true, batch := q.batch, tov := tov, aoc := aoc, frame := match f with | some m => m.no.setWidth 32 | none => 0
      digest := match f with | some m => s0.frameDigest m.no | none => List.replicate 16 0 }
  let idle : State := { s0 with qsa := { s0.qsa with results := Vector.replicate 64 {} } }
  if !pose.valid then idle.writeCommand base f
  else
    match feed with
    | .ready m =>
      let region := q.cfg.feedBase + (m.no.toNat % 2) * q.cfg.feedBytes
      let r := s0.runLanes region pose
      let s1 := r.1
      let n := (r.2.1.filter fun (x : SolveResult) => x.eligible).length
      match selectLane r.2.1 with
      | some k =>
        let x := r.2.1.getD k {}
        let p := r.2.2.getD k ([], 0)
        let st := q.cfg.laneSteps x p.1 p.2
        ({ s1 with qsa := { s1.qsa with clamp := bumpBy s1.qsa.clamp st.2 } } : State).writeCommand
          { base with valid := true, stop := false, lane := BitVec.ofNat 6 k, eligible := BitVec.ofNat 7 n, objective := x.objective, steps := st.1 } f
      | none =>
        ({ s1 with qsa := { s1.qsa with noFeasible := bump s1.qsa.noFeasible }
                   ev := s1.ev.raise (evtOpen .qsaNoFeasible qsaIsland 0) } : State).writeCommand
          { base with valid := true, steps := q.cfg.stopSteps pose } f
    | _ => idle.writeCommand { base with valid := true, noFeed := true, steps := q.cfg.stopSteps pose } f

/-- MPC_BATCH (R374 to R379): the launch that the QSA runs; it waits for its pose answer, and for its feed frame's outcome. DEDUCED, log entry 120. -/
def execMpcBatch (s : State) : Host.Outcome State Fault Refusal :=
  s.gate (.next (match s.seq.busy[2] with
    | none => s
    | some (n, e, j) =>
      match (s.seq.tableOf n)[e]?, s.tb.frameNo n with
      | some x, some f =>
        if s.seq.finished.contains (n, e, j) || s.c3 then s else
        let l := x.startAt f.b j
        match s.checkedPose (l + us s.qsa.cfg.lead) l, s.feedOf l with
        | some pose, feed =>
          if feed = .wait then s else
          let s1 := (s.countQuery (l + us s.qsa.cfg.lead) l).batch pose feed l
          { s1 with seq := s1.seq.finish (n, e, j) }
        | none, _ => s
      | _, _ => s))

/-- ALIGN_SOLVE (R235, R236, R381): the problem of the window that the frame before closed; without one the task completes at once. -/
def execAlignSolve (s : State) : Host.Outcome State Fault Refusal :=
  s.gate (.next (match s.seq.busy[5] with
    | none => s
    | some (n, e, j) =>
      if s.seq.finished.contains (n, e, j) then s else
      let done := s.seq.finish (n, e, j)
      match s.stepWork n with
      | some w =>
        if w.solved.isNone then
          let r := w.qp.solve s.qsa.cfg
          { s with
            seq := done
            pau := { s.pau with work := some { w with solved := some r } }
            mem := s.mem.write .cistern (s.qsa.cfg.resultBase + 131072) (r.bytes s.qsa.cfg.alignLane.val s.tb.now)
            qsa := { s.qsa with alignResult := r } }
        else { s with seq := done }
      | none => { s with seq := done }))

end Sys2Proof.Machine
end

