-- ==== Sys2Proof/Machine/Timebase.lean ====
section
/-! DEFINITION. The commands of the Timebase (spec 02_one_time_line). -/

namespace Sys2Proof.Machine

open Sys2Proof

/-- The smaller of two watermarks. -/
def lowerMark : Option T64 → Option T64 → Option T64
  | none, x => x
  | x, none => x
  | some a, some b => some (if tLater a b then b else a)

/-- Smallest watermark over the enabled streams (R90); none where an END chunk has raised every one of them. -/
def Replay.bound (r : Replay) (mask : BitVec 64) : Option T64 :=
  (List.finRange 64).foldl (fun (acc : Option T64) (i : Fin 64) => if mask.getLsbD i.val then lowerMark acc r.mark[i] else acc) none

/-- Time-bus periods that may pass at once: none before reset release; in Replay none before the START chunk, in a halt or a stall,
and never past the smallest watermark (R86, R89, R90). DEDUCED, log entry 25. -/
def State.periods (s : State) (n : Nat) : Nat :=
  if s.tb.running then
    if s.isl.cfg.replay then
      if s.replay.started && !s.replay.halted && !s.replay.stalled then
        match s.replay.bound s.enabledStreams with
        | some w => min n ((tDiff w s.tb.now).toNat / 32)
        | none => n
      else 0
    else n
  else 0

/-- The increment that TIME_BUS_INCREMENT uses: 32 ticks in Replay mode, else the increment in force (R44, R86). -/
def State.increment (s : State) : Nat := if s.isl.cfg.replay then 32 * 2 ^ 32 else s.tb.incr.toNat

/-- TIME_BUS_INCREMENT (R44): `periods` successive 4 ns periods of the time bus. A map that waits for a Gₖ reached comes into force (R48). DESIGN CHOICE, log entry 3. -/
def execTimeBusIncrement (periods : Nat) (s : State) : Host.Outcome State Fault Refusal :=
  .next ({ s with tb := s.tb.advance s.increment (s.periods periods) } : State).installMap

/-- The measured offset of a Sync (R53): none where no source takes it or no path delay is known. `originNs` and `correction`
(2⁻¹⁶ ns) give the domain time at the receive stamp. -/
def Timebase.syncOffset (tb : Timebase) (port : Fin 2) (domain : BitVec 7) (rx : T64) (originNs : Nat) (correction : Int) : Option (Src × T64 × Rat) :=
  match tb.sourceOf port domain with
  | none => none
  | some x =>
    if (tb.source x).st = .off then none else
    let t := rx - BitVec.ofInt 64 (tb.cfg.asymIn[6 + port.val]!)
    match tb.pathDelay port with
    | none => none
    | some d => some (x, t, (originNs * 8 : Nat) + (correction : Rat) / 8192 + d - (tb.latest.mapped t : Rat))

/-- A Sync of a domain (R53): `logInterval` 0x7F stands for the profile default. -/
def Timebase.sync (tb : Timebase) (port : Fin 2) (domain : BitVec 7) (rx : T64) (originNs : Nat) (correction logInterval : Int) :
    Timebase × List Ev :=
  match tb.sourceOf port domain with
  | none => (tb, [])
  | some x =>
    let v := tb.source x
    if v.st = .off then (tb, []) else
    let tb' := tb.setSource x { v with lastSync := tb.now, syncs := bump v.syncs, syncLog := if logInterval = 0x7F then none else some logInterval }
    match tb.syncOffset port domain rx originNs correction with
    | none => (tb', [])
    | some (_, t, o) => tb'.measure x t o

/-- The residual that the Grotto samples at a Sync (R486): against the estimator's prediction, or the offset itself in increment mode (R46). -/
def Timebase.syncResidual (tb : Timebase) (x : Src) (t : T64) (o : Rat) : Int :=
  if tb.cfg.servo then (match (tb.source x).est with | some e => rneRat (o - e.predict t) | none => 0) else rneRat o

/-- A vehicle port takes part: powered and enrolled (R112, R71), and in Replay mode held in reset with the servo idle (R43, R85). -/
def State.vehicleUp (s : State) (p : Fin 2) : Bool := s.portUp ⟨14 + p.val, by omega⟩

/-- PTP_SYNC_RECEIVED (R53, R45, R54, R486). -/
def execPtpSyncReceived (port : Fin 2) (domain : BitVec 7) (rx : T64) (originNs : Nat) (correction logInterval : Int) (s : State) :
    Host.Outcome State Fault Refusal :=
  s.gate (.next (if s.vehicleUp port then
    let r := s.tb.sync port domain rx originNs correction logInterval
    let s' : State := match s.tb.syncOffset port domain rx originNs correction with
      | some (x, t, o) => s.sample 6 (x.code - 1) (s.tb.syncResidual x t o)
      | none => s
    { s' with tb := r.1, ev := s.ev.raiseAll r.2 }
  else s))

/-- An Announce of a source (R53). -/
def Timebase.announce (tb : Timebase) (port : Fin 2) (domain : BitVec 7) (a : GmAttrs) (logInterval : Int) : Timebase × List Ev :=
  match tb.sourceOf port domain with
  | none => (tb, [])
  | some x =>
    let v := tb.source x
    let v := { v with lastAnnounce := tb.now, announceLog := if logInterval = 0x7F then none else some logInterval }
    match v.st with
    | .off => (tb, [])
    | .listening => (tb.setSource x { v with announced := true, gm := a }, [])
    | _ =>
      if a.identity = v.gm.identity then (tb.setSource x { v with gm := a }, [])
      else
        -- HOLDOVER, where it follows, keeps the attributes announced until now (R50)
        let (tb2, es) := (tb.setSource x { v with st := .acquiring, lockRun := 0, unlockRun := 0 }).evalMap
        (tb2.setSource x { tb2.source x with gm := a }, evtOpen .gmChange tbIsland x.code :: es)

/-- PTP_ANNOUNCE_RECEIVED (R53). -/
def execPtpAnnounceReceived (port : Fin 2) (domain : BitVec 7) (attrs : GmAttrs) (logInterval : Int) (s : State) :
    Host.Outcome State Fault Refusal :=
  s.gate (.next (if s.vehicleUp port then
    let r := s.tb.announce port domain attrs logInterval
    { s with tb := r.1, ev := s.ev.raiseAll r.2 }
  else s))

/-! ### Gates of the vehicle ports (R453) -/

/-- Line rate of a vehicle port in Mbit/s: fixed by its PCS or settings, else as negotiated (R125, R452). -/
def State.lineRate (s : State) (p : Fin 2) : Nat :=
  let c := s.out.cfg.eth[p]
  if c.pcs = 1 then 2500 else if c.pcs = 3 then 10000 else if c.speed = 0 then s.ports.eth[6 + p.val].speed else c.speed

/-- How long from `t` (ticks into the list's cycle) a queue's gate stays open (R453). -/
def gateOpenFor (l : List GateEntry) (q : Nat) (t : Nat) : Nat :=
  let step (st : Nat × Nat × Bool) (e : GateEntry) : Nat × Nat × Bool :=
    let (pos, got, run) := st
    let n := e.interval * 64
    if pos + n ≤ t then (pos + n, got, run)
    else if run && e.gates.getLsbD q then (pos + n, got + (pos + n - max pos t), true)
    else (pos + n, got, false)
  if l.all fun (e : GateEntry) => e.gates.getLsbD q then 10 ^ 15 else ((l ++ l).foldl step (0, 0, true)).2.1

/-- A queue's gate is open now, and for so many ticks more (R453): the list runs from Bₙ and starts again at Bₙ₊₁. -/
def State.gateLets (s : State) (p : Fin 2) (q : Fin 8) (ticks : Nat) (fr : Frame) : Bool :=
  let l := s.out.cfg.gates[p]
  let cycle := l.foldl (fun (a : Nat) (e : GateEntry) => a + e.interval * 64) 0
  let into := (tDiff s.tb.now fr.b).toNat
  let left := (tDiff fr.next s.tb.now).toNat
  let a := gateOpenFor l q.val (into % cycle)
  let open_ := if a < left then a else left + gateOpenFor l q.val 0
  cycle != 0 && decide (1 ≤ a) && decide (ticks ≤ open_)

/-- Ticks that a count of bytes takes of a vehicle port. -/
def State.portTicks (s : State) (p : Fin 2) (n : Nat) : Nat := let r := s.lineRate p; if r = 0 then 0 else (n * 8 * ticksPerUs + r - 1) / r

/-- Bytes of a PTP, ARP or Neighbor Discovery frame with its preamble (R453). PRESUMED, log entry 147. -/
def controlBytes : Nat := 80

/-- A PTP message of a vehicle port can start now (R453): its last bit leaves before its queue's gate closes. -/
def State.ptpStarts (s : State) (p : Fin 2) : Bool :=
  match s.tb.frame with
  | some fr => s.lineRate p == 0 || s.gateLets p s.out.cfg.ptpQueue (s.portTicks p controlBytes) fr
  | none => true

/-- PDELAY_REQ_SEND (R53, R51): the transmit stamp at the reference plane starts a measurement. It goes out
through the gate of PTP_QUEUE (R453). -/
def execPdelayReqSend (port : Fin 2) (tx : T64) (s : State) : Host.Outcome State Fault Refusal :=
  s.gate (.next (if s.vehicleUp port && s.ptpStarts port then
    { s with tb := { s.tb with
      pdelayReq := s.tb.pdelayReq.set port (some (tx + BitVec.ofInt 64 (s.tb.cfg.asymOut[6 + port.val]!), s.tb.pdelaySeq[port]))
      pdelaySeq := s.tb.pdelaySeq.set port (s.tb.pdelaySeq[port] + 1) } }
  else s))

/-- PDELAY_MEASUREMENT (R53): ((t4 − t1) − (t3 − t2)) / 2, with the responder's t2 and t3 in units of 2⁻¹⁶ ns. -/
def execPdelayMeasurement (port : Fin 2) (seqId : BitVec 16) (t2 t3 : Int) (rx : T64) (s : State) : Host.Outcome State Fault Refusal :=
  s.gate (.next { s with tb := if !s.vehicleUp port then s.tb else
    match s.tb.pdelayReq[port] with
    | some (t1, q) =>
      if q = seqId then
        let t4 := rx - BitVec.ofInt 64 (s.tb.cfg.asymIn[6 + port.val]!)
        { s.tb with
          path := s.tb.path.set port (some ⟨((tDiff t4 t1 : Rat) - ((t3 - t2 : Int) : Rat) / 8192) / 2, s.tb.now⟩)
          pdelayReq := s.tb.pdelayReq.set port none }
      else s.tb
    | none => s.tb })

/-- A source that has timed out (R53). -/
def Timebase.timeout (tb : Timebase) (x : Src) (since : T64) (limit : Nat) : Timebase × List Ev :=
  let st := (tb.source x).st
  if (st == .locked || st == .acquiring) && elapsed tb.now since limit then tb.loseSource x else (tb, [])

/-- SYNC_TIMEOUT_EXPIRY (R53). -/
def execSyncTimeoutExpiry (source : Src) (s : State) : Host.Outcome State Fault Refusal :=
  s.gate (let r := s.tb.timeout source (s.tb.source source).lastSync (s.tb.cfg.syncTimeout * s.tb.syncTicks source)
  .next { s with tb := r.1, ev := s.ev.raiseAll r.2 })

/-- ANNOUNCE_TIMEOUT_EXPIRY (R53); the peer source has no Announce (R65). -/
def execAnnounceTimeoutExpiry (source : Src) (s : State) : Host.Outcome State Fault Refusal :=
  s.gate (let r := if source = .peer then (s.tb, []) else
    s.tb.timeout source (s.tb.source source).lastAnnounce (s.tb.cfg.announceTimeout * s.tb.announceTicks source)
  .next { s with tb := r.1, ev := s.ev.raiseAll r.2 })

/-- MAP_GUARD_EXPIRY (R54): SETTLING becomes LOCKED. In Replay the map comes from the capture alone (R86, R94). -/
def execMapGuardExpiry (s : State) : Host.Outcome State Fault Refusal :=
  s.gate (.next { s with
    tb :=
    if s.replaying then s.tb else
    if s.tb.latest.state = .settling ∧ elapsed s.tb.now s.tb.settleAt (s.tb.cfg.mapGuardMs * ticksPerMs) = true then
      s.tb.setMap { s.tb.latest with state := .locked }
    else s.tb })

/-- HOLD_LIMIT_EXPIRY (R54): HOLDOVER becomes FREE with DOMAIN 0 and the offset unchanged. In Replay the map comes from the capture alone (R86, R94). -/
def execHoldLimitExpiry (s : State) : Host.Outcome State Fault Refusal :=
  s.gate (.next { s with
    tb :=
    if s.replaying then s.tb else
    if s.tb.latest.state = .holdover ∧ elapsed s.tb.now s.tb.holdAt (s.tb.cfg.holdLimitS * ticksPerSec) = true then
      s.tb.setMap { s.tb.latest with state := .free, domain := 0 }
    else s.tb })

/-- The steering of the increment by one measured period of REF10M_IN (R57): towards the value at which the period is 100 ns. DESIGN CHOICE, log entry 10. -/
def Timebase.steerExt (tb : Timebase) (period : Int) : Timebase :=
  if tb.map.state = .holdover ∧ tb.cfg.holdExt ∧ 0 < period then
    let target : Rat := (tb.incr.toNat : Rat) * 800 / (period : Rat)
    let v := (tb.incr.toNat : Rat) + Config.ext10mGain tb.cfg.servoBw * (target - (tb.incr.toNat : Rat))
    if tb.cfg.incr = 0 then tb else tb.setIncr (tb.incrFor (v / (tb.cfg.incr.toNat : Rat) - 1))
  else tb

/-- REF10M_EDGE (R57). The first edge after a loss starts a new period. In Replay mode no stamper is used and the servo is idle (R43). -/
def execRef10mEdge (stamp : T64) (s : State) : Host.Outcome State Fault Refusal :=
  .next (if s.replaying then s else
    let steered := match s.tb.ref10m with
      | some prev => if s.tb.ref10mLost then s.tb else s.tb.steerExt (tDiff stamp prev)
      | none => s.tb
    { s with tb := { steered with ref10m := some stamp, ref10mLost := false } })

/-- REF10M_LOST (R57): no edge for 1 µs, while HOLDOVER steers to REF10M_IN; the increment keeps its value. -/
def execRef10mLost (s : State) : Host.Outcome State Fault Refusal :=
  let lost := s.tb.map.state == .holdover && s.tb.cfg.holdExt && !s.tb.ref10mLost && !s.replaying
    && (match s.tb.ref10m with | some t => elapsed s.tb.now t ticksPerUs | none => elapsed s.tb.now s.tb.holdAt ticksPerUs)
  .next (if lost then { s with tb := { s.tb with ref10mLost := true }, ev := s.ev.raise (evtOpen .ref10mLost tbIsland 0) } else s)

/-- The distance of a mapped time to the nearest whole second (R58). -/
def secondResidual (m : Nat) : Int :=
  let r := m % ticksPerSec
  if 2 * r < ticksPerSec then (r : Int) else (r : Int) - ticksPerSec

/-- PPS_IN_EDGE (R40, R58): the edge is stamped and never steers; its residual is a Grotto sample. In Replay mode no stamper is used (R43). -/
def execPpsInEdge (stamp : T64) (s : State) : Host.Outcome State Fault Refusal :=
  .next (if s.replaying then s else
    let r := secondResidual (s.tb.map.mapped stamp)
    { s.sample 5 0 r with tb := { s.tb with ppsStamp := some stamp, ppsResidual := r } })

/-- Device time of the next rise of PPS_OUT (R63): the first integer second of mapped time from `ppsFrom` on. DEDUCED, log entry 79. -/
def Timebase.ppsDue (tb : Timebase) : T64 :=
  let m := tb.map.mapped tb.ppsFrom
  tb.ppsFrom + tick ((ticksPerSec - m % ticksPerSec) % ticksPerSec)

/-- PPS_OUT_EDGE (R63). DESIGN CHOICE, log entry 2. -/
def execPpsOutEdge (s : State) : Host.Outcome State Fault Refusal :=
  s.gate (.next { s with
    tb :=
    if s.isl.allEnrolled then
      if s.tb.ppsHigh then
        (match s.tb.ppsRise with
        | some t => if elapsed s.tb.now t (s.tb.cfg.ppsWidthUs * ticksPerUs) then { s.tb with ppsHigh := false } else s.tb
        | none => s.tb)
      else if tReached s.tb.now s.tb.ppsDue then
        { s.tb with ppsHigh := true, ppsRise := some s.tb.ppsDue, ppsFrom := s.tb.ppsDue + 1 }
      else s.tb
    else s.tb })

/-- Scheduled device time of an edge of a trigger output in the frame open now (R62). -/
def Timebase.trigDue (tb : Timebase) (i : Fin 16) (pulse : Nat) (leading : Bool) : T64 :=
  let c := tb.cfg.trig[i]
  let sp := if c.spacing = 0 then tb.cfg.period / 2 else c.spacing
  tb.bn + tick (c.offset + pulse * sp + if leading then 0 else c.widthUs * ticksPerUs)

/-- The latest scheduled leading edge of a trigger output at or before a Frame Start stamp (R62, R124): the edge of the frame that the image
belongs to, among the pulses of the frames opened last; none where the output is disabled or has placed no such edge. DESIGN CHOICE, log entry 146. -/
def Timebase.trigLead (tb : Timebase) (i : Fin 16) (fs : T64) : Option T64 :=
  let c := tb.cfg.trig[i]
  let sp := if c.spacing = 0 then tb.cfg.period / 2 else c.spacing
  if !c.en then none else
  let edges := (match tb.frame with | some f => f :: tb.past | none => []).flatMap fun (f : Frame) =>
    if f.no.toNat % c.div = 0 then (List.range c.count).map fun k => f.b + tick (c.offset + k * sp) else []
  edges.foldl (fun (m : Option T64) t =>
    if tReached fs t then (match m with | some u => if tLater t u then some t else m | none => some t) else m) none

/-- Level that a trigger output drives (R62): POL's active level in a pulse, the inactive level otherwise and while it is disabled. -/
def Timebase.trigLevel (tb : Timebase) (i : Fin 16) : Bool := (tb.cfg.trig[i].en && tb.trigActive[i]) == tb.cfg.trig[i].activeHigh

/-- Place of an edge among the edges of its output in one frame: each leading edge is followed by its trailing one (R62). -/
def trigPlace (pulse : Nat) (leading : Bool) : Nat := 2 * pulse + if leading then 0 else 1

/-- TRIGGER_EDGE (R62, R40): the output's next edge at its scheduled device time; a leading edge is stamped as it comes back from the ball. -/
def execTriggerEdge (output : Fin 16) (pulse : Fin 8) (leading : Bool) (stamp : T64) (s : State) : Host.Outcome State Fault Refusal :=
  s.gate (let c := s.tb.cfg.trig[output]
  .next { s with tb :=
    if c.en ∧ pulse.val < c.count ∧ s.tb.frame.isSome ∧ s.tb.no.toNat % c.div = 0
        ∧ tReached s.tb.now (s.tb.trigDue output pulse leading) = true ∧ s.tb.trigEdges[output] = trigPlace pulse leading then
      { s.tb with
        trigActive := s.tb.trigActive.set output leading
        trigEdges := s.tb.trigEdges.set output (s.tb.trigEdges[output] + 1)
        trigStamp := if leading && !s.replaying then s.tb.trigStamp.set output stamp else s.tb.trigStamp }
    else s.tb })

/-- One time-transfer exchange, or a missing one (R64, R65): the unit's own marker with its stamp, and the stamps of the peer's reply with
what its TIME message carries. The peer is a source where its state is not OFF; its measured offset comes from the value of this exchange, also
while the mean is not valid. DESIGN CHOICE, log entry 168. -/
def Timebase.transfer (tb : Timebase) (tx : T64) (reply : Option (T64 × T64 × T64)) (peerMapOffset : Nat) (peerGm : GmAttrs) :
    Timebase × List Ev :=
  let tb := { tb with xferAt := some tb.now, markerTx := some tx }
  match reply with
  | none => ({ tb with xfer := [], peerValid := false }, [])
  | some (t2, t3, t4) =>
    let o : Rat := ((tDiff t2 tx - tDiff t4 t3 : Int) : Rat) / 2 - (tb.cfg.qanatAsym : Rat)
    let run := (o :: tb.xfer).take 64
    let full := run.length == 64
    let tb := { tb with
      xfer := run, xfers := bump tb.xfers, peerMapOff := peerMapOffset, markerRx := some t4
      peerValid := tb.peerValid || full
      peerOff := if full then BitVec.ofInt 64 (rneRat (run.foldl (· + ·) 0 / 64)) else tb.peerOff }
    let v := tb.source .peer
    if v.st = .off then (tb, [])
    else (tb.setSource .peer { v with lastSync := tb.now, syncs := bump v.syncs, gm := peerGm }).measure .peer t4
      (o + (peerMapOffset : Rat) - (tb.latest.offset : Rat))

/-- A sensor port may send a master message of a kind (R49): Sync at its interval, Follow_Up in two-step mode after its Sync, and the
answer to a request of the port's delay mechanism. DESIGN CHOICE, log entry 139. -/
def Timebase.ptpMay (tb : Timebase) (p : Fin 6) (k : PtpKind) : Bool :=
  let c := tb.cfg.sensorPort[p]
  let asked (peer : Bool) : Bool := match tb.ptpReq[p] with | some r => r.peer == peer | none => false
  match k with
  | .announce => true
  | .sync => (match tb.ptpSync[p] with | some (_, t) => elapsed tb.now t (logTicks c.logSync) | none => true)
  | .followUp => !c.oneStep && tb.ptpFollow[p]
  | .pdelayResp => c.peerToPeer && asked true
  | .pdelayRespFollowUp => !c.oneStep && tb.ptpResp[p].isSome
  | .delayResp => !c.peerToPeer && asked false

/-- sequenceId of a master message and the instant it serves (R49): a Follow_Up serves its Sync's or its answer's transmit stamp, an answer
the receive stamp of its request, every other message its own transmit stamp. -/
def Timebase.ptpServes (tb : Timebase) (p : Fin 6) (k : PtpKind) (t : T64) : BitVec 16 × T64 :=
  match k with
  | .announce => (tb.ptpAnnSeq[p], t)
  | .sync => (tb.ptpSeq[p], t)
  | .followUp => tb.ptpSync[p].getD (0, t)
  | .pdelayRespFollowUp => tb.ptpResp[p].getD (0, t)
  | .pdelayResp | .delayResp => match tb.ptpReq[p] with | some r => (r.seqId, r.rx) | none => (0, t)

/-- What the port keeps of a message it has sent (R49). -/
def Timebase.ptpAfter (tb : Timebase) (p : Fin 6) (k : PtpKind) (t : T64) : Timebase :=
  let two := !tb.cfg.sensorPort[p].oneStep
  match k with
  | .announce => { tb with ptpAnnSeq := tb.ptpAnnSeq.set p (tb.ptpAnnSeq[p] + 1) }
  | .sync => { tb with ptpSync := tb.ptpSync.set p (some (tb.ptpSeq[p], t)), ptpFollow := tb.ptpFollow.set p two
                       ptpSeq := tb.ptpSeq.set p (tb.ptpSeq[p] + 1) }
  | .followUp => { tb with ptpFollow := tb.ptpFollow.set p false }
  | .pdelayResp => { tb with ptpResp := tb.ptpResp.set p (if two then tb.ptpReq[p].map fun (r : PtpReq) => (r.seqId, t) else none)
                             ptpReq := tb.ptpReq.set p none }
  | .pdelayRespFollowUp => { tb with ptpResp := tb.ptpResp.set p none }
  | .delayResp => { tb with ptpReq := tb.ptpReq.set p none }

/-- PTP_MASTER_SEND (R49, R50, R51): a sensor port sends one of its master messages in its served domain; it serves mapped time. -/
def execPtpMasterSend (port : Fin 6) (kind : PtpKind) (tx : T64) (s : State) : Host.Outcome State Fault Refusal :=
  .next (if s.portUp ⟨8 + port.val, by omega⟩ && s.tb.ptpMay port kind then
    let t := tx + BitVec.ofInt 64 (s.tb.cfg.asymOut[port.val]!)
    let c := s.tb.cfg.sensorPort[port]
    let x := s.tb.ptpServes port kind t
    { s with tb := { s.tb.ptpAfter port kind t with
      ptpSent := s.tb.ptpSent.set port
        (some ⟨kind, c.transport, c.gptp, s.tb.cfg.sensorDomain, x.1, s.tb.announced, s.tb.map.mapped x.2, x.2⟩) } }
  else s)

/-- The frame that ends counts towards C2_CLEAR (R409): a verdict AGREE, and no C2 event. DEDUCED, log entry 23. -/
def State.countClear (s : State) : State :=
  { s with
    safety := { s.safety with clear := if s.c2 && s.weir.given == some .agree && !s.ev.c2InFrame then s.safety.clear + 1 else 0 }
    weir := { s.weir with given := none }
    ev := { s.ev with c2InFrame := s.ev.c2InFrame && s.safety.releaseDue } }

/-- FRAME_BOUNDARY (R60, R61, R483, R92): the frame whose boundary has come opens, and a capture may start at it; Channel B's cell states of the instant are kept for
the GRID message (R450), the flumes' occupancies are sampled, their OVERRUN is cleared and the ended frame counts towards C2_CLEAR. -/
def execFrameBoundary (s : State) : Host.Outcome State Fault Refusal :=
  s.gate (if s.tb.running ∧ tReached s.tb.now s.tb.nextB = true then
    let (tb, es) := s.tb.openFrame
    let s1 := s.countClear
    let s2 := (List.finRange 64).foldl (fun (s : State) h => if s.hgs[h].cfg.isSome then s.sample 3 h.val s.hgs[h].occ else s) s1
    .next { s2 with
      tb := tb, ev := s2.ev.raiseAll es
      hgs := s2.hgs.map fun (g : Headgate) => { g with overrun := false }
      capture := { s2.capture with startAt := if s2.captureReady then some s2.tb.now else none }
      cb := { s2.cb with snaps := (⟨tb.no, tb.bn, s2.cb.grid⟩ :: s2.cb.snaps).take 4 }
      pau := s2.pau.decideRefs (match tb.frame with | some f => f :: tb.past | none => []) (s2.pl.checked s2.pl.live) s2.pl.dead }
  else .next s)

end Sys2Proof.Machine
end

