-- ==== Sys2Proof/Machine/Publish.lean ====
section
/-! DEFINITION. Publication of a frame, the vehicle ports and the CAN safety messages (spec 19 R445 to R461). -/

namespace Sys2Proof.Machine

open Sys2Proof

/-- D_pub of frame n in µs (R447). -/
def State.dPub (s : State) (n : BitVec 64) : Nat := match s.seq.assembly n with | some (_, x) => x.deadline.toNat | none => s.out.cfg.s1Offset

/-- The next frame to publish: the oldest opened one after the latest published, whose publication lies after S1 entry.
DEDUCED, log entry 131. -/
def State.nextPublished (s : State) : Option Frame :=
  match s.tb.frame, s.bcc.s1At with
  | some f, some t1 =>
    (f :: s.tb.past).reverse.find? fun (x : Frame) =>
      (match s.out.published with | some n => decide (n.toNat < x.no.toNat) | none => true) && tReached (x.b + us (s.dPub x.no)) t1
  | _, _ => none

/-- Is a frame's publication here, and assembled (R447): at the completion of its 0x14 task, or at Bₙ + D_pub without it. -/
def State.publishes (s : State) (f : Frame) : Option Bool :=
  let due := tReached s.tb.now (f.b + us (s.dPub f.no))
  let without : Option Bool := if due then some false else none
  if s.safety.st = .safe then without
  else match s.seq.assembly f.no with
    | none => without
    | some (e, x) => match s.seq.find f.no e 0 with
      | some l =>
        -- a task late by DEADLINE_MISS alone is neither skipped nor aborted (R82)
        if l.doneAt.isSome ∧ l.aborted = false then some true
        else if (l.outcome = .running ∨ l.outcome = .deadlineMiss) ∧ l.aborted = false
            ∧ tLater s.tb.now (l.at_ + us x.maxRt.toNat + tick (s.shift f e)) = false then none
        else without
      | none => without

/-- The path records of a frame that pair with its tracks, how many do not (R341), and how many of all are not VALID (R340). S2 has no predicted paths
(R31), nor has a frame whose generation work did not complete (R339). DEDUCED, log entry 131. -/
def State.pairedPaths (s : State) (n : BitVec 64) : List Bytes × Nat × Nat :=
  if s.bcc.stage ≠ 3 ∨ (s.generationEntries n).isEmpty = true ∨ s.generationDone n = false then ([], 0, 0) else
  let ids := s.trk.tracks.map fun (k : Track) => k.id.toNat
  let all := s.pathRecords n
  let good := all.filter fun (x : Nat × Bytes × Bool) => ids.contains x.1
  (good.map fun (x : Nat × Bytes × Bool) => x.2.1, all.length - good.length, (all.filter fun (x : Nat × Bytes × Bool) => !x.2.2).length)

/-- TOV_n: the track time of a frame (R350). -/
def State.trackTov (s : State) (f : Frame) : T64 := f.b + us (s.trk.cfg.tovOffset.getD (s.tb.cfg.period / 2 / ticksPerUs))

/-- Publish a frame (R445 to R451, R340, R341): FRAME, GRID, then from S2 and when assembled TRACKS and POINTS. DEDUCED, log entry 131. -/
def State.publish (s : State) (f : Frame) (assembled : Bool) : State :=
  let n := f.no
  let s0 := s.keepDigest n
  let digest := s0.frameDigest n
  let scene := assembled && decide (2 ≤ s.bcc.stage.toNat)
  let tracked := s.tracksOf n
  let on (k : Fin 6) : Bool := scene && s.out.installed && s.out.cfg.stream[k].en
  let recs := if tracked && scene then s.trk.tracks.map fun (k : Track) => k.record s.trk.cfg n s.trk.tov else []
  let paths := if tracked && scene then s.pairedPaths n else ([], 0, 0)
  let wrong := paths.2.2
  let points := if on 3 then s.pointsBody n else []
  let normal := s.safety.st == .normal
  let lively := s.safety.st != .safe
  let e : Emission := { valid := lively, frame := n.setWidth 32, bn := f.b, basis := f.b, tov := (s.refRecord n).tov, digest := digest, body := [] }
  let s1 : State := { s0 with
    trk := { s0.trk with staleId := bumpBy s0.trk.staleId paths.2.1 }
    ev := if wrong = 0 then s0.ev else s0.ev.raise (evt .pathInvalid 14 0 wrong) }
  let s2 := s1.emit 0 { e with assembled := assembled
                               body := s1.frameBody n assembled (if on 2 then recs.length else 0) (if on 2 then paths.1.length else 0) (points.length / 64) }
  let snap : GridSnap := match s.cb.snaps.find? fun (x : GridSnap) => x.frame == n with | some x => x | none => ⟨n, f.b, {}⟩
  let s3 := s2.emit 1 { e with tov := f.b, basis := f.b - ms s.cb.cfg.seenAge, body := snap.body s.cb.cfg }
  let s4 := if scene then
      s3.emit 2 { e with valid := normal && tracked, tov := s.trackTov f, body := recs.flatten ++ paths.1.flatten }
    else s3
  let s5 := if scene then s4.emit 3 { e with valid := normal, body := points } else s4
  let d : Ndc := if s.replaying then { frame := n } else s.seq.ndcOf n
  ({ s5 with out := { s5.out with published := some n, assembled := assembled }, seq := { s5.seq with ndcDone := d } } : State).sample 10 0 (d.total : Nat)

/-! ### Vehicle ports -/

/-- Wire bytes of a fragment with its preamble: Ethernet, VLAN tag, R-TAG, IP and UDP headers, FCS, and MACsec's SecTAG with SCI and ICV. PRESUMED, log entry 24. DESIGN CHOICE, log entry 135. -/
def State.wireBytes (s : State) (p : Fin 2) (f : Fragment) : Nat :=
  let c := s.out.cfg.stream[f.msg.stream]
  let ip := if c.dstIp.length = 16 then 40 else 20
  let sec := if s.out.cfg.macsec[p].en then 32 else 0
  8 + max 64 (14 + 4 + (if f.rTag.isSome then 6 else 0) + sec + ip + 8 + (f.bytes s.out.cfg.fragBytes).length + 4)

/-- The answer that a queue has to send: those of PTP_QUEUE go before the queue's messages (R453). DEDUCED, log entry 132. -/
def State.controlHead (s : State) (p : Fin 2) (q : Fin 8) : Option (ControlFrame × List ControlFrame) :=
  if q = s.out.cfg.ptpQueue then (match s.out.port[p].control with | c :: l => some (c, l) | [] => none) else none

/-- Bytes, with their preamble, of the frame that a queue sends next. -/
def State.headBytes (s : State) (p : Fin 2) (q : Fin 8) : Option Nat :=
  if (s.controlHead p q).isSome then some controlBytes else (s.out.port[p].queues[q]).head?.map (s.wireBytes p)

/-- A queue's head can start now (R453): its gate is open until its last bit has left. DEDUCED, log entry 132. -/
def State.canStart (s : State) (p : Fin 2) (q : Fin 8) : Bool :=
  match s.headBytes p q, s.tb.frame with
  | some n, some fr => s.gateLets p q (s.portTicks p n) fr && s.lineRate p != 0
  | _, _ => false

/-- What a port keeps of a frame that starts now with `n` bytes: its transmit stamp (R40, R51), the time until it may send again, after the
inter-frame gap of 12 bytes, and the counts of frames and of protected frames (R452). -/
def State.startFrame (s : State) (p : Fin 2) (n : Nat) (tx : T64) (o : OutPort) : OutPort :=
  { o with
    txStamp := tx + BitVec.ofInt 64 (s.tb.cfg.asymOut[6 + p.val]!), busyUntil := s.tb.now + tick (s.portTicks p (n + 12)), txFrames := bump o.txFrames
    protectedFrames := if s.out.cfg.macsec[p].en then o.protectedFrames + 1 else o.protectedFrames }

/-- A vehicle port sends the first answer that waits (R49, R452, R453): an answer to a Pdelay_Req is two-step, so its Follow_Up waits next.
DESIGN CHOICE, log entry 139. -/
def State.sendControl (s : State) (p : Fin 2) (c : ControlFrame) (rest : List ControlFrame) (tx : T64) : State :=
  let o := s.startFrame p controlBytes tx s.out.port[p]
  let follow : List ControlFrame := match c with | .pdelayResp q => [.pdelayFollowUp q o.txStamp] | _ => []
  let replied : Bool := match c with | .answer _ => true | _ => false
  { s with
    out := { s.out with port := s.out.port.set p { o with control := follow ++ rest, controlSent := some c } }
    ports := { s.ports with eth := modAt s.ports.eth (⟨6 + p.val, by omega⟩ : Fin 8) fun (e : EthPort) => { e with replies := bumpIf replied e.replies } } }

/-- The frame that carries a fragment (R452, R454, R457): the VLAN tag with its PCP, then under 802.1CB the R-TAG of EtherType 0xF1C1, and UDP from port
SRC_UDP + s. -/
def State.txFrame (s : State) (p : Fin 2) (f : Fragment) : TxFrame :=
  let c := s.out.cfg.stream[f.msg.stream]
  let e := s.out.cfg.eth[p]
  let m := s.out.cfg.macsec[p]
  { dstMac := c.dstMac, srcMac := e.mac
    tags := beBytes 2 0x8100 ++ beBytes 2 (c.pcp * 8192 + c.vlan)
      ++ (match f.rTag with | some t => beBytes 2 0xF1C1 ++ [0, 0] ++ beBytes 2 t.toNat | none => [])
    sec := if m.en then some ⟨m.sci, s.out.port[p].protectedFrames + 1, m.confidential⟩ else none
    dstIp := c.dstIp, srcIp := if c.dstIp.length = 16 then beBytes 16 e.ip6.toNat else beBytes 4 e.ip4.toNat
    srcUdp := s.out.cfg.srcUdp + f.msg.stream.val, dstUdp := c.dstUdp, payload := f.bytes s.out.cfg.fragBytes }

/-- Discard the fragments of one message from a queue. -/
def dropMessage (q : List Fragment) (m : OutMsg) : List Fragment := q.filter fun (f : Fragment) => f.msg != m

/-- The messages that a queue holds, each once. -/
def queuedMessages (q : List Fragment) : List OutMsg :=
  (q.map fun (f : Fragment) => f.msg).foldr (fun (m : OutMsg) (l : List OutMsg) => if l.contains m then l else m :: l) []

/-- TX_MAX_AGE of a stream in ticks (R457). -/
def State.txMaxAge (s : State) (k : Fin 6) : Nat :=
  match s.out.cfg.stream[k].txMaxAge with | some u => u * ticksPerUs | none => s.tb.cfg.period

/-- A vehicle port loses its link: its copies are discarded and counted (R455). DEDUCED, log entry 132. -/
def OutPort.cut (o : OutPort) : OutPort :=
  let n := o.queues.toList.foldl (fun (a : Nat) (q : List Fragment) => a + (queuedMessages q).length) 0
  { o with queues := Vector.replicate 8 [], control := [], linkDownDrop := bumpBy o.linkDownDrop n }

/-! ### CAN safety messages -/

/-- What an SM0 reports now (R458, R459). -/
def State.sm0Now (s : State) : Sm0State :=
  { stage := s.bcc.stage, cls := s.reported, safety := BitVec.ofNat 2 s.safety.st.code, pair := s.pairCode, role := BitVec.ofNat 2 s.qnt.role.code
    safeOk := s.safety.raised && !s.safety.latchA && !s.safety.latchB }

/-- Messages are sent (R460): from S1, not in Replay mode. -/
def State.canSafeOn (s : State) : Bool := s.enrolled && s.bcc.stage != 0 && !s.replaying

/-- Identifier of a safety message (R458, R463): the image's, or 0x010 or 0x011 with twice the strap. -/
def State.safetyId (s : State) (m : Fin 2) : CanId :=
  (if m = 0 then s.out.can.idState else s.out.can.idGuard).getD { id := BitVec.ofNat 29 (0x10 + m.val + 2 * s.twinId.toNat) }

/-- DATA_ID of a safety message (R459, R463): the image's, or the message's identifier. DEDUCED, log entry 131. -/
def State.safetyDataId (s : State) (m : Fin 2) : Word :=
  (if m = 0 then s.out.can.dataIdState else s.out.can.dataIdGuard).getD ((s.safetyId m).id.setWidth 32)

/-- The 32 bytes of a copy (R459). SNAP_K of an SM1 is the K of its guard word. DESIGN CHOICE, log entry 133. -/
def State.canPayload (s : State) (m : Fin 2) (counter : BitVec 8) (fresh : Bool) (cause : Word) : Bytes :=
  let x := s.sm0Now
  let w : GuardWord := match s.guard.word with | some w => w | none => {}
  let k := if m = 0 then s.tb.now.toNat / ticksPerUs else w.k.toNat
  let head := packBytes 12 [(4, 1), (4, m.val), (8, counter.toNat), (2, x.stage.toNat), (3, x.cls.toNat), (2, x.safety.toNat), (4, x.pair.toNat),
    (2, x.role.toNat), (1, s.twinId.toNat), (1, x.safeOk.toNat), (1, fresh.toNat), (64, k)]
  let tail := if m = 0 then packBytes 16 [(32, cause.toNat)]
    else packBytes 16 [(16, w.vFwd.toNat), (16, w.vRev.toNat), (16, w.kappaLo.toNat), (16, w.kappaHi.toNat), (1, w.valid.toNat), (1, w.crossChecked.toNat),
      (3, w.limit.code)]
  let b := head ++ tail
  b ++ leBytes 4 (crc32c (leBytes 4 (s.safetyDataId m).toNat ++ b))

/-- Queue a build on one channel (R460, R461): it replaces an unsent older copy; nothing is queued in bus-off. DESIGN CHOICE, log entry 133. -/
def State.queueCan (s : State) (c : Fin 2) (m : Fin 2) (cause : Word) : State :=
  if s.ports.can[2 + c.val].st = .busOff then s else
  let o := s.out.chan[c]
  let bytes := s.canPayload m o.counter[m] (m == 0 && o.freshDue) cause
  { s with out := { s.out with chan := s.out.chan.set c { o with buf := o.buf.set m (some (bytes, s.tb.now)), counter := o.counter.set m (o.counter[m] + 1) } } }

/-- Every build is queued on both channels. -/
def State.buildCan (s : State) (m : Fin 2) (cause : Word) : State := (s.queueCan 0 m cause).queueCan 1 m cause

/-- SEQ [31:0] of the event behind a change: the newest numbered event of the kinds given, none of which may still wait. DESIGN CHOICE, log entry 61. -/
def Sluice.causeOf (q : Sluice) (f : EvKind → FaultClass → Bool) : Word :=
  if q.intake.toList.any fun (l : List Ev) => l.any fun (e : Ev) => f e.kind e.cls then Config.causeSeq q.next
  else match q.ring.find? fun (r : EvRecord) => f r.kind r.cls with
    | some r => r.seq.setWidth 32
    | none => Config.causeSeq q.next

/-- The cause of an SM0 by what has changed (R459). DESIGN CHOICE, log entry 61. -/
def State.sm0Cause (s : State) (old new : Sm0State) : Word :=
  if old.safety ≠ new.safety ∨ old.safeOk ≠ new.safeOk then s.ev.causeOf fun k _ => k == .safetyState || k == .c2Release
  else if old.stage ≠ new.stage then s.ev.causeOf fun k _ => k == .stageEntry
  else if old.role ≠ new.role then s.ev.causeOf fun k _ => k == .roleChange
  else if old.pair ≠ new.pair then
    s.ev.causeOf fun k _ => [EvKind.twinLinkUp, .twinLinkLost, .twinPeerUnknown, .twinUnmatched, .twinResync, .twinPeerSafe, .twinCrossChecked, .twinDisagree].contains k
  else s.ev.causeOf fun _ c => c != .none

end Sys2Proof.Machine
end

