-- ==== Sys2Proof/Machine/TwinOps.lean ====
section
/-! DEFINITION. The Qanat link: cells, messages, pair states and the cross-check (spec 18_twin_operation). -/

namespace Sys2Proof.Machine

open Sys2Proof

/-- The type code of a message (R430). -/
def QMsg.code : QMsg → Nat
  | .idle => 0 | .hello _ => 1 | .time _ => 2 | .guard _ => 3 | .status _ => 4 | .xcheck _ => 5

/-- Island of the Qanat block (R428). -/
def qntIsland : Nat := 136

/-- The Qanat block works: outside Replay mode, with its islands powered and enrolled (R85, R112). -/
def State.twinLive (s : State) : Bool :=
  s.enrolled && !s.replaying && s.isl.powered[136] && s.isl.enrolled[136] && s.isl.powered[137] && s.isl.enrolled[137]

/-! ### Cells (R429) -/

/-- One cell. -/
def cellBytes (type session seq part parts : Nat) (payload : Bytes) : Bytes :=
  let b := packBytes 8 [(4, 1), (4, type), (8, session), (16, seq), (4, part), (4, parts - 1), (24, 0)] ++ padTo 52 payload
  b ++ leBytes 4 (crc32c b)

/-- The cells of a message's payload. -/
def messageCells (type session seq : Nat) (payload : Bytes) : List Bytes :=
  let n := max 1 ((payload.length + 51) / 52)
  (List.range n).map fun i => cellBytes type session seq i n (slice payload (52 * i) 52)

/-- Payload of a message (R430). DESIGN CHOICE, log entry 59. -/
def QMsg.payload : QMsg → Bytes
  | .idle => []
  | .time t => (Config.timeBytes t).take 52
  | .hello h => (Config.helloBytes h).take 52
  | .guard w => w
  | .status x => (Config.statusBytes x).take 52
  | .xcheck r => r

/-- Time of a cell on the link in ticks: 8.125 ns (R428). -/
def cellTicks : Nat := 65

/-- The line is free of the messages given to it. -/
def Qanat.lineFree (q : Qanat) : T64 := q.sentAt + tick (match q.sent with | some x => cellTicks * x.2.length | none => 0)

/-- IDLE cells sent since, one after another, the one on the line at that instant among them (R430). -/
def Qanat.idles (q : Qanat) (now : T64) : Nat := ((tDiff now q.lineFree).toNat + cellTicks - 1) / cellTicks

/-- The session that the unit's cells carry (R431). -/
def Qanat.ownSession (q : Qanat) : Nat := match q.session with | some x => x.toNat | none => 0

/-- Send a message (R429): behind the messages given before it, and behind the IDLE cell on the line. -/
def Qanat.send (q : Qanat) (m : QMsg) (now : T64) : Qanat :=
  let c : Fin 16 := ⟨m.code % 16, Nat.mod_lt _ (by decide)⟩
  let k := q.idles now
  { q with sent := some (m, messageCells m.code q.ownSession q.seqs[c].toNat m.payload), sentAt := q.lineFree + tick (cellTicks * k)
           seqs := (q.seqs.set c (q.seqs[c] + 1)).set 0 (q.seqs[0] + BitVec.ofNat 16 k) }

/-- The cell on the line at an instant after the start of the latest message (R428 to R430): that message's cells, then IDLE cells; none while the
link is down. DESIGN CHOICE, log entry 59. -/
def Qanat.lineCell (q : Qanat) (t : T64) : Option Bytes :=
  let i := (tDiff t q.sentAt).toNat / cellTicks
  let cells := match q.sent with | some x => x.2 | none => []
  if !q.linkUp || decide (tDiff t q.sentAt < 0) then none
  else match cells[i]? with
    | some b => some b
    | none => some (cellBytes 0 q.ownSession ((q.seqs[0].toNat + (i - cells.length)) % 65536) 0 1 QMsg.idle.payload)

/-! ### The cross-check record (R441) -/

/-- Bytes of the record. -/
def XRecord.bytes (r : XRecord) : Bytes :=
  packBytes 32 [(4, 1), (1, r.tableValid.toNat), (1, r.tracksValid.toNat), (6, r.kbins), (5, r.tracks.length), (15, 0), (64, r.bn.toNat), (32, r.frame.toNat), (128, 0)]
    ++ leBytes 128 r.grid.toNat
    ++ ((List.range 33).flatMap fun i => let e := r.stop.getD i (0, 0); leBytes 2 e.1 ++ leBytes 2 e.2)
    ++ (List.range 16).flatMap fun j => let t := r.tracks.getD j (0, 0); leBytes 2 (codeInt 16 t.1) ++ leBytes 2 (codeInt 16 t.2)

/-- The record from its bytes. -/
def XRecord.ofBytes (b : Bytes) : XRecord :=
  { tableValid := fieldOf b 4 1 == 1, tracksValid := fieldOf b 5 1 == 1, kbins := fieldOf b 6 6, bn := BitVec.ofNat 64 (fieldOf b 32 64)
    frame := BitVec.ofNat 32 (fieldOf b 96 32), grid := BitVec.ofNat 1024 (leNat (slice b 32 128))
    stop := (List.range (min 33 (fieldOf b 6 6))).map fun i => (leNat (slice b (160 + 4 * i) 2), leNat (slice b (162 + 4 * i) 2))
    tracks := (List.range (min 16 (fieldOf b 12 5))).map fun j => (signedNat 16 (leNat (slice b (292 + 4 * j) 2)), signedNat 16 (leNat (slice b (294 + 4 * j) 2))) }

/-- Grid signature at the reference pose of a frame (R442): the cells whose centre may lie in the 32 × 32 coarse cells are visited.
DEDUCED, log entry 130. -/
def gridSignature (c : CbCfg) (x : GridSnap) (ref : PoseRec) : BitVec 1024 :=
  let cell : Rat := (c.cell : Rat) / 100
  let cs := cosR ref.heading
  let sn := sinR ref.heading
  let i0 := c.index ref.x.toInt
  let j0 := c.index ref.y.toInt
  let bits : Nat := (List.range 185).foldl (fun (a u : Nat) => (List.range 185).foldl (fun (a v : Nat) =>
    let i : Int := i0 - 92 + (u : Int)
    let j : Int := j0 - 92 + (v : Int)
    let dx := ((i : Rat) + 1 / 2) * cell - lVal ref.x
    let dy := ((j : Rat) + 1 / 2) * cell - lVal ref.y
    let r := ((cs * dx + sn * dy) / (4 * cell)).floor + 16
    let k := ((cs * dy - sn * dx) / (4 * cell)).floor + 16
    if 0 ≤ r ∧ r < 32 ∧ 0 ≤ k ∧ k < 32 ∧ x.grid.state c x.t i j ≠ .free then a ||| 2 ^ (32 * r.toNat + k.toNat) else a) a) 0
  BitVec.ofNat 1024 bits

/-- A track's coordinate in cm, S16 saturating (R441). DEDUCED, log entry 130. -/
def trackCm (w : Word) : Int := match f32Val w with | .nan => 0 | .inf g => if g then -32768 else 32767 | v => satInt 16 (rneRat (v.rat * 100))

/-- CONFIRMED tracks in ascending ρ² (R249), then slot, up to 16 (R442). -/
def xcTracks (ts : List Track) : List (Int × Int) :=
  let before (a b : Track) : Bool := decide (a.rho < b.rho) || (a.rho == b.rho && decide (a.slot ≤ b.slot))
  (((ts.filter fun (t : Track) => t.st == .confirmed).mergeSort before).take 16).map fun (t : Track) => (trackCm t.x, trackCm t.y)

/-- The unit's record of frame n, the latest published (R441, R442, R447). DEDUCED, log entry 130. -/
def State.xRecord (s : State) (f : Frame) : XRecord :=
  let snap : GridSnap := match s.cb.snaps.find? fun (x : GridSnap) => x.frame == f.no with | some x => x | none => ⟨f.no, f.b, {}⟩
  let table := s.cb.recent.reverse.find? fun (t : StopTable) => tReached t.t f.b
  let tracks := s.tracksOf f.no && s.out.assembled && decide (2 ≤ s.bcc.stage.toNat) && !s.c2 && !s.c3
  { tableValid := table.isSome, tracksValid := tracks, kbins := match table with | some t => t.kbins | none => 0
    bn := f.b, frame := f.no.setWidth 32, grid := gridSignature s.cb.cfg snap (s.refRecord f.no)
    stop := match table with | some t => t.entries | none => []
    tracks := if tracks then xcTracks s.trk.tracks else [] }

/-- Do two rows of distances agree within a bound. -/
def stopsAgree (lim : Nat) (a b : List (Nat × Nat)) : Bool :=
  (List.zip a b).all fun p => decide (((p.1.1 : Int) - p.2.1).natAbs ≤ lim) && decide (((p.1.2 : Int) - p.2.2).natAbs ≤ lim)

/-- Do two track lists agree (R443). -/
def tracksAgree (c : QanatCfg) (a b : List (Int × Int)) : Bool :=
  let near (x y : Int × Int) : Bool := decide ((x.1 - y.1).natAbs ≤ c.xcTrackCm) && decide ((x.2 - y.2).natAbs ≤ c.xcTrackCm)
  let (short, long) := if a.length ≤ b.length then (a, b) else (b, a)
  decide (long.length - short.length ≤ c.xcTrackDiff) && short.all fun x => long.any fun y => near x y

/-- Set bits of a signature. -/
def onesOf (v : BitVec 1024) : Nat := (List.range 1024).foldl (fun (n : Nat) i => if v.getLsbD i then n + 1 else n) 0

/-- The failing parts of a comparison: bit 0 GRID, bit 1 STOP, bit 2 TRACKS (R443). -/
def failingParts (c : QanatCfg) (a b : XRecord) : BitVec 3 :=
  let grid := decide (onesOf (a.grid ^^^ b.grid) ≤ c.xcGridBits)
  let stop := if a.tableValid && b.tableValid then stopsAgree c.xcFreeMm a.stop b.stop else !a.tableValid && !b.tableValid
  let trk := !c.xcTracks || !a.tracksValid || !b.tracksValid || tracksAgree c a.tracks b.tracks
  BitVec.ofNat 3 ((!grid).toNat + 2 * (!stop).toNat + 4 * (!trk).toNat)

/-! ### Pair states (R438) -/

/-- The linked states. -/
def PairSt.linked : PairSt → Bool
  | .joining | .rejoining | .crossChecked | .disagree | .unmatched | .peerSafe => true
  | _ => false

/-- The peer's alive is seen (R433). -/
def Qanat.aliveSeen (q : Qanat) (now : T64) : Bool :=
  match q.aliveIn with | some t => !(elapsed now t (q.cfg.aliveTimeout * ticksPerUs)) | none => false

/-- The epoch digest (R439). DESIGN CHOICE, log entry 60. -/
def State.epoch (s : State) : Bytes :=
  (sha256 (Config.epochBytes s.tb.announced.identity s.tb.cfg.framePeriodMs s.tb.cfg.framePhaseUs)).take 16

/-- The selected image's OVYAR_MIN and OVYAR_MAX (R97). -/
def Bcc.ovyar (b : Bcc) : Nat × Nat :=
  match b.slot with
  | some k => (match b.slots[k].header with | some m => (m.ovyarMin, m.ovyarMax) | none => (0, 0))
  | none => (0, 0)

/-- Why a pair cannot cross-check: 1 straps, 2 image digests, 3 operating level (R438, R110); 0 where it can. The device level is 1. DEDUCED, log entry 130. -/
def State.unmatchedBy (s : State) (h : Hello) : Nat :=
  let op := min 1 h.level
  let own := s.bcc.ovyar
  if h.twinId = s.twinId then 1
  else if h.digest ≠ s.bcc.imageDigest then 2
  else if op < own.1 ∨ own.2 < op ∨ op < h.ovyarMin ∨ h.ovyarMax < op then 3
  else 0

/-- A pair state that STATUS reports as linked (R437). -/
def linkedCode (c : BitVec 4) : Bool := c == 2 || c == 3 || c == 4 || c == 5 || c == 6 || c == 9

/-- The join conditions (R439). -/
def State.joins (s : State) : Bool :=
  let q := s.qnt
  (match q.hello with | some h => s.unmatchedBy h == 0 | none => false)
    && s.tb.peerValid
    && (match q.peerStatus with | some x => linkedCode x.pair && x.epoch == s.epoch | none => false)
    && (match q.results with | a :: b :: _ => a == 0 && b == 0 | _ => false)

/-- The cross-check is lost (R438, last row): the peer offset, the epoch digests or the count of frames not compared. -/
def State.resyncs (s : State) : Bool :=
  !s.tb.peerValid || (match s.qnt.peerStatus with | some x => x.epoch != s.epoch | none => false) || decide (s.qnt.cfg.xcMiss ≤ s.qnt.missRun)

/-- Enter a pair state with its event; results of comparisons count from the entry to JOINING and REJOINING. DEDUCED, log entry 128. -/
def State.toPair (s : State) (p : PairSt) (e : Ev) : State :=
  let fresh := p = .joining ∨ p = .rejoining
  { s.keepCopies with
    qnt := { s.qnt with pair := p, results := if fresh then [] else s.qnt.results, failRun := if fresh then 0 else s.qnt.failRun
                        missRun := if fresh then 0 else s.qnt.missRun }
    ev := s.ev.raise e }

/-- One evaluation of R438: the rows without a loss, in order; the first that applies is taken. DEDUCED, log entry 128. -/
def State.evalPair (s : State) : State :=
  let q := s.qnt
  if !q.installed || !q.cfg.twin then s else
  let p := q.pair
  let up := q.linkUp && q.helloSeen
  if p = .seeking ∧ up = true then s.toPair .joining (evtOpen .twinLinkUp qntIsland 0)
  else if (p = .lostAlive ∨ p = .unknown) ∧ up = true then s.toPair .rejoining (evtOpen .twinLinkUp qntIsland 0)
  else if p.linked ∧ p ≠ .peerSafe ∧ q.guardFresh = true ∧ fieldOf q.peerGuard 8 3 = 4 then s.toPair .peerSafe (evtOpen .twinPeerSafe qntIsland 0)
  else
    let bad := match q.hello with | some h => s.unmatchedBy h | none => 0
    if (p = .joining ∨ p = .rejoining) ∧ bad ≠ 0 then s.toPair .unmatched (evt .twinUnmatched qntIsland 0 bad)
    else if (p = .joining ∨ p = .rejoining ∨ p = .disagree) ∧ s.joins = true then s.toPair .crossChecked (evtOpen .twinCrossChecked qntIsland 0)
    else if p = .crossChecked ∧ q.cfg.xcFail ≤ q.failRun then
      s.toPair .disagree (evt .twinDisagree qntIsland 0 (match q.results with | x :: _ => x.toNat | [] => 0))
    else if (p = .crossChecked ∨ p = .disagree) ∧ s.resyncs = true then s.toPair .rejoining (evtOpen .twinResync qntIsland 0)
    else s

/-- The link goes down (R428). -/
def Qanat.down (q : Qanat) : Qanat :=
  { q with linkUp := false, helloSeen := false, reported := none, bothSince := none, conflict := false, partial_ := [], linkLosses := bumpIf q.linkUp q.linkLosses }

/-! ### What a complete message does -/

/-- Both units report PRIMARY in a STATUS of this link-up: since when (R436). -/
def Qanat.judgeRoles (q : Qanat) (now : T64) : Qanat :=
  let both := q.linkUp && tReached q.peerStatusAt q.linkAt && q.reported == some .primary && (match q.peerStatus with | some x => x.role == .primary | none => false)
  if both then { q with bothSince := match q.bothSince with | some t => some t | none => some now } else { q with bothSince := none, conflict := false }

/-- A complete message of the peer (R431, R432, R443). -/
def State.takeMessage (s : State) (type : Nat) (session : BitVec 8) (payload : Bytes) (c : Cell) : State :=
  let q := s.qnt
  match type with
  | 1 => match c.hello with
    | some h =>
      -- a HELLO of the session before the link loss is left over (R431); 0 may be a session of a unit reset since
      if !q.helloSeen && session != 0 && q.peerSession == some session then s
      else { s with qnt := { q with hello := some h, helloSeen := true, peerSession := some session } }
    | none => s
  | 3 =>
    let k := fieldOf payload 32 32 + fieldOf payload 512 32 * 2 ^ 32
    let gap := match q.peerK with | some p => k != p + 1 | none => false
    { s with qnt := { q with peerGuard := payload.take 80, peerK := some k, guardFresh := true, wordGap := bumpIf gap q.wordGap } }
  | 4 => match c.status with
    | some x => { s with qnt := ({ q with peerStatus := some x, peerStatusAt := s.tb.now } : Qanat).judgeRoles s.tb.now }
    | none => s
  | 5 => { s with qnt := { q with peer := (⟨XRecord.ofBytes payload, s.tb.now, false, s.tb.peerValid⟩ :: q.peer).take 16 } }
  | _ => s

/-- Put a cell's payload to its message (R429): the message once its last cell has come. A cell that does not continue its type's message discards it;
cells of other types may come between. DEDUCED, log entry 127. -/
def Qanat.assemble (q : Qanat) (type seq part parts : Nat) (payload : Bytes) : Qanat × Option Bytes :=
  let others := q.partial_.filter fun (x : Partial) => x.type != type
  if parts = 0 then (q, some payload)
  else if part = 0 then ({ q with partial_ := ⟨type, seq, parts, 1, payload⟩ :: others }, none)
  else
    match q.partial_.find? fun (x : Partial) => x.type == type with
    | some x =>
      if x.seq = seq ∧ x.parts = parts ∧ x.next = part then
        if part = parts then ({ q with partial_ := others }, some (x.bytes ++ payload))
        else ({ q with partial_ := { x with next := part + 1, bytes := x.bytes ++ payload } :: others }, none)
      else ({ q with partial_ := others }, none)
    | none => (q, none)

/-- The comparison of R443: an own record and the peer's record of the same frame, both unused, with the conditions on their arrival. -/
def State.xPair (s : State) (o : XHeld) : Option XHeld :=
  let off := s.tb.peerOff
  s.qnt.peer.find? fun (p : XHeld) =>
    let later := if tLater p.at_ o.at_ then p else o
    !p.used && decide ((tDiff (p.r.bn - off) o.r.bn).natAbs ≤ s.qnt.cfg.xcSkew * ticksPerUs) && later.offset
      && !(tLater later.at_ (o.at_ + tick (s.qnt.cfg.xcWait * s.tb.cfg.period)))

end Sys2Proof.Machine
end

