-- ==== Sys2Proof/Machine/ObsOps.lean ====
section
/-! DEFINITION. What BAR0 shows: the registers of every block and the configuration windows (spec 22 R497 to R519). -/

namespace Sys2Proof.Machine

open Sys2Proof

/-- A span of BAR0 inside its block: offset, bytes, and whether it is a record register (R501). -/
structure Span where
  off : Nat
  bytes : Bytes
  record : Bool := false
deriving DecidableEq, Repr

/-- A word of named fields. -/
def reg (off : Nat) (fs : List (Nat × Nat)) : Span := ⟨off, packBytes 4 fs, false⟩

/-- A row of counters, 4 bytes apart (R500). -/
def counters (off : Nat) (ws : List Word) : Span := ⟨off, ws.flatMap fun w => leBytes 4 w.toNat, false⟩

/-- A record register. -/
def recReg (off : Nat) (bs : Bytes) : Span := ⟨off, bs, true⟩

/-- A 64-bit record register. -/
def rec64 (off : Nat) (v : BitVec 64) : Span := recReg off (leBytes 8 v.toNat)

/-- Bytes of an event record (R74). -/
def EvRecord.bytes (r : EvRecord) : Bytes :=
  packBytes 32 [(48, r.seq.toNat), (8, r.island), (12, (Config.eventCode r.kind).toNat), (3, r.cls.code), (3, 1), (6, 0), (16, r.inst), (32, r.data.toNat), (64, r.too.toNat)]

/-- Level-1 values of the capability table (R294). -/
def capabilities : List Nat :=
  [1, 4, 4, 16, 256, 128, 512, 1024, 128, 256, 4, 64, 7340032, 32, 4194304, 2, 6, 16777215, 7, 4, 4, 6, 64, 0x7FFF, 134217728, 64, 1000, 144]

/-- Identity (R505). DESIGN CHOICE, log entry 46. -/
def State.identitySpans (s : State) : List Span :=
  [reg 0 [(16, 0x8840), (16, 0x4A4D)], reg 4 [(8, 0xB0), (1, Config.gradeE.toNat), (1, s.twinId.toNat)], rec64 8 Config.serial,
   reg 0x100 [(4, 1), (8, 28)], ⟨0x104, capabilities.flatMap (leBytes 4), false⟩]

/-- LOAD_RESULT's code (R506). -/
def LoadResult.code : LoadResult → Nat | .reading => 0 | .complete => 1 | .noCandidate => 2 | .sectionFail => 3 | .c3 => 4

/-- BCC (R506). -/
def State.bccSpans (s : State) : List Span :=
  let b := s.bcc
  let m : Manifest := match b.slot with | some k => (match b.slots[k].header with | some m => m | none => {}) | none => {}
  [reg 0 [(2, b.stage.toNat), (1, (b.result != .reading).toNat), (1, match b.slot with | some k => k.val | none => 0), (4, b.slots[0].fail.toNat),
     (4, b.slots[1].fail.toNat), (3, b.result.code), (1, b.svnCommitted.toNat), (7, b.otp.rollback), (7, m.svn)],
   reg 4 [(10, b.last.getD 0x3FF), (10, b.failed.getD 0x3FF), (4, b.reason.toNat)],
   reg 8 [(4, b.otp.revoked.toNat), (1, b.otp.imageKey.isSome.toNat)], counters 0xC [b.readBytes],
   recReg 0x20 (match b.slot with | some _ => padTo 32 b.imageDigest | none => List.replicate 32 0), recReg 0x40 (padTo 16 m.buildId)]

/-- Timebase (R507). -/
def State.tbSpans (s : State) : List Span :=
  let t := s.tb
  let off (x : Src) : BitVec 64 := BitVec.ofInt 64 (rneRat (t.source x).offset)
  [reg 0 [(3, t.src[0].st.code), (3, t.src[1].st.code), (3, t.src[2].st.code), (1, t.peerValid.toNat)],
   recReg 0x10 t.map.bytes, rec64 0x20 t.now, rec64 0x28 (off .a), rec64 0x30 (off .b), rec64 0x38 t.peerOff,
   rec64 0x40 t.src[0].gm.identity, rec64 0x48 t.src[1].gm.identity, counters 0x50 [t.src[0].syncs, t.src[1].syncs, t.xfers]]

/-- Sluice (R508). -/
def State.sluiceSpans (s : State) : List Span :=
  let q := s.ev
  [recReg 0 (leBytes 8 q.next.toNat), reg 8 [(32, q.ack.toNat % 2 ^ 32)], reg 0xC [(16, q.ack.toNat / 2 ^ 32)], reg 0x10 [(1, q.irqLow.toNat)],
   counters 0x14 [q.eventsLost, q.ties, q.ringWr]]

/-- Grotto (R493). -/
def State.grottoSpans (s : State) : List Span :=
  let g := s.grt
  let full := ((List.finRange 64).filter fun (i : Fin 64) => g.mon[i].isFull g.cfg[i]).length
  let frozen := g.frozen s.tb.now
  [reg 0 [(1, frozen.toNat)], reg 4 [(1, frozen.toNat), (1, (g.expired || (g.freeze.isSome && !frozen)).toNat), (7, full)], reg 8 [(6, g.cursor.val)],
   ⟨0x100, g.mon[g.cursor].bytes g.cfg[g.cursor] g.cursor.val, false⟩]

/-- Headgate h (R510, R483). -/
def Headgate.spans (g : Headgate) (h : Nat) : List Span :=
  let level := match g.cfg with | some c => c.flumeLevel != 0 && decide (c.flumeLevel ≤ g.occ) | none => false
  let b := 0x100 * h
  [reg b [(4, g.st.code), (8, g.reason.toNat), (8, g.conf.toNat), (4, g.epoch.toNat), (8, g.failRun.toNat)], reg (b + 4) [(16, g.itemNo.toNat)],
   reg (b + 8) [(21, g.occ), (1, g.full.toNat), (1, g.overrun.toNat), (1, level.toNat)],
   counters (b + 0x10) [g.checkFail, g.parseFail, g.staleId, g.repeats, g.resyncDrop, g.timeReject, g.rangeFail, g.slewFail, g.late, g.rangeDrop, g.lost,
     g.flumeOverrun, g.flumeUe, g.levelCross, g.accepted],
   rec64 (b + 0x50) (match g.lastTov with | some t => t | none => 0)]

/-- CAN state code (R511). -/
def CanSt.code : CanSt → Nat | .active => 0 | .passive => 1 | .busOff => 2

/-- Configuration bus state code (R511). -/
def BusSt.code : BusSt → Nat | .idle => 0 | .recovering => 1 | .stuck => 2 | .dead => 3

/-- CAN error word (R511, R517). -/
def CanPort.errWord (c : CanPort) : List (Nat × Nat) := [(8, c.tec.toNat), (8, c.rec_.toNat), (2, c.st.code)]

/-- Port i (R511). DESIGN CHOICE, log entry 191. -/
def State.portSpans (s : State) (i : Nat) : List Span :=
  let b := 0x4000 + 0x100 * i
  let p := s.ports
  let st (en link : Bool) : Span := reg b [(1, en.toNat), (1, (en && link).toNat)]
  if h : i < 8 then
    let c := p.csi[i]
    [st c.cfg.isSome c.inSync, counters (b + 0x10) [c.eccCorr, c.eccFail, c.noLs, c.unclaimed]]
  else if h : i < 16 then
    let e := p.eth[i - 8]
    if i < 14 then [st e.cfg.isSome e.link, counters (b + 0x10) [e.fcsErr, e.oversize, e.frag, e.unclaimed]] else [st e.cfg.isSome e.link]
  else if h : i < 20 then
    let x := p.spi[i - 16]
    [st x.cfg.isSome true, reg (b + 4) [(1, x.initOk.toNat)], counters (b + 0x10) [x.drdyOverrun, x.bursts]]
  else if h : i < 28 then
    let e := p.enc[i - 20]
    [st e.cfg.isSome true, reg (b + 4) [(24, e.count.toNat)], counters (b + 0x10) [e.glitch, e.encIllegal, e.encIndex, e.edges]]
  else if h : i < 32 then
    let c := p.can[i - 28]
    [st c.cfg.isSome (c.st != .busOff), reg (b + 4) c.errWord, counters (b + 0x10) [c.framesRx, c.errorFrames, c.busOffs, c.unclaimed]]
  else if h : i < 34 then
    let x := p.bus[i - 32]
    [st x.cfg.isSome false, reg (b + 4) [(2, x.st.code), (4, x.retries), (8, x.step), (1, x.scriptFail.toNat)],
     counters (b + 0x10) [x.nacks, x.stretchTimeouts, x.recoveries, x.ibiNack]]
  else []

/-- Pose Ladder (R512). DESIGN CHOICE, log entry 191. -/
def State.poseSpans (s : State) : List Span :=
  let p := s.pl
  -- PL_LIVE is 0 until a live record has been issued (R512)
  let live : Bytes := if p.live = {} then List.replicate 64 0 else p.live.bytes
  [reg 0 [(3, p.mode.code), (2, match p.primary with | some i => i.val | none => 0), (5, min p.slipRun 31), (8, p.clearCount.toNat)],
   counters 0x10 [p.behind, p.sat, p.evicted, p.imuReject, p.encReject], recReg 0x40 live]

/-- PAU (R512). -/
def State.pauSpans (s : State) : List Span :=
  let p := s.pau
  let set := p.setFor s.tb.no
  [reg 0 [(32, set.seq.toNat)], reg 4 [(21, p.points.length)],
   counters 0x10 [p.sat, p.noPose, p.poseWait, p.expFallback, p.decorOverrun, p.alignSteps, p.alignFails]]
  ++ (List.finRange 24).map fun (i : Fin 24) => recReg (0x100 + 32 * i.val) (p.alignRecord i set)

/-- PCU (R512). -/
def State.pcuSpans (s : State) : List Span :=
  let p := s.pcu
  [recReg 0 (match p.last with | some d => d.bytes | none => ({} : PcuDone).bytes),
   counters 0x40 [p.nIn, p.cropDrop, p.capDrop, p.voxOut, p.voxPtDrop, p.voxSiteDrop, p.rbSiteDrop, p.bevOut, p.fpsShort, p.aborted]]

/-- Tensor Engine t (R513, R484); the slot table is the same in all four. -/
def State.teSpans (s : State) (t : Fin 4) : List Span :=
  let e := s.tes.te[t]
  let slot (i : Fin 64) : Span := recReg (0x400 + 16 * i.val) (match s.tes.slots[i] with
    | some x => packBytes 16 [(1, 1), (2, match x.space with | .dram => 2 | _ => 0), (29, 0), (32, x.length), (64, x.base)]
    | none => List.replicate 16 0)
  let dig (i : Fin 64) : Span := recReg (0x800 + 32 * i.val) (match s.tes.slots[i] with | some x => padTo 32 x.digest | none => List.replicate 32 0)
  [reg 0 [(1, e.cfg.gen.toNat), (1, e.run.isSome.toNat), (2, match e.run with | some r => r.queue.val | none => 0)]]
  ++ ((List.finRange 4).map fun (q : Fin 4) => reg (0x10 + 4 * q.val) [(8, e.qflags[q].toNat)])
  ++ ((List.finRange 4).map fun (q : Fin 4) =>
      let n := e.flume[q].length
      reg (0x20 + 4 * q.val) [(5, n), (1, (n == 16).toNat), (1, e.overrun[q].toNat), (1, (e.cfg.qLevel[q] != 0 && decide (e.cfg.qLevel[q] ≤ n)).toNat)])
  ++ [counters 0x30 e.lists.toList, counters 0x40 e.flushes.toList,
      counters 0x50 [e.tensorClamp, e.indexRange, e.kvNoPage, e.syncTimeout, e.rbMismatch, e.goldenFail, e.localCe]]
  ++ (List.finRange 64).map slot ++ (List.finRange 64).map dig

/-- Track memory entry (R330). -/
def TrackMem.bytes (e : TrackMem) : Bytes :=
  packBytes 32 [(16, e.id.toNat), (1, e.live.toNat), (1, e.staged.toNat), (14, 0), (32, e.base.toNat), (32, e.next.toNat)
    , (16, (e.pages[0].getD 0xFFFF).toNat), (16, (e.pages[1].getD 0xFFFF).toNat), (16, (e.pages[2].getD 0xFFFF).toNat), (16, (e.pages[3].getD 0xFFFF).toNat)
    , (8, (e.slot.getD 0xFF).toNat), (24, 0), (32, e.appended.toNat)]

/-- Tracker (R514). -/
def State.trkSpans (s : State) (off : Nat) : List Span :=
  let t := s.trk
  if h : 0x4000 ≤ off ∧ off < 0x4000 + 32 * 1024 then
    let i : Fin 1024 := ⟨(off - 0x4000) / 32, by omega⟩
    [recReg (0x4000 + 32 * i.val) t.mem[i].bytes]
  else
    [reg 0 [(10, t.live.length), (7, s.kv.stageSlots - (usedSlots t.mem).length), (15, t.steps)], reg 4 [(16, s.kv.pool - (usedPages t.mem).length)],
     counters 0x10 [t.detInvalid, t.staleId, t.trackFull, t.assignBudget, t.kvReclaim, t.detClamp, t.historyResets]]

/-- QSA (R514). -/
def State.qsaSpans (s : State) : List Span :=
  let q := s.qsa
  [counters 0 [q.batch], counters 0x10 [q.badDelta, q.clamp, q.noFeasible, q.numeric, q.feedBad],
   recReg 0x100 (if q.written then q.cmd.bytes else List.replicate 128 0)]

/-- Verdict code (R515). -/
def Verdict.code : Verdict → Nat | .agree => 0 | .mismatch => 1 | .conflict => 2 | .noSummary => 3

/-- Channel B, Guard and Weir (R515). -/
def State.cbSpans (s : State) : List Span :=
  let b := s.cb
  let w := s.weir
  [counters 0x10 [b.sat, b.out, b.tableLate, b.ecc, b.tables],
   reg 0x30 [(2, match w.verdict with | some v => v.code | none => 0), (1, w.hold.toNat), (8, w.conflictRun.toNat), (8, w.clearRun.toNat)],
   counters 0x34 [w.data], recReg 0x100 (match s.guard.word with | some w => w.bytes | none => ({} : GuardWord).bytes),
   recReg 0x200 (padTo 164 b.table.bytes)]

/-- Supervisor pair code (R516). -/
def SupPair.code : SupPair → Nat | .both => 0 | .checking => 1 | .one => 2

/-- Supervisors and Spillway (R516). -/
def State.supSpans (s : State) : List Span :=
  let x := s.safety
  let ev (r : Option EvRecord) : Bytes := match r with | some r => r.bytes | none => List.replicate 32 0
  [reg 0 [(2, x.st.code), (1, (x.raised && !x.latchA).toNat), (1, (x.raised && !x.latchB).toNat), (1, (!s.faultLow).toNat), (2, x.pair.code),
     (1, x.sup[0].lost.toNat), (1, x.sup[1].lost.toNat), (3, x.releases.toNat), (3, s.reported.toNat)],
   reg 4 [(11, x.slice.toNat), (1, x.slicePass.toNat)], counters 0x10 [x.selftestFail, x.skip, s.seq.timingMiss, s.seq.timingEscalate],
   recReg 0x40 (ev s.ev.firstC2), recReg 0x60 (ev s.ev.firstC3)]

/-- Qanat (R516). -/
def State.qntSpans (s : State) : List Span :=
  let q := s.qnt
  let n (x : Option (BitVec 8)) : Nat := match x with | some v => v.toNat | none => 0
  [reg 0 [(4, q.pair.code), (2, q.role.code), (1, q.linkUp.toNat), (1, (q.aliveSeen s.tb.now).toNat), (8, n q.session), (8, n q.peerSession)],
   counters 0x10 [q.crcErr, q.wordGap, q.staleId, q.witnessBad, q.linkLosses, q.compared, q.failed], recReg 0x40 (padTo 80 q.peerGuard),
   recReg 0xA0 (match q.hello with | some h => padTo 32 h.digest | none => List.replicate 32 0)]

/-- Outputs and observation port (R517). -/
def State.outSpans (s : State) : List Span :=
  let o := s.out
  let port (p : Fin 2) : List Span :=
    let x := o.port[p]
    let e := s.ports.eth[6 + p.val]
    [reg (0x100 + 0x80 * p.val) [(1, e.link.toNat)], counters (0x110 + 0x80 * p.val) [x.txFrames, x.txDrop, x.txStale, x.linkDownDrop, e.unclaimed, e.fcsErr]]
  let can (c : Fin 2) : List Span :=
    let x := o.chan[c]
    let k := s.ports.can[2 + c.val]
    [reg (0x200 + 0x80 * c.val) k.errWord, counters (0x210 + 0x80 * c.val) [x.sent[0], x.sent[1], x.stale, k.busOffs]]
  [counters 0 (o.ring.toList.map fun (r : Ring) => r.wr)] ++ port 0 ++ port 1 ++ can 0 ++ can 1
    ++ [reg 0x300 [(7, s.obp.capWin.toNat)], counters 0x304 [s.obp.writeDrop, s.obp.bar0Drop, s.obp.ue]]

/-- Memory controllers (R518). -/
def State.memSpans (s : State) : List Span :=
  let m := s.mem
  [reg 0 [(1, m.trained.toNat), (1, (m.trained && m.cfg.if1).toNat), (2, m.trainFails)],
   counters 0x10 [m.cisternCe, m.cisternUe, m.cisternUeFree, m.dramCe, m.dramUe, m.cisternScrubs, m.dramScrubs]]

/-- Islands (R518). -/
def State.islSpans (s : State) : List Span :=
  let x := s.isl
  let d := s.seq.ndcDone
  let c (v : Nat) : Nat × Nat := (16, min v 65535)
  [reg 0 [(1, x.cfg.replay.toNat), (1, x.allEnrolled.toNat), (1, s.replay.halted.toNat)],
   reg 4 (match x.enrolFail with | some (a, b) => [(8, a.val), (8, b.val), (1, 1)] | none => []),
   recReg 0x10 (packBytes 16 [(32, min d.total (2 ^ 32 - 1)), c d.late, c d.overrun, c d.tie, c d.order, (32, d.frame.toNat % 2 ^ 32)]),
   counters 0x20 [s.replay.wr, s.replay.rd, BitVec.ofNat 32 s.capture.written, s.capture.losses]]
  ++ (List.finRange 144).map fun (i : Fin 144) => reg (0x100 + 4 * i.val) [(1, x.powered[i].toNat), (1, x.enrolled[i].toNat), (1, x.clockFail[i].toNat)]

/-- Frame Sequencer (R518). -/
def State.seqSpans (s : State) : List Span :=
  [recReg 0 (leBytes 8 s.tb.no.toNat ++ leBytes 8 s.tb.bn.toNat), counters 0x10 [s.tb.stretch]]
  ++ (List.finRange 256).map fun (e : Fin 256) =>
      let r := s.seq.regs[e]
      reg (0x100 + 4 * e.val) [(4, r.launch.toNat), (3, r.outcome.toNat), (1, r.runShort.toNat), (8, r.missRun.toNat)]

/-! ### Configuration windows (R504) -/

/-- Block in whose window a section shows. -/
def windowBlock (type inst : Nat) : Option Nat :=
  match type with
  | 0x01 => some 2 | 0x02 => some 0x14 | 0x03 => some 0x10 | 0x04 => some 5 | 0x05 => some 5 | 0x06 => some 6 | 0x07 => some 0xF | 0x08 => some 0xF
  | 0x09 => some 0x12 | 0x0A => some 0x11 | 0x0B => some 0x12 | 0x0C => some 4 | 0x10 => some 0x15 | 0x11 => some 7 | 0x12 => some 8
  | 0x13 => some (9 + inst % 4) | 0x16 => some 0xD | 0x17 => some 0xE | _ => none

/-- Place contents in directory order, each on a 16-byte boundary; a section that does not fit, or is encrypted, takes no space. -/
def placeSections : List Installed → Nat → List (Installed × Option Nat)
  | [], _ => []
  | i :: r, at_ =>
    if i.entry.enc || decide (0x10000 < at_ + i.bytes.length) then (i, none) :: placeSections r at_
    else (i, some at_) :: placeSections r (at_ + (i.bytes.length + 15) / 16 * 16)

/-- Directory entry with its OFFSET: 14 bits at [77:64]. -/
def directoryBytes (x : Installed × Option Nat) : Bytes :=
  packBytes 16 [(10, x.1.index), (1, x.2.isSome.toNat), (1, x.1.inForce.toNat), (4, 0), (16, x.1.entry.inst), (32, x.1.bytes.length),
    (14, (match x.2 with | some o => o | none => 0)), (8, x.1.entry.type)]

/-- A block's configuration window (R504): sections are added at the stage entry that installs them; once a C3 is collected every section that
has passed its checks is shown (R111). DEDUCED, log entry 12. -/
def State.windowSpans (s : State) (blk : Nat) : List Span :=
  let l := s.bcc.installed.filter fun (i : Installed) => (i.released || s.c3) && windowBlock i.entry.type i.entry.inst == some blk
  let shown := placeSections (l.take 127) 0xC800
  [reg 0xC000 [(7, min 127 l.length), (1, (decide (127 < l.length)).toNat)], ⟨0xC010, shown.flatMap directoryBytes, false⟩]
    ++ shown.filterMap fun x => x.2.map fun o => ⟨o, x.1.bytes, false⟩

/-- The spans of a block near an offset (R497). DESIGN CHOICE, log entry 4. -/
def State.spans (s : State) (blk off : Nat) : List Span :=
  if blk = 0x1F then
    [counters 0 s.obp.msix.toList, ⟨0x800, leBytes 8 s.obp.msixPending.toNat, false⟩]
  else if blk = 0 then s.identitySpans
  else if 0x16 ≤ blk then []
  else if 0xC000 ≤ off then s.windowSpans blk
  else match blk with
    | 1 => s.bccSpans
    | 2 => s.tbSpans
    | 3 => s.sluiceSpans
    | 4 => s.grottoSpans
    | 5 => if h : off < 0x4000 then s.hgs[off / 0x100].spans (off / 0x100) else s.portSpans ((off - 0x4000) / 0x100)
    | 6 => s.poseSpans
    | 7 => s.pauSpans
    | 8 => s.pcuSpans
    | 9 => s.teSpans 0
    | 0xA => s.teSpans 1
    | 0xB => s.teSpans 2
    | 0xC => s.teSpans 3
    | 0xD => s.trkSpans off
    | 0xE => s.qsaSpans
    | 0xF => s.cbSpans
    | 0x10 => s.supSpans
    | 0x11 => s.qntSpans
    | 0x12 => s.outSpans
    | 0x13 => s.memSpans
    | 0x14 => s.islSpans
    | _ => s.seqSpans

/-- Read one aligned word of BAR0 (R498, R501): the lowest word of a record register captures the record, the others return the capture. DEDUCED, log entry 12. -/
def State.readWord (s : State) (a : Nat) : State × Bytes :=
  let off := a % 0x10000
  match (s.spans (a / 0x10000) off).find? fun (x : Span) => decide (x.off ≤ off) && decide (off < x.off + x.bytes.length) with
  | none => (s, List.replicate 4 0)
  | some x =>
    let part (bs : Bytes) : Bytes := padTo 4 (slice bs (off - x.off) 4)
    let base := a - (off - x.off)
    if !x.record then (s, part x.bytes)
    else if a = base then
      ({ s with obp := { s.obp with latches := ⟨base, x.bytes⟩ :: s.obp.latches.filter fun (l : RecLatch) => l.addr != base } }, part x.bytes)
    else match s.obp.latches.find? fun (l : RecLatch) => l.addr == base with
      | some l => (s, part l.bytes)
      | none => (s, List.replicate 4 0)

/-- Read words in ascending address. -/
def State.readWords (s : State) (a : Nat) : Nat → State × Bytes
  | 0 => (s, [])
  | n + 1 =>
    let r := s.readWord a
    let t := r.1.readWords (a + 4) n
    (t.1, r.2 ++ t.2)

/-- BAR0's size. -/
def bar0Bytes : Nat := 0x200000

/-! ### What BAR2 shows (R465) -/

/-- A byte of the event ring (R77): its latest record lies at slot (RING_WR − 1) mod 4,096 (R508). -/
def Sluice.ringByte (q : Sluice) (o : Nat) : Byte :=
  match q.ring[(q.ringWr.toNat + 4095 - o / 32) % 4096]? with
  | some r => r.bytes.getD (o % 32) 0
  | none => 0

/-- A byte of the Cistern as the observer reads it (R472). -/
def Memory.shown (m : Memory) (a : Nat) : Byte := (m.readFor obsPort a 1).getD 0 0

/-- A byte of an output ring (R466); a disabled ring shows zeros. -/
def Outputs.ringByte (o : Outputs) (k : Fin 6) (off : Nat) : Byte :=
  if o.cfg.stream[k].en && decide (off < o.cfg.stream[k].ringBytes) then cellsGet o.ring[k].cells off else 0

/-- A byte of the capture ring (R92, R517): zeros from CAPTURE_SIZE on, and for an uncorrectable word (R476). -/
def State.captureByte (s : State) (off : Nat) : Byte :=
  let a := s.mem.cfg.captureBase + off
  if s.isl.cfg.captureSize ≤ off ∨ s.mem.dramBad.contains (a / 8) = true then 0 else cellsGet s.mem.dram a

/-- The byte that a read of BAR2 shows at an offset (R465); outside the windows it is zero. No read changes what it shows. DEDUCED, log entry 102. -/
def State.bar2 (s : State) (o : Nat) : Byte :=
  if o < 0x20000 then s.ev.ringByte o
  else if 0x40000 ≤ o ∧ o < 0x80000 then s.mem.shown (s.qsa.cfg.resultBase + (o - 0x40000))
  else if h : 0x1000000 ≤ o ∧ o < 0x7000000 then s.out.ringByte ⟨o / 0x1000000 - 1, by omega⟩ (o % 0x1000000)
  else if 0x8000000 ≤ o ∧ o < 0xC000000 then s.captureByte (0x4000000 * s.obp.capWin.toNat + (o - 0x8000000))
  else if h : 0x10000000 ≤ o ∧ o < 0x18000000 then
    let w := s.obp.win[(o - 0x10000000) / 0x800000]
    if o % 0x800000 < w.2 then s.mem.shown (w.1 + o % 0x800000) else 0
  else 0

/-- A word that holds a W field (R503). -/
def observerWord (a : Nat) : Bool :=
  a == 0x30008 || a == 0x3000C || a == 0x40000 || a == 0x40008 || a == 0x120300 || a == 0x140020 || a == 0x1F0000 || a == 0x1F0004 || a == 0x1F0008 || a == 0x1F000C

end Sys2Proof.Machine
end

