-- ==== Sys2Proof/Machine/Replay.lean ====
section
/-! DEFINITION. The commands of Replay mode and of the capture (spec 03 R85 to R92, spec 19 R465, spec 22 R519). -/

namespace Sys2Proof.Machine

open Sys2Proof

/-- Bytes of the replay write window (R88). -/
def windowBytes : Nat := 4194304

/-- `n` bytes of the window from a ring count up. -/
def Replay.bytes (r : Replay) (pos : Word) (n : Nat) : Bytes := (List.range n).map fun i => cellsGet r.window ((pos.toNat + i) % windowBytes)

/-- Due time of a chunk (R88). -/
def Chunk.due (c : Chunk) : T64 := if c.type = 0 then c.deliver else c.stamp

/-- ISL_REPLAY_WR_WRITE (R519, R498). -/
def execIslReplayWrWrite (value : Word) (s : State) : Host.Outcome State Fault Refusal :=
  let r := s.replay
  .next (if s.replaying && decide (value.toNat % 8 = 0) && decide ((r.wr - r.rd).toNat ≤ (value - r.rd).toNat)
      && decide ((value - r.rd).toNat ≤ windowBytes) then
    { s with replay := { r with wr := value } }
  else { s with obp := { s.obp with bar0Drop := bump s.obp.bar0Drop } })

/-- REPLAY_WINDOW_WRITE (R88, R465): bytes at an offset of the window; a write that is not wholly inside it, or not in Replay mode, is
discarded and counted. -/
def execReplayWindowWrite (offset : Nat) (data : Bytes) (s : State) : Host.Outcome State Fault Refusal :=
  .next (if s.replaying && decide (offset + data.length ≤ windowBytes) then
    { s with replay := { s.replay with window := cellsPut s.replay.window offset data } }
  else { s with obp := { s.obp with writeDrop := bump s.obp.writeDrop } })

/-- Pass the chunks at the front of the window that ask for nothing more: WATERMARK and END (R88). -/
def Replay.passFront (r : Replay) : List Chunk → Replay
  | [] => { r with queue := [] }
  | c :: rest =>
    if c.type = 1 ∨ c.type = 4 then ({ r with rd := BitVec.ofNat 32 (c.pos + chunkSize c.length) } : Replay).passFront rest
    else { r with queue := c :: rest }

/-- Take the front chunk out of the window. -/
def Replay.pop (r : Replay) : Replay :=
  match r.queue with
  | [] => r
  | c :: rest => ({ r with rd := BitVec.ofNat 32 (c.pos + chunkSize c.length) } : Replay).passFront rest

/-- Is a CHUNK_NO not one more than the last of its stream (R89). -/
def Chunk.gap (c : Chunk) (last : Option Word) : Bool :=
  match last with
  | some n => c.chunkNo != n + 1
  | none => c.chunkNo != 0

/-- Read a header: order and count checks (R89), watermarks (R90). The event is that of a halt: REPLAY_GAP for a CHUNK_NO alone, REPLAY_ORDER
for a reserved TYPE, an early due time, and where both checks fail; R89 does not say which. DESIGN CHOICE, log entry 143. -/
def Replay.header (r : Replay) (h : Bytes) : Replay × Option EvKind :=
  let c : Chunk := ⟨fieldOf h 4 4, fieldOf h 8 8, fieldOf h 16 16, BitVec.ofNat 32 (fieldOf h 32 32), BitVec.ofNat 64 (fieldOf h 64 64),
    BitVec.ofNat 64 (fieldOf h 128 64), r.head.toNat⟩
  let i := streamIdx c.stream
  let early : Bool := match r.lastDue with | some d => tLater d c.due | none => false
  -- a START chunk begins every count anew (R87)
  let last : Vector (Option Word) 65 := if c.type = 3 then Vector.replicate 65 none else r.lastNo
  if decide (5 ≤ c.type) || early then ({ r with halted := true }, some .replayOrder)
  else if c.gap last[i] then ({ r with halted := true }, some .replayGap)
  else
    (({ r with
        head := r.head + BitVec.ofNat 32 (chunkSize c.length), lastDue := some c.due, lastNo := last.set i (some c.chunkNo)
        mark := if c.type = 4 then Vector.replicate 64 none
          else if h : c.stream < 64 then (if c.type ≤ 1 then r.mark.set c.stream (some c.due) else r.mark) else r.mark } : Replay).passFront (r.queue ++ [c]), none)

/-- The observer has placed the whole of the next header (R88): ISL_REPLAY_WR lies 32 bytes or more beyond the headers read, both counted
from ISL_REPLAY_RD. -/
def Replay.headerPlaced (r : Replay) : Bool := decide ((r.head - r.rd).toNat + 32 ≤ (r.wr - r.rd).toNat)

/-- REPLAY_CHUNK_HEADER_READ (R88 to R90): the next header that the observer has placed. -/
def execReplayChunkHeaderRead (s : State) : Host.Outcome State Fault Refusal :=
  .next (if s.replaying && !s.replay.halted && s.replay.headerPlaced then
    let r := s.replay.header (s.replay.bytes s.replay.head 32)
    { s with replay := r.1, ev := match r.2 with | some k => s.ev.raise (evtOpen k pcieIsland 0) | none => s.ev }
  else s)

/-- REPLAY_START_CHUNK (R86): the first one, once the device is in S3, loads device time and the first frame; a later one only passes. DEDUCED, log entry 26. -/
def execReplayStartChunk (s : State) : Host.Outcome State Fault Refusal :=
  .next (match s.replay.queue with
    | c :: _ =>
      if c.type = 3 ∧ s.replaying = true ∧ s.replay.halted = false ∧ decide (32 + c.length ≤ (s.replay.wr - s.replay.rd).toNat) = true then
        if s.replay.started then
          (if tReached s.tb.now c.stamp then { s with replay := s.replay.pop } else s)
        else if s.bcc.stage = 3 then
          let p := s.replay.bytes (BitVec.ofNat 32 (c.pos + 32)) 16
          let b : T64 := BitVec.ofNat 64 (fieldOf p 64 64)
          let f : Frame := ⟨BitVec.ofNat 64 (fieldOf p 0 64), b, b + tick s.tb.cfg.period, false⟩
          { s with
            replay := { s.replay.pop with started := true }
            tb := { s.tb with now := c.stamp, frac := 0, frame := some f, past := [], reanchor := none, ppsFrom := c.stamp }
            pl := { s.pl with start := some (c.stamp.toNat / ticksPerUs), nextK := some (c.stamp.toNat / ticksPerUs) }
            seq := { s.seq with closed := none } }
        else s
      else s
    | [] => s)

/-- REPLAY_MAP_CHUNK (R86, R87): once its Gₖ is reached, its map comes into force. The first one starts the grid's map and is no jump. -/
def execReplayMapChunk (s : State) : Host.Outcome State Fault Refusal :=
  .next (match s.replay.queue with
    | c :: _ =>
      if c.type = 2 ∧ s.replay.started = true ∧ s.replay.halted = false ∧ tReached s.tb.now c.stamp = true
          ∧ decide (32 + c.length ≤ (s.replay.wr - s.replay.rd).toNat) = true then
        let m := TimeMap.ofBytes (s.replay.bytes (BitVec.ofNat 32 (c.pos + 32)) 16)
        let jump := s.replay.mapped && m.mapSeq != s.tb.map.mapSeq
        let tb : Timebase := if s.replay.mapped then { s.tb with mapNext := some (c.stamp, m) }.installMap else { s.tb with map := m, mapNext := none }
        { s with replay := { s.replay.pop with mapped := true }, tb := tb
                 ev := if jump then s.ev.raise (evtOpen .mapJump tbIsland 0) else s.ev }
      else s
    | [] => s)

/-- A CSI-2 packet from the bytes that a port presents: header, payload and whether the CRC fails; the item carries the stamp of its chunk.
DEDUCED, log entry 26. -/
def CsiPort.replayed (p : CsiPort) (bs : Bytes) (stamp : T64) : CsiPort × Option Item :=
  match (csiDphy (bs.take 4)).2 with
  | none => (p, none)
  | some h =>
    let pl := (bs.drop 4).take h.wc.toNat
    let r := p.take h stamp (fun _ => some stamp) pl (crc 16 0x1021 0xFFFF true 0 pl != leNat (slice bs (4 + h.wc.toNat) 2))
    (r.1, r.2.map fun (x : T64 × Item) => match x.2 with | .csi _ i b => .csi stamp i b | i => i)

/-- The edge code of 8 bytes (R140). -/
def EdgeCode.ofBytes (bs : Bytes) (t : T64) : EdgeCode :=
  ⟨t, BitVec.ofNat 24 (fieldOf bs 32 24), BitVec.ofNat 2 (fieldOf bs 56 2), fieldOf bs 58 1 == 1, fieldOf bs 59 1 == 1, fieldOf bs 60 1 == 1,
   fieldOf bs 61 1 == 1⟩

/-- Hand a RECORD's payload to its headgate as the kind of port that presented it (R87, R117). DEDUCED, log entry 26. -/
def State.deliver (s : State) (h : Fin 64) (c : HgCfg) (stamp : T64) (bs : Bytes) : State :=
  if hp : c.port < 8 then
    let r := s.ports.csi[c.port].replayed bs stamp
    let s1 : State := { s with ports := { s.ports with csi := s.ports.csi.set c.port r.1 } }
    match r.2 with
    | some it => s1.present h it stamp bs
    | none => s1
  else if c.port < 16 then
    let (_, ty, rest) := etherSplit bs
    match netOf ty rest with
    | .udp _ _ _ pl bad => s.present h (.frame stamp pl bad) stamp bs
    | .raw pl => s.present h (.frame stamp pl false) stamp bs
    | _ => s
  else
    let it : Item := if c.port < 20 then .sample stamp bs else if c.port < 28 then .edge (EdgeCode.ofBytes bs stamp) else .can stamp bs
    s.present h it stamp bs

/-- REPLAY_RECORD_DELIVER (R90): at DELIVER the payload is handed to its headgate and ISL_REPLAY_RD passes the chunk. -/
def execReplayRecordDeliver (s : State) : Host.Outcome State Fault Refusal :=
  .next (match s.replay.queue with
    | c :: _ =>
      if c.type = 0 ∧ s.replay.started = true ∧ s.replay.halted = false ∧ tReached s.tb.now c.deliver = true
          ∧ decide (32 + c.length ≤ (s.replay.wr - s.replay.rd).toNat) = true then
        let s1 : State := { s with replay := s.replay.pop }
        if h : c.stream < 64 then
          match s.hgs[c.stream].cfg with
          | some k => s1.deliver ⟨c.stream, h⟩ k c.stamp (s.replay.bytes (BitVec.ofNat 32 (c.pos + 32)) c.length)
          | none => s1
        else s1
      else s
    | [] => s)

/-- REPLAY_STALL (R90): the next increment would pass the smallest watermark. -/
def execReplayStall (s : State) : Host.Outcome State Fault Refusal :=
  .next (match s.replay.bound s.enabledStreams with
    | some w =>
      if s.replaying && s.replay.started && !s.replay.halted && decide (tDiff w s.tb.now < 32) then
        { s with replay := { s.replay with stalled := true } }
      else s
    | none => s)

/-- REPLAY_STALL_END (R90): the smallest watermark exceeds device time. -/
def execReplayStallEnd (s : State) : Host.Outcome State Fault Refusal :=
  .next (if s.replay.stalled && (match s.replay.bound s.enabledStreams with | some w => tLater w s.tb.now | none => true) then
    { s with replay := { s.replay with stalled := false } }
  else s)

/-- CAPTURE_START (R92): START and MAP chunks at the frame boundary that opens, before device time moves on. -/
def execCaptureStart (s : State) : Host.Outcome State Fault Refusal :=
  s.gate (.next (if s.captureReady && s.capture.startAt == some s.tb.now then
    let b := s.tb.bn
    let s1 : State := { s with capture := { s.capture with active := true, full := false, startAt := none, items := [], nextNo := Vector.replicate 65 0, lastMark := Vector.replicate 64 b } }
    (s1.putChunk 3 255 b 0 (leBytes 8 s.tb.no.toNat ++ leBytes 8 b.toNat)).putChunk 2 255 b 0 s.tb.map.bytes
  else s))

/-- CAPTURE_WATERMARK (R92): every 1 ms of device time, for each enabled stream. -/
def execCaptureWatermark (stream : Fin 64) (s : State) : Host.Outcome State Fault Refusal :=
  s.gate (.next (if s.capture.active && s.enabledStreams.getLsbD stream.val && elapsed s.tb.now s.capture.lastMark[stream] ticksPerMs then
    ({ s with capture := { s.capture with lastMark := s.capture.lastMark.set stream (s.capture.lastMark[stream] + ms 1) } } : State).flushItems.putChunk
      1 stream.val s.tb.now 0 []
  else s))

/-- CAPTURE_RECORD_WRITE (R92): the oldest item that waits, where it is of this stream, is written as a RECORD chunk with its pin stamp and the
time at which it reached its headgate; an item behind another waits, for chunks are read in due-time order (R88). -/
def execCaptureRecordWrite (stream : Fin 64) (s : State) : Host.Outcome State Fault Refusal :=
  s.gate (.next (match s.capture.items with
    | x :: rest => if s.capture.active && x.stream == stream then s.writeItem x rest else s
    | [] => s))

end Sys2Proof.Machine
end

