-- ==== Sys2Proof/Machine/Observe.lean ====
section
/-! DEFINITION. The commands of the observation port (spec 19 R464, R465; spec 22 R498 to R503). -/

namespace Sys2Proof.Machine

open Sys2Proof

/-- OBP_CAP_WIN_WRITE (R465, R517). -/
def execObpCapWinWrite (value : Word) (s : State) : Host.Outcome State Fault Refusal :=
  .next { s with obp := { s.obp with capWin := value.setWidth 7 } }

/-- MSI_X_TABLE_WRITE (R464, R503): word w of entry 0; a message that waited for the mask goes out when it ends. PRESUMED, log entry 18. -/
def execMsiXTableWrite (w : Fin 4) (value : Word) (s : State) : Host.Outcome State Fault Refusal :=
  let o : Observation := { s.obp with msix := s.obp.msix.set w value }
  .next { s with obp :=
    if o.msixPending && !o.msix[3].getLsbD 0 then { o with msixPending := false, msixSent := some (o.msix[1] ++ o.msix[0], o.msix[2]) } else o }

/-- RECORD_REGISTER_READ (R498, R501): a read of BAR0, word by word in ascending address; what it returns stands in readData. A read of 1 to 4 bytes
lies within one aligned word. -/
def execRecordRegisterRead (addr len : Nat) (s : State) : Host.Outcome State Fault Refusal :=
  .next (if len = 0 ∨ bar0Bytes < addr + len then s else
    let first := addr / 4
    let n := (addr + len - 1) / 4 - first + 1
    let r := s.readWords (4 * first) n
    { r.1 with obp := { r.1.obp with readData := slice r.2 (addr - 4 * first) len } })

/-- BAR0_WRITE_DISCARD (R498): a write that is not of all four bytes of one word with a W field is discarded and counted. -/
def execBar0WriteDiscard (addr len : Nat) (s : State) : Host.Outcome State Fault Refusal :=
  .next (if len = 0 ∨ bar0Bytes < addr + len ∨ (len = 4 ∧ observerWord addr = true) then s
    else { s with obp := { s.obp with bar0Drop := bump s.obp.bar0Drop } })

/-- BAR2_WRITE_DISCARD (R465): outside the replay write window in Replay mode every write is discarded and counted. -/
def execBar2WriteDiscard (offset len : Nat) (s : State) : Host.Outcome State Fault Refusal :=
  .next (if s.replaying && decide (0x400000 ≤ offset) && decide (offset + len ≤ 0x400000 + windowBytes) then s
    else { s with obp := { s.obp with writeDrop := bump s.obp.writeDrop } })

end Sys2Proof.Machine
end

