-- ==== Sys2Proof/Machine/Ports.lean ====
section
/-! DEFINITION. The commands of the sensor, encoder, CAN and configuration ports (spec 05_sensor_ports). -/

namespace Sys2Proof.Machine

open Sys2Proof

/-- CSI2_PACKET_RECEIVED (R120 to R124). -/
def execCsi2PacketReceived (port : Fin 8) (packet : CsiPacket) (s : State) : Host.Outcome State Fault Refusal :=
  .next (if s.portUp ⟨port.val, by omega⟩ then
    let r := s.ports.csi[port].packet packet (Headgates.bound s.hgs port.val) s.tb.trigLead
    ({ s with ports := { s.ports with csi := s.ports.csi.set port r.1 } } : State).presentOpt r.2
  else s)

/-- A frame on a vehicle port (R452): PTP, ARP and Neighbor Discovery are accepted; every other frame, an IP fragment and a PAUSE frame
among them, is discarded and counted in UNCLAIMED. -/
def EthPort.vehicle (p : EthPort) (bs : Bytes) (stamp : T64) : EthPort :=
  let good := decide (bs.length ≤ 9216) && fcsOk bs
  let x := etherSplit (bs.take (bs.length - 4))
  if p.cfg.isSome && good && (x.2.1 == 0x8808 || netOf x.2.1 x.2.2 == .frag) then { p with unclaimed := bump p.unclaimed }
  else (p.frame bs stamp fun (_ : Nat) => none).1

/-- A sensor port answers an ARP request or a Neighbor Solicitation at once (R127): the answer takes a transmit stamp, to which ASYM_OUT is
added (R40, R51). DESIGN CHOICE, log entry 167. -/
def EthPort.answer (p : EthPort) (port : Nat) (rx : T64) (asymOut : Int) : EthPort :=
  { p with replies := bump p.replies, txStamp := Config.replyStamp port rx + BitVec.ofInt 64 asymOut }

/-- The delay request that a frame holds (R49), with its transport and domainNumber. -/
def delayRequest (bs : Bytes) (rx : T64) : Option (PtpTransport × Nat × PtpReq) :=
  if !(fcsOk bs) then none else
  let x := etherSplit (bs.take (bs.length - 4))
  ptpOf x.2.1 (netOf x.2.1 x.2.2) x.2.2 (x.2.1 == 0x86DD) rx

/-- A delay request of a frame on a sensor port that the port is to answer (R49): one of its transport in the served domain. -/
def Timebase.ptpAsked (tb : Timebase) (p : Fin 6) (bs : Bytes) (rx : T64) : Option PtpReq :=
  match delayRequest bs rx with
  | some (tr, dom, q) => if tr = tb.cfg.sensorPort[p].transport ∧ dom = tb.cfg.sensorDomain.toNat then some q else none
  | none => none

/-- A Pdelay_Req of a frame on a vehicle port that the port is to answer (R49): the delay mechanism there is peer-to-peer, in the domains
that the port tracks. DESIGN CHOICE, log entry 139. -/
def Timebase.pdelayAsked (tb : Timebase) (p : Fin 2) (bs : Bytes) (rx : T64) : Option PtpReq :=
  match delayRequest bs rx with
  | some (_, dom, q) => if q.peer && decide (dom < 128) && (tb.sourceOf p (BitVec.ofNat 7 dom)).isSome then some q else none
  | none => none

/-- A frame under IEEE 802.1AE (EtherType 0x88E5) on a vehicle port that has MACsec, opened with the port's RX SAK (R452, R457); every other
frame, and one that does not open, stays as it is. DESIGN CHOICE, log entry 135. -/
def MacsecCfg.opened (c : MacsecCfg) (bs : Bytes) : Bytes :=
  if c.en && fcsOk bs && (etherSplit (bs.take (bs.length - 4))).2.1 == 0x88E5 then
    match Config.macsecOpen c.rxSak (bs.take (bs.length - 4)) with
    | some plain => plain ++ leBytes 4 (crc32 plain)
    | none => bs
  else bs

/-- The answers that a frame on a vehicle port makes wait in PTP_QUEUE (R49, R452, R453). -/
def State.controlOf (s : State) (p : Fin 2) (bs : Bytes) (rx : T64) : List ControlFrame :=
  let eth := s.ports.eth[6 + p.val]
  (if eth.asked bs then [.answer bs] else [])
  ++ match s.tb.pdelayAsked p bs rx with | some q => if eth.cfg.isSome then [.pdelayResp q] else [] | none => []

/-- ETHERNET_FRAME_RECEIVED on a vehicle port (R452): nothing goes to a headgate; an answer waits for its queue. -/
def State.vehicleFrame (s : State) (p : Fin 2) (bytes : Bytes) (rx : T64) : State :=
  let bs := s.out.cfg.macsec[p].opened bytes
  { s with
    ports := { s.ports with eth := s.ports.eth.set (6 + p.val) (s.ports.eth[6 + p.val].vehicle bs rx) }
    out := { s.out with port := modAt s.out.port p fun (o : OutPort) => { o with control := o.control ++ s.controlOf p bs rx } } }

/-- ETHERNET_FRAME_RECEIVED on a sensor port (R125 to R128). -/
def State.sensorFrame (s : State) (p : Fin 6) (bytes : Bytes) (rx : T64) : State :=
  let eth := s.ports.eth[p.val]
  let r := eth.frame bytes rx fun (m : Nat) => Headgates.bound s.hgs (8 + p.val) m
  let port := if eth.asked bytes then r.1.answer p.val rx (s.tb.cfg.asymOut[p.val]!) else r.1
  let tb := match s.tb.ptpAsked p bytes rx with
    | some q => if eth.cfg.isSome then { s.tb with ptpReq := s.tb.ptpReq.set p.val (some q) } else s.tb
    | none => s.tb
  ({ s with ports := { s.ports with eth := s.ports.eth.set p.val port }, tb := tb } : State).presentOpt
    (r.2.map fun (x : Fin 64 × Item) => (x.1, rx, x.2, bytes.take (bytes.length - 4)))

/-- ETHERNET_FRAME_RECEIVED (R125 to R128, R49, R51, R452). -/
def execEthernetFrameReceived (port : Fin 8) (bytes : Bytes) (stamp : T64) (s : State) : Host.Outcome State Fault Refusal :=
  .next (if s.portUp ⟨8 + port.val, by omega⟩ then
    let t := stamp - BitVec.ofInt 64 s.tb.cfg.asymIn[port]
    if h : port.val < 6 then s.sensorFrame ⟨port.val, h⟩ bytes t else s.vehicleFrame ⟨port.val - 6, by omega⟩ bytes t
  else s)

/-- SPI_INIT (R136): INIT ends with its check reads; a mismatch raises IMU_INIT_FAIL and masks the stream. -/
def execSpiInit (k : Fin 4) (reads : List Bytes) (s : State) : Host.Outcome State Fault Refusal :=
  .next (if s.portUp ⟨16 + k.val, by omega⟩ then
    let r := s.ports.spi[k].init reads s.tb.now
    let s1 : State := { s with ports := { s.ports with spi := s.ports.spi.set k r.1 } }
    if r.2 then
      (s1.raise [evtOpen .imuInitFail (16 + k.val) k.val]).maskStreams
        (match Headgates.bound s.hgs (16 + k.val) 0 with | some h => [h] | none => []) reasonInit
    else s1
  else s)

/-- SPI_DRDY_EDGE (R137). -/
def execSpiDrdyEdge (k : Fin 4) (stamp : T64) (s : State) : Host.Outcome State Fault Refusal :=
  .next (if s.portUp ⟨16 + k.val, by omega⟩ then
    { s with ports := { s.ports with spi := modAt s.ports.spi k fun (p : SpiPort) => p.drdy stamp } } else s)

/-- SPI_BURST_COMPLETE (R137): the sample carries the stamp of the edge that started its burst. -/
def execSpiBurstComplete (k : Fin 4) (bytes : Bytes) (s : State) : Host.Outcome State Fault Refusal :=
  .next (if s.portUp ⟨16 + k.val, by omega⟩ then
    let r := s.ports.spi[k].complete s.tb.now
    let s1 : State := { s with ports := { s.ports with spi := s.ports.spi.set k r.1 } }
    match r.2, Headgates.bound s.hgs (16 + k.val) 0 with
    | some t, some h => s1.present h (.sample t bytes) t bytes
    | _, _ => s1
  else s)

/-- SPI_POLL (R138). -/
def execSpiPoll (k : Fin 4) (s : State) : Host.Outcome State Fault Refusal :=
  .next (if s.portUp ⟨16 + k.val, by omega⟩ then
    { s with ports := { s.ports with spi := modAt s.ports.spi k fun (p : SpiPort) => p.poll k s.tb.now } } else s)

/-- ENCODER_EDGE (R139, R141). -/
def execEncoderEdge (e : Fin 8) (line : BitVec 2) (level : Bool) (stamp : T64) (s : State) : Host.Outcome State Fault Refusal :=
  .next (if s.portUp ⟨20 + e.val, by omega⟩ then
    { s with ports := { s.ports with enc := modAt s.ports.enc e fun (p : EncPort) => p.edge line level stamp } } else s)

/-- ENCODER_CODE_ISSUE (R141). -/
def execEncoderCodeIssue (e : Fin 8) (s : State) : Host.Outcome State Fault Refusal :=
  .next (if s.portUp ⟨20 + e.val, by omega⟩ then
    let r := s.ports.enc[e].issue e s.tb.now
    let s1 : State := { s with ports := { s.ports with enc := s.ports.enc.set e r.1 }, ev := s.ev.raiseAll r.2.2 }
    match r.2.1, Headgates.bound s.hgs (20 + e.val) 0 with
    | some c, some h => s1.present h (.edge c) c.stamp c.bytes
    | _, _ => s1
  else s)

/-- CAN_FRAME_RECEIVED (R142 to R144). -/
def execCanFrameReceived (c : Fin 4) (frame : CanFrame) (stamp : T64) (s : State) : Host.Outcome State Fault Refusal :=
  .next (if s.portUp ⟨28 + c.val, by omega⟩ then
    let r := s.ports.can[c].frame frame stamp fun (f : Nat) => Headgates.bound s.hgs (28 + c.val) f
    ({ s with ports := { s.ports with can := s.ports.can.set c r.1 } } : State).presentOpt
      (r.2.map fun (x : Fin 64 × Item) => (x.1, stamp, x.2, frame.data))
  else s)

/-- CAN_ERROR_FRAME (R143): the frame is not handed on; `tec` and `rec_` are the channel's error counters after it. -/
def execCanErrorFrame (c : Fin 4) (tec rec_ : BitVec 8) (s : State) : Host.Outcome State Fault Refusal :=
  .next (if s.portUp ⟨28 + c.val, by omega⟩ then
    { s with ports := { s.ports with can := modAt s.ports.can c fun (p : CanPort) =>
        if p.cfg.isSome then { p with errorFrames := bump p.errorFrames, tec := tec, rec_ := rec_, st := canStOf p.st tec rec_ } else p } }
  else s)

/-- Put a configuration bus's step into force: its state, its events and the dependents to mask (R146). -/
def State.setBus (s : State) (m : Fin 2) (r : BusPort × List (Fin 64) × List Ev) : State :=
  ({ s with ports := { s.ports with bus := s.ports.bus.set m r.1 }, ev := s.ev.raiseAll r.2.2 } : State).maskStreams r.2.1 reasonScript

/-- SCRIPT_STEP (R146, R148). -/
def execScriptStep (m : Fin 2) (result : StepResult) (s : State) : Host.Outcome State Fault Refusal :=
  .next (if s.portUp ⟨32 + m.val, by omega⟩ then s.setBus m (s.ports.bus[m].script m s.tb.now result) else s)

/-- BUS_RECOVERY (R147, R148): how long SCL was high and SDA low, in ns, and what SDA reads in each pulse. -/
def execBusRecovery (m : Fin 2) (lowNs : Nat) (sda : Vector Bool 16) (s : State) : Host.Outcome State Fault Refusal :=
  .next (if s.portUp ⟨32 + m.val, by omega⟩ then s.setBus m (s.ports.bus[m].recover m s.tb.now lowNs sda) else s)

/-- BUS_STUCK_RETRY (R148). -/
def execBusStuckRetry (m : Fin 2) (s : State) : Host.Outcome State Fault Refusal :=
  .next (if s.portUp ⟨32 + m.val, by omega⟩ then
    { s with ports := { s.ports with bus := modAt s.ports.bus m fun (p : BusPort) => p.retry s.tb.now } } else s)

/-- IN_BAND_INTERRUPT (R145): NACKed and counted; only an I3C bus has them. -/
def execInBandInterrupt (m : Fin 2) (s : State) : Host.Outcome State Fault Refusal :=
  .next (if s.portUp ⟨32 + m.val, by omega⟩ then
    { s with ports := { s.ports with bus := modAt s.ports.bus m fun (p : BusPort) =>
        if (match p.cfg with | some c => c.i3c | none => false) then { p with ibiNack := bump p.ibiNack } else p } }
  else s)

end Sys2Proof.Machine
end

