-- ==== Sys2Proof/Machine/Outputs.lean ====
section
/-! DEFINITION. The commands of the outputs (spec 19 R445 to R463) and of bus-off and link changes (spec 05 R142 to R144). -/

namespace Sys2Proof.Machine

open Sys2Proof

/-- PUBLICATION (R447): the next frame's messages, at the completion of its output assembly or at Bₙ + D_pub without it. -/
def execPublication (s : State) : Host.Outcome State Fault Refusal :=
  s.gate (.next (if s.enrolled && s.bcc.stage != 0 then
    match s.nextPublished with
    | some f => match s.publishes f with
      | some a => s.publish f a
      | none => s
    | none => s
  else s))

/-- GUARD_STREAM_MESSAGE (R445, R451): every GUARD_DIV guard cycles, the guard word. -/
def execGuardStreamMessage (s : State) : Host.Outcome State Fault Refusal :=
  s.gate (.next (match s.guard.word with
    | none => s
    | some w =>
      let g : T64 := us w.k.toNat
      let done := match s.out.last[5] with | some m => m.tov == g | none => false
      if s.guardRuns && w.k.toNat % s.out.cfg.guardDiv == 0 && !done then
        let f : Option Frame := match s.guard.frame with | some n => s.tb.frameNo n | none => none
        let zero := w.digest == List.replicate 16 0
        s.emit 5 { valid := w.valid, frame := match f with | some f => if zero then 0 else f.no.setWidth 32 | none => 0
                   bn := match f with | some f => if zero then 0 else f.b | none => 0
                   basis := s.guard.basis, tov := g, digest := w.digest, body := w.bytes }
      else s))

/-- A fragment as it leaves: in SAFE every message that goes out carries VALID = 0 (R31, R448). -/
def Fragment.leaving (f : Fragment) (safe : Bool) : Fragment := if safe then { f with msg := { f.msg with valid := false } } else f

/-- The head of a queue may leave now (R453, R455): its port has its link and is not sending, its gate is open for long enough and no higher
queue can start. -/
def State.mayLeave (s : State) (port : Fin 2) (queue : Fin 8) : Bool :=
  let higher := (List.finRange 8).any fun (q : Fin 8) => decide (queue.val < q.val) && s.canStart port q
  s.vehicleLink port && !s.replaying && tReached s.tb.now s.out.port[port].busyUntil && s.canStart port queue && !higher

/-- FRAGMENT_TRANSMIT (R453, R455): the head of a queue leaves, where it may and is not TX_MAX_AGE old; an answer of the port goes before the
messages of its queue. `tx` is the stamper's transmit stamp, to which ASYM_OUT of the port is added (R40, R51). -/
def execFragmentTransmit (port : Fin 2) (queue : Fin 8) (tx : T64) (s : State) : Host.Outcome State Fault Refusal :=
  let o := s.out.port[port]
  .next (if !s.mayLeave port queue then s else
    match s.controlHead port queue, o.queues[queue] with
    | some (c, l), _ => s.sendControl port c l tx
    | none, [] => s
    | none, f :: rest =>
      if elapsed s.tb.now f.msg.too (s.txMaxAge f.msg.stream) then s else
      let sent : OutPort :=
        { s.startFrame port (s.wireBytes port f) tx o with
          queues := o.queues.set queue rest, sent := some (f.leaving s.c3, s.tb.now), wire := some (s.txFrame port (f.leaving s.c3)) }
      { s with out := { s.out with port := s.out.port.set port sent } })

/-- TX_MAX_AGE_EXPIRY (R455): a fragment has not left TX_MAX_AGE after TOO; it and the rest of its message go from that port. DEDUCED, log entry 132. -/
def execTxMaxAgeExpiry (port : Fin 2) (queue : Fin 8) (s : State) : Host.Outcome State Fault Refusal :=
  s.gate (let o := s.out.port[port]
  .next (match o.queues[queue].find? fun (f : Fragment) => elapsed s.tb.now f.msg.too (s.txMaxAge f.msg.stream) with
    | none => s
    | some f =>
      { s with
        out := { s.out with port := s.out.port.set port { o with queues := o.queues.set queue (dropMessage o.queues[queue] f.msg), txStale := bump o.txStale } }
        ev := s.ev.raise (evtOpen .outTxStale (14 + port.val) port.val) }))

/-- SM0_BUILD (R458, R460): at S1 entry, on a change of what it reports, else every STATE_PERIOD. The command comes with each change; a change within
MIN_GAP of the SM0 before is kept, and builds one after it even where it has been undone. DESIGN CHOICE, log entry 133. -/
def execSm0Build (s : State) : Host.Outcome State Fault Refusal :=
  s.gate (let x := s.sm0Now
  let c := s.out.can
  let built (cause : Word) : State :=
    let t := s.buildCan 0 cause
    { t with out := { t.out with sm0 := some (x, s.tb.now), sm0Seen := x, sm0Due := none } }
  .next (if !s.canSafeOn then s else
    match s.out.sm0 with
    | none => built (s.ev.causeOf fun k _ => k == .stageEntry)
    | some (old, t) =>
      let due : Option Word := if s.out.sm0Seen = x then s.out.sm0Due else some (s.sm0Cause s.out.sm0Seen x)
      if old.safety ≠ x.safety ∨ old.safeOk ≠ x.safeOk then built (s.sm0Cause old x)
      else match due with
        | some w =>
          if elapsed s.tb.now t (c.minGap * ticksPerMs) then built w
          else { s with out := { s.out with sm0Seen := x, sm0Due := some w } }
        | none => if elapsed s.tb.now t (c.statePeriod * ticksPerMs) then built 0 else s))

/-- SM1_BUILD (R458, R460): on the GUARD_PERIOD grid of device time, from the latest guard word. DESIGN CHOICE, log entry 133. -/
def execSm1Build (s : State) : Host.Outcome State Fault Refusal :=
  s.gate (let i := s.tb.now.toNat / (max 1 s.out.can.guardPeriod * ticksPerMs)
  .next (if s.canSafeOn && s.guard.word.isSome && s.out.sm1 != some i then
    let t := s.buildCan 1 0
    { t with out := { t.out with sm1 := some i } }
  else s))

/-- CAN_MAX_AGE_EXPIRY (R460): a copy that has not gone out MAX_AGE after its build is discarded, counted and built anew. -/
def execCanMaxAgeExpiry (c : Fin 2) (m : Fin 2) (s : State) : Host.Outcome State Fault Refusal :=
  s.gate (let o := s.out.chan[c]
  .next (match o.buf[m] with
    | some (_, t) =>
      if s.canSafeOn && elapsed s.tb.now t (s.out.can.maxAge * ticksPerMs) then
        ({ s with out := { s.out with chan := s.out.chan.set c { o with buf := o.buf.set m none, stale := bump o.stale } } } : State).queueCan c m 0
      else s
    | none => s))

/-- A copy may be the one on its bus (R460, R461): SM0 wins arbitration, so an SM1 goes out only where no SM0 waits or the SM0 came while the SM1 was
already on the bus; after a bus-off recovery the first is the SM0. DESIGN CHOICE, log entry 133. -/
def CanOut.onBus (o : CanOut) (m : Fin 2) (b : Bytes) (now : T64) : Bool :=
  m == 0 || (!o.freshDue && (match o.buf[0] with | some (_, t) => !(elapsed now t (Config.canFrameTicks b)) | none => true))

/-- CAN_TRANSMIT_COMPLETE (R460, R461). -/
def execCanTransmitComplete (c : Fin 2) (m : Fin 2) (s : State) : Host.Outcome State Fault Refusal :=
  s.gate (let o := s.out.chan[c]
  .next (match o.buf[m] with
    | some (b, t) =>
      if s.canSafeOn && s.ports.can[2 + c.val].st != .busOff && o.onBus m b s.tb.now && !(elapsed s.tb.now t (s.out.can.maxAge * ticksPerMs)) then
        let sent : CanOut := { o with buf := o.buf.set m none, last := some b, lastId := some (s.safetyId m), lastXl := s.out.can.xl, sent := modAt o.sent m bump, freshDue := m != 0 && o.freshDue }
        { s with out := { s.out with chan := s.out.chan.set c sent } }
      else s
    | none => s))

/-- BUS_OFF (R142, R144, R461): reception stops; a CAN-S channel discards its copies and raises the event. A monitoring channel is never bus-off. DESIGN CHOICE, log entry 14. PRESUMED, log entry 105. -/
def execBusOff (c : Fin 4) (s : State) : Host.Outcome State Fault Refusal :=
  let p := s.ports.can[c]
  .next (match p.cfg with
    | some k =>
      if s.portUp ⟨28 + c.val, by omega⟩ && k.active && p.st != .busOff then
        let s1 : State := { s with ports := { s.ports with can := s.ports.can.set c { p with st := .busOff, busOffs := bump p.busOffs } } }
        if h : 2 ≤ c.val then
          { s1 with
            out := { s1.out with chan := modAt s1.out.chan (⟨c.val - 2, by omega⟩ : Fin 2) fun (o : CanOut) => { o with buf := Vector.replicate 2 none } }
            ev := s1.ev.raise (evt .busOff (28 + c.val) (c.val - 2) (c.val - 2)) }
        else s1
      else s
    | none => s)

/-- BUS_OFF_RECOVERED (R144, R461): the counters start again; a CAN-S channel sends an SM0 built now, with FRESH = 1. PRESUMED, log entry 105. DESIGN CHOICE, log entry 133. -/
def execBusOffRecovered (c : Fin 4) (s : State) : Host.Outcome State Fault Refusal :=
  s.gate (let p := s.ports.can[c]
  .next (if p.st = .busOff then
    let s1 : State := { s with ports := { s.ports with can := s.ports.can.set c { p with st := .active, tec := 0, rec_ := 0 } } }
    if h : 2 ≤ c.val then
      let k : Fin 2 := ⟨c.val - 2, by omega⟩
      let s2 : State := { s1 with
        out := { s1.out with chan := modAt s1.out.chan k fun (o : CanOut) => { o with freshDue := true } }
        ev := s1.ev.raise (evtOpen .busOffRecovered (28 + c.val) k.val) }
      if s2.canSafeOn then s2.queueCan k 0 0 else s2
    else s1
  else s))

/-- ETHERNET_LINK_CHANGE (R125, R455): link and negotiated speed; a vehicle port that loses its link discards its copies. -/
def execEthernetLinkChange (port : Fin 8) (up : Bool) (speed : Nat) (s : State) : Host.Outcome State Fault Refusal :=
  .next (if s.portUp ⟨8 + port.val, by omega⟩ then
    let s1 : State := { s with ports := { s.ports with eth := modAt s.ports.eth port fun (p : EthPort) => { p with link := up, speed := speed } } }
    if h : 6 ≤ port.val ∧ up = false then
      { s1 with out := { s1.out with port := modAt s1.out.port (⟨port.val - 6, by omega⟩ : Fin 2) OutPort.cut } }
    else s1
  else s)

end Sys2Proof.Machine
end

