-- ==== Sys2Proof/Machine/Pau.lean ====
section
/-! DEFINITION. The commands of the Projection and Alignment Unit (spec 09_projection_and_alignment). -/

namespace Sys2Proof.Machine

open Sys2Proof

/-- Target and as-of time of a point's pose query (R220). -/
def Pau.queryTimes (p : Pau) (c : RsCfg) (it : PipeItem) (frame : Option Frame) : T64 × T64 :=
  let dev : Deviation := match frame with | some f => (p.setFor f.no).dev[it.sensor.val]! | none => {}
  let t := it.r.tov + BitVec.ofInt 64 (c.geo.dt dev)
  (t, t + us c.asof)

/-- A compensated core goes to Channel B's input, and from S2 to the decoration path (R224, R228, R231). -/
def State.handCore (s : State) (c : RsCfg) (k : Core) : State :=
  let s1 : State := { s with cb := { s.cb with input := s.cb.input ++ [.hit k] } }
  if s.bcc.stage.toNat < 2 || s.pau.isClosed k.frame then s1
  else
    let pt : Point := ⟨k, c.cams.map fun (x : Fin 16) => (x, SlotSt.waiting)⟩
    if pt.undecided && decide (s.pau.cfg.pending ≤ s.pau.pendingCount) then
      let s2 : State := { s1 with pau := { s1.pau with decorOverrun := bump s1.pau.decorOverrun } }
      s2.chargeDrops [] [k.frame]
    else { s1 with pau := { s1.pau with points := s1.pau.points ++ [pt] } }

/-- ROWS of a headgate: the height of its camera's images (R217). -/
def State.rowsOf (s : State) (h : Fin 64) : Nat := match s.hgs[h].cfg with | some c => c.rows | none => 0

/-- One point leaves the head of a pipe, or goes on waiting (R221, R222); the records behind it that need no compensation follow it (R384). -/
def State.compensateHead (s : State) (pipe : Fin 4) (waited crcBad : Bool) : State :=
  match s.pau.pipes[pipe] with
  | [] => s
  | it :: rest =>
    if it.waited ≠ waited then s else
    match s.pau.rs[it.sensor] with
    | none => ({ s with pau := { s.pau with pipes := s.pau.pipes.set pipe rest } } : State).forwardMarks pipe
    | some c =>
      let frame := s.tb.frameAt it.r.tov
      let q := s.pau.queryTimes c it frame
      let next : State := { s with pau := { s.pau with pipes := s.pau.pipes.set pipe rest } }
      match s.pau.compensate c it frame crcBad s.pose with
      | .wait =>
        if waited then s
        else { s with pau := { s.pau with pipes := s.pau.pipes.set pipe ({ it with waited := true } :: rest), poseWait := bump s.pau.poseWait } }
      | .discard lost n =>
        let s1 := next.countQuery q.1 q.2
        ({ s1 with pau := { s1.pau with
            noPose := bump s1.pau.noPose, sat := bumpBy s1.pau.sat n
            lostItem := if lost && !(s1.pau.lostItem.contains (it.r.hg, it.r.itemNo)) then s1.pau.lostItem ++ [(it.r.hg, it.r.itemNo)] else s1.pau.lostItem } } : State).forwardMarks pipe
      | .core k n =>
        let s1 := next.countQuery q.1 q.2
        (({ s1 with pau := { s1.pau with sat := bumpBy s1.pau.sat n } } : State).handCore c k).forwardMarks pipe

/-- POINT_COMPENSATE (R218 to R224): the point at the head of a pipe; one whose rung or reference pose is not there yet starts to wait. `crcBad`: the
CRC of the pose answer fails (R206, R222). -/
def execPointCompensate (pipe : Fin 4) (crcBad : Bool) (s : State) : Host.Outcome State Fault Refusal := s.gate (.next (s.compensateHead pipe false crcBad))

/-- POINT_POSE_WAIT (R222): the waiting point at the head of a pipe. -/
def execPointPoseWait (pipe : Fin 4) (crcBad : Bool) (s : State) : Host.Outcome State Fault Refusal := s.gate (.next (s.compensateHead pipe true crcBad))

/-- Change the i-th point that still has a slot to decide. -/
def projectNth (f : Point → Point × Tried) : Nat → List Point → List Point × Tried
  | _, [] => ([], {})
  | i, p :: ps =>
    if p.undecided then
      match i with
      | 0 => let r := f p; (r.1 :: ps, r.2)
      | j + 1 => let r := projectNth f j ps; (p :: r.1, r.2)
    else let r := projectNth f i ps; (p :: r.1, r.2)

/-- Count the pose queries of projections (R207). -/
def State.countQueries (s : State) (qs : List (T64 × T64)) : State := qs.foldl (fun (s : State) q => s.countQuery q.1 q.2) s

/-- POINT_PROJECT (R225 to R228): the i-th undecided point of the decoration path. -/
def execPointProject (i : Nat) (s : State) : Host.Outcome State Fault Refusal :=
  s.gate (let r := projectNth (fun (p : Point) => s.pau.projectPoint p s.rowsOf s.pl.cfg.lag false s.checkedPose) i s.pau.points
  .next (({ s with pau := { s.pau with points := r.1, expFallback := bumpBy s.pau.expFallback r.2.falls } } : State).countQueries r.2.queries))

/-- PAU_CLOSE_PASS (R228 to R234): the oldest frame whose close has been signalled, once no pose answer that it asks for waits for its rung
(R207); in S1 there is nothing to decorate (R231). -/
def execPauClosePass (s : State) : Host.Outcome State Fault Refusal :=
  s.gate (.next (match s.pau.closing with
    | [] => s
    | n :: rest =>
      match (if s.bcc.stage.toNat < 2 then some (s.pau, []) else s.pau.closePass n s.rowsOf s.pl.cfg.lag s.checkedPose) with
      | none => s
      | some r => ({ s with pau := { r.1 with closing := rest, closed := some n } } : State).countQueries r.2))

/-- Headgates of alignment sensors (R449). -/
def Pau.hgsOf (p : Pau) (l : List (Fin 24)) : List (Fin 64) := l.filterMap fun (k : Fin 24) => (p.geometry k).map (·.hg)

/-- ALIGN_STEP_APPLY (R236, R237): at Bₙ₊₂ the outcome of the solve of the window that frame n closed. -/
def execAlignStepApply (s : State) : Host.Outcome State Fault Refusal :=
  s.gate (.next (match s.pau.work with
    | some w =>
      if w.solved.isSome ∧ 3 ≤ s.bcc.stage.toNat ∧ (w.frame + 2).toNat ≤ s.tb.no.toNat ∧ s.tb.frame.isSome then
        let r := s.pau.applyStep s.tb.now
        ({ s with pau := r.1, ev := s.ev.raiseAll r.2.2 } : State).maskStreams (r.1.hgsOf r.2.1) reasonMisaligned
      else s
    | none => s))

/-- MIS_HOLD_EXPIRY (R237). -/
def execMisHoldExpiry (sensor : Fin 24) (s : State) : Host.Outcome State Fault Refusal :=
  s.gate (let r := s.pau.holdExpiry sensor s.tb.now
  let s1 : State := { s with pau := r.1, ev := s.ev.raiseAll r.2.2 }
  .next (if r.2.1 then
    { s1 with hgs := (r.1.hgsOf [sensor]).foldl (fun (v : Vector Headgate 64) (h : Fin 64) =>
        modAt v h fun (g : Headgate) => (g.release h s.tb.now reasonMisaligned).endItem false) s1.hgs }
  else s1))

end Sys2Proof.Machine
end

