-- ==== Sys2Proof/Machine/Pose.lean ====
section
/-! DEFINITION. The commands of the Pose Ladder (spec 08_pose_ladder). -/

namespace Sys2Proof.Machine

open Sys2Proof

/-- Island of the Pose Ladder's first core, which raises its events (R192). -/
def poseIsland : Nat := 44

/-- A value of a SCALAR record in its OUT format (R159). -/
def outVal (out : Nat) (w : Word) : Rat := if out = 6 then qVal w else if out = 13 then (f32Val w).rat else (w.toInt : Rat)

/-- The value that field entry `i` of a stream gave a SCALAR record: a record holds the VALUE entries, in order (R153, R159). None for an entry of another role. -/
def HgCfg.fieldValue (c : HgCfg) (i : Nat) (vs : List Word) : Option Rat :=
  match c.fields[i]? with
  | some f => if f.role = .value then some (outVal f.out (vs.getD ((c.fields.take i).filter (·.role == .value)).length 0)) else none
  | none => none

/-- The yaw rate and the forward acceleration at the reference point of an IMU sample (R196): the acceleration turned by the mounting yaw,
less the centripetal term of the lever arm. A sample without one of its named values is not used. DESIGN CHOICE, log entry 163.
DESIGN CHOICE, log entry 186. -/
def PlImu.sample (e : PlImu) (c : HgCfg) (vs : List Word) : Option (Fx (Rat × Rat)) :=
  let yaw : Word := e.yaw.setWidth 32 <<< 16
  match c.fieldValue e.yawField.val vs, c.fieldValue e.fwdField.val vs, c.fieldValue e.latField.val vs with
  | some w, some f, some l => some do
    let w ← plFx w
    let ww ← plFx (w * w)
    return (w, ← plFx ((← plFx (cosR yaw * f)) - (← plFx (sinR yaw * l)) + (← plFx (ww * qVal e.leverX))))
  | _, _, _ => none

/-- What a record is to the estimator (R194, R205), with the saturations met (R178): nothing where it is not used. -/
def PoseLadder.inputFx (pl : PoseLadder) (c : Option HgCfg) (r : Rec) : Option (Fx PlInput) :=
  match pl.encOf r.hg, pl.imuOf r.hg, r.body with
  | some i, _, .edge c => some (pure (.enc i { c with stamp := r.tov }))
  | some i, _, .state new _ _ => some (pure (.state false i new))
  | none, some i, .scalar _ _ vs => if r.held then none else
      match pl.cfg.imus[i]?, c with
      | some e, some h => (e.sample h vs).map fun (m : Fx (Rat × Rat)) => do
        let (w, a) ← m
        return PlInput.imu i w a
      | _, _ => none
  | none, some i, .state new _ _ => some (pure (.state true i new))
  | _, _, _ => none
def PoseLadder.inputOf (pl : PoseLadder) (c : Option HgCfg) (r : Rec) : Option PlInput := (pl.inputFx c r).map fun (m : Fx PlInput) => (m.run 0).1

/-- PL_INPUT_RECORD (R198): the oldest record read from the flumes. -/
def execPlInputRecord (s : State) : Host.Outcome State Fault Refusal :=
  s.gate (.next (match s.pl.inbox with
    | [] => s
    | r :: rest =>
      let pl : PoseLadder := { s.pl with inbox := rest }
      match pl.inputFx s.hgs[r.hg].cfg r with
      | none => { s with pl := pl }
      | some m =>
        let (x, n) := m.run 0
        let take : State := { s with pl := { pl with inputs := pl.insert r.tov x pl.inputs, sat := bumpBy pl.sat n } }
        match pl.head with
        | some k =>
          if tLater r.tov (rungT k) then take
          else { s with pl := { pl with behind := bump pl.behind }, ev := s.ev.raise (evtOpen .poseInputBehind poseIsland 0) }
        | none => take))

/-- A lockstep mismatch (R192): nothing is delivered from here to reset. -/
def State.plMismatch (s : State) : State :=
  { s with pl := { s.pl with dead := true, live := poseFail 0 s.pl.live.tov, waiting := Vector.replicate 8 [] }, ev := s.ev.raise (evtOpen .plLockstep poseIsland 0) }

/-- Rung k is due: k µs + LAG has come (R197). -/
def State.rungDue (s : State) : Option Nat :=
  match s.pl.nextK with
  | some k => if !s.pl.dead && tReached s.tb.now (rungT k + us s.pl.cfg.lag) then some k else none
  | none => none

/-- The oldest waiting query of a port leaves behind the answers before it, if its head is visible; EVICTED is judged at its issue (R207). -/
def State.answerNext (s : State) (p : Fin 8) : State :=
  match s.pl.waiting[p] with
  | [] => s
  | (t, α, issued) :: rest =>
    match s.pl.answer t α issued with
    | none => s
    | some (r, _, _) =>
      let s1 := s.countQueryAt t α issued
      { s1 with pl := { s1.pl with answers := s1.pl.answers.set p (s1.pl.answers[p] ++ [r]), waiting := s1.pl.waiting.set p rest } }

/-- The waiting queries of a port whose heads are visible are answered, oldest first (R207). -/
def State.answerPort (s : State) (p : Fin 8) : State :=
  match s.pl.waiting[p] with
  | [] => s
  | (t, α, issued) :: rest =>
    if (s.pl.answer t α issued).isNone then s else
    let s1 : State := { s with pl := { s.pl with answers := s.pl.answers.set p [] } }
    rest.foldl (fun (s : State) _ => s.answerNext p) (s1.answerNext p)

/-- The waiting queries of every port (R207). -/
def State.answerWaiting (s : State) : State := (List.finRange 8).foldl State.answerPort s

/-- RUNG_WRITE (R197, R200, R192): the queries that wait for the rung are answered (R207). -/
def execRungWrite (lockstepOk : Bool) (s : State) : Host.Outcome State Fault Refusal :=
  s.gate (.next (match s.rungDue with
    | none => s
    | some k =>
      if lockstepOk then
        let r := s.pl.writeRung k
        (({ s with pl := r.1, ev := s.ev.raiseAll r.2.2 } : State).maskStreams r.2.1 reasonExternal).answerWaiting
      else s.keepLive.plMismatch))

/-- POSE_MASK_RELEASE (R203, R204): MASK_HOLD after the mask. -/
def execPoseMaskRelease (isImu : Bool) (i : Fin 8) (s : State) : Host.Outcome State Fault Refusal :=
  s.gate (let hold := s.pl.cfg.maskHold * ticksPerMs
  let free (hg : Option (Fin 64)) (pl : PoseLadder) : State :=
    match hg with
    | some h => { s with pl := pl, hgs := modAt s.hgs h fun (g : Headgate) => (g.release h s.tb.now reasonExternal).endItem false }
    | none => { s with pl := pl }
  .next (if isImu then
    if h : i.val < 4 then
      match s.pl.imus[i.val].maskedAt with
      | some t => if elapsed s.tb.now t hold then
          free ((s.pl.cfg.imus[i.val]?).map (·.headgate)) { s.pl with imus := s.pl.imus.set i.val { s.pl.imus[i.val] with maskedAt := none } }
        else s
      | none => s
    else s
  else
    match s.pl.encs[i].maskedAt with
    | some t => if elapsed s.tb.now t hold then
        free ((s.pl.cfg.encs[i.val]?).map (·.headgate)) { s.pl with encs := s.pl.encs.set i { s.pl.encs[i] with maskedAt := none } }
      else s
    | none => s))

/-- The Pose Ladder is lost (R205). -/
def State.poseLost (s : State) (t : T64) : State :=
  { s with pl := s.pl.toMode .lost t, ev := s.ev.raise (evtOpen .poseLost poseIsland 0) }

/-- COAST_MAX_EXPIRY (R205): judged at the rung that is due, so that the rung carries the new mode; an input from before the limit is taken
first, by the rung. DEDUCED, log entry 109. -/
def execCoastMaxExpiry (s : State) : Host.Outcome State Fault Refusal :=
  s.gate (.next (match s.rungDue, s.pl.coastAt with
    | some k, some t =>
      if s.pl.mode = .coast ∧ elapsed (rungT k) t (s.pl.cfg.coastMax * ticksPerMs) = true
          ∧ (s.pl.inputs.all fun (x : T64 × PlInput) => !(tLater (t + ms s.pl.cfg.coastMax) x.1)) = true then s.poseLost (rungT k) else s
    | _, _ => s))

/-- IMU_ONLY_MAX_EXPIRY (R205). DEDUCED, log entry 109. -/
def execImuOnlyMaxExpiry (s : State) : Host.Outcome State Fault Refusal :=
  s.gate (.next (match s.rungDue, s.pl.imuOnlyAt with
    | some k, some t =>
      if (s.pl.mode = .slip ∨ s.pl.mode = .imuOnly) ∧ ((s.pl.cfg.imuOnlyMax * ticksPerMs : Nat) : Int) < tDiff (rungT k) t
          ∧ (s.pl.inputs.all fun (x : T64 × PlInput) => tLater x.1 (t + ms s.pl.cfg.imuOnlyMax)) = true then s.poseLost (rungT k) else s
    | _, _ => s))

/-- POSE_QUERY (R207, R192): the answer leaves by the port it came in; the query waits while its head is not visible. -/
def execPoseQuery (port : Fin 8) (t alpha : T64) (lockstepOk : Bool) (s : State) : Host.Outcome State Fault Refusal :=
  s.gate (.next (if s.pl.dead then { s with pl := { s.pl with answers := s.pl.answers.set port [] } }
    else match s.pose t alpha with
    | none => { s with pl := { s.pl with waiting := modAt s.pl.waiting port fun (l : List (T64 × T64 × T64)) => l ++ [(t, alpha, s.tb.now)] } }
    | some r =>
      if lockstepOk then
        let s1 := s.countQuery t alpha
        { s1 with pl := { s1.pl with answers := s1.pl.answers.set port [r] } }
      else s.keepLive.plMismatch))

/-- LIVE_RECORD (R211): the live record of the latest whole microsecond; it decides the reference poses of the frames up to it (R219). DEDUCED, log entry 108. -/
def execLiveRecord (lockstepOk : Bool) (s : State) : Host.Outcome State Fault Refusal :=
  s.gate (let t := us (s.tb.now.toNat / ticksPerUs)
  let frames := match s.tb.frame with | some f => f :: s.tb.past | none => []
  .next (if s.pl.start.isNone then s
    else if !lockstepOk && !s.pl.dead then
      let s1 := s.plMismatch
      { s1 with pau := s1.pau.decideRefs frames s1.pl.live true }
    else
      let r := s.pl.liveAt t
      let pl : PoseLadder := { s.pl with live := r.1, sat := bumpBy s.pl.sat r.2 }
      { s with pl := pl, pau := s.pau.decideRefs frames (pl.checked r.1) pl.dead }))

end Sys2Proof.Machine
end

