-- ==== Sys2Proof/Machine/ResetPower.lean ====
section
/-! DEFINITION. The commands of reset, enrolment, supplies, clocks and boundary scan (spec 03 R70, R71; spec 23 R525 to R530, R542). -/

namespace Sys2Proof.Machine

open Sys2Proof

/-- RESET_ASSERT (R527): the whole device is reset; SAFE_OK_A, SAFE_OK_B and FAULT_N are low until reset release. -/
def execResetAssert (s : State) : Host.Outcome State Fault Refusal := .next s.resetWith

/-- RESET_N_SHORT_PULSE (R526): ignored. -/
def execResetNShortPulse (s : State) : Host.Outcome State Fault Refusal := .next s

/-- POWER_ON_RESET (R526): before reset release the internal reset follows the supply monitors. DESIGN CHOICE, log entry 75. -/
def execPowerOnReset (inRange : Bool) (s : State) : Host.Outcome State Fault Refusal :=
  .next (if s.tb.running then s else { s with pwr := { s.pwr with por := !inRange } })

/-- RESET_RELEASE (R526, R528, R35): device time starts at 0, the straps are sampled and the S0 islands take power. DESIGN CHOICE, log entry 75. -/
def execResetRelease (straps : Straps) (s : State) : Host.Outcome State Fault Refusal :=
  .next (if s.tb.running || s.pwr.por then s else
    { s with
      tb := { s.tb with running := true, now := 0, frac := 0 }
      pwr := { s.pwr with resetN := false, straps := some straps }
      bcc := { s.bcc with held := straps.strapA || straps.strapB }
      isl := s.isl.powerOn poweredS0 })

/-- PHASE_ENROLMENT_MARKER (R70): `missing` is the island pair of a crossing that has not reported its preset. -/
def execPhaseEnrolmentMarker (missing : Option (Fin 144 × Fin 144)) (s : State) : Host.Outcome State Fault Refusal :=
  .next (if s.tb.running && !s.isl.allEnrolled && s.isl.enrolFail.isNone && s.isl.markDue s.tb.now then
    let isl := s.isl.marker missing s.tb.now
    -- the outputs of device time run from here on (R63, R67)
    { s with isl := isl, bcc := { s.bcc with held := s.bcc.held || isl.enrolFail.isSome, condAt := s.tb.now }
             tb := { s.tb with ppsFrom := if isl.allEnrolled then s.tb.now else s.tb.ppsFrom } }
  else s)

/-- ISLAND_REENROL (R71, R470): a powered island is enrolled against its neighbours, its memory cleared before. `lines` are the levels of
A, B and Z that an encoder channel samples at its end (R139). -/
def execIslandReenrol (island : Fin 144) (lines : BitVec 3) (s : State) : Host.Outcome State Fault Refusal :=
  .next (if s.isl.allEnrolled && s.isl.powered[island] && !s.isl.enrolled[island] then
    { s with isl := s.isl.reenrol island, mem := s.mem.clearIsland island.val, bcc := { s.bcc with condAt := s.tb.now }
             ports := s.ports.enrolled island.val lines s.tb.now }
  else s)

/-- SUPPLY_FAIL (R525). -/
def execSupplyFail (monitor : Fin 16) (s : State) : Host.Outcome State Fault Refusal :=
  .next (if s.tb.running then
    { s with pwr := { s.pwr with supplyFail := s.pwr.supplyFail ||| BitVec.ofNat 16 (2 ^ monitor.val) }
             ev := s.ev.raise (evt .supplyFail sensorIsland monitor.val monitor.val) }
  else s)

/-- A reading is due: 1 ms of device time after the one before (R542). -/
def Power.readDue (p : Power) (now : T64) : Bool := match p.readAt with | some t => elapsed now t ticksPerMs | none => true

/-- TEMPERATURE_READING (R542, R486): the sensors and the supply monitors, each 1 ms. -/
def execTemperatureReading (readings : Vector Int 8) (supplies : Vector Nat 16) (s : State) : Host.Outcome State Fault Refusal :=
  s.gate (.next (if s.tb.running && s.pwr.readDue s.tb.now then
    let r := readTemps s.pwr.temp readings
    let s1 := (List.finRange 8).foldl (fun (s : State) i => s.sample 8 i.val readings[i]) s
    let s2 := (List.finRange 16).foldl (fun (s : State) i => s.sample 9 i.val ((supplies[i] : Nat) : Int)) s1
    { s2 with pwr := { s.pwr with temp := r.1, supply := supplies, readAt := some s.tb.now }, ev := s.ev.raiseAll r.2 }
  else s))

/-- CLOCK_FAIL (R529, R426): REFCLK fails as the Timebase's island 42. -/
def execClockFail (island : Fin 144) (s : State) : Host.Outcome State Fault Refusal :=
  .next (if s.tb.running && s.isl.powered[island] then
    { s with isl := { s.isl with clockFail := s.isl.clockFail.set island true }
             ev := s.ev.raise (evtOpenAt .clockFail (clockClass island.val) island.val 0) }
  else s)

/-- EXTEST (R530): in force only once an unlock certificate has been presented. -/
def execExtest (certificate on : Bool) (s : State) : Host.Outcome State Fault Refusal :=
  .next { s with pwr := { s.pwr with unlocked := s.pwr.unlocked || certificate, extest := on && (s.pwr.unlocked || certificate) } }

end Sys2Proof.Machine
end

