-- ==== Sys2Proof/Machine/SafetyOps.lean ====
section
/-! DEFINITION. What entering DEGRADED and SAFE does, and the supervisors (spec 17 R409 to R412, R415, R423 to R425). -/

namespace Sys2Proof.Machine

open Sys2Proof

/-- Island of the Spillway (R68). -/
def spillIsland : Nat := 143

/-- The Spillway takes an island's lines into account (R407): it is powered and enrolled. -/
def State.heard (s : State) (i : Fin 144) : Bool := s.isl.powered[i] && s.isl.enrolled[i]

/-- A C2 line, or a C3 line, is asserted at the Spillway. DESIGN CHOICE, log entry 16. -/
def State.c2Lines (s : State) : Bool := (List.finRange 144).any fun i => s.ev.lineC2[i] && s.heard i
def State.c3Lines (s : State) : Bool := (List.finRange 144).any fun i => s.ev.lineC3[i] && s.heard i
/-- The same at path B, from its own copy of the lines (R415). -/
def State.c3LinesB (s : State) : Bool := (List.finRange 144).any fun i => s.ev.lineC3B[i] && s.heard i
/-- A C2 line counts anew: not where a release has ended the C2 state and the lines wait for their Gₖ, unless a C2 event came since (R409). -/
def State.c2Anew (s : State) : Bool := s.c2Lines && (!s.safety.releaseDue || s.ev.c2InFrame)

/-- Every supervisor that is not lost changes its own copies (R422). -/
def Safety.each (x : Safety) (f : Supervisor → Supervisor) : Safety :=
  { x with sup := x.sup.map fun (v : Supervisor) => if v.lost then v else f v }

/-- Flush every queue of every engine (R284, R412). -/
def State.flushAll (s : State) : State :=
  (List.finRange 4).foldl (fun (s : State) (t : Fin 4) =>
    (List.finRange 4).foldl (fun (s : State) (q : Fin 4) =>
      let r := s.tes.te[t].flush t q
      { s with tes := { s.tes with te := s.tes.te.set t r.1 }, ev := s.ev.raiseAll r.2 }) s) s

/-- The PCU or the Tracker holds a launch whose work is not done: it goes on to its next step boundary (R412). -/
def Seq.inSteps (q : Seq) (u : Fin 6) : Bool :=
  decide (u.val < 2) && (match q.busy[u] with | some x => !(q.finished.contains x) | none => false)

/-- Every launch that runs stops (R412), with OUTCOME 6 in its entry (R518). The PCU and the Tracker keep the task in progress, which PCU_TASK and
TRACKER_TASK end at a step boundary. DESIGN CHOICE, log entry 95. -/
def Seq.stopAll (q : Seq) : Seq :=
  let live := q.launches.filter fun (l : Launch) => l.outcome == .running
  let q1 := live.foldl (fun (q : Seq) (l : Launch) => if h : l.entry < 256 then q.show ⟨l.entry, h⟩ l.j .stopped l.runShort else q) q
  let held (l : Launch) : Bool := (List.finRange 6).any fun (u : Fin 6) => q.inSteps u && q.busy[u] == some (l.frame, l.entry, l.j)
  { q1 with
    launches := q1.launches.map fun (l : Launch) =>
      { l with outcome := if l.outcome = .running then .stopped else l.outcome, aborted := l.aborted || held l }
    busy := Vector.ofFn fun (u : Fin 6) => if q.inSteps u then q.busy[u] else none
    finished := [] }

/-- Entry to SAFE (R409, R412, R415): the C3 latches of the paths given, the event, every engine queue flushed, every task stopped and no load
going on. Once SAFE only a latch can still be set. DESIGN CHOICE, log entry 95. -/
def State.enterSafe (s : State) (a b : Bool) : State :=
  let s := s.keepCopies
  let la := s.safety.latchA || a
  let lb := s.safety.latchB || b
  if s.safety.st = .safe then { s with safety := { s.safety with latchA := la, latchB := lb } }
  else
    let s1 : State := { s with
      safety := { (s.safety.each fun (v : Supervisor) => { v with st := .safe }) with latchA := la, latchB := lb, st := .safe, c3At := some s.tb.now }
      ev := s.ev.raise (evt .safetyState spillIsland 0 2)
      -- R31: the motion command is marked invalid
      qsa := { s.qsa with cmd := { s.qsa.cmd with valid := false } }
      bcc := if s.bcc.result = .reading then { s.bcc with result := .c3 } else s.bcc }
    let s2 := s1.flushAll
    { s2 with seq := s2.seq.stopAll }

/-- Entry to DEGRADED (R409, R411). -/
def State.enterDegraded (s : State) : State :=
  { s.keepCopies with
    safety := { (s.safety.each fun (v : Supervisor) => { v with st := .degraded }) with latchC2 := true, st := .degraded, c2At := some s.tb.now, clear := 0, releaseDue := false }
    ev := s.ev.raise (evt .safetyState spillIsland 0 1) }

/-! ### The self-test slices (R424) -/

/-- Checkers and slices of a rotation of each checker group, in the order of R424's table. -/
def sliceCounts : List (Nat × Nat) :=
  [(1, 256), (1, 256), (288, 288), (3, 96), (76, 152), (88, 176), (144, 144), (24, 48), (1, 64), (2, 128), (2, 128), (2, 64), (144, 144), (4, 104)]

/-- The longest gap of a checker of a group: ⌈2,048 / c⌉ of its c slices; 80 for the safe-state paths. DESIGN CHOICE, log entry 53. -/
def sliceGap (g : Nat) : Nat :=
  if g = 13 then 80 else match sliceCounts[g]? with | some (k, n) => (2048 + n / k - 1) / (n / k) | none => 0

/-- No two neighbours of an ascending list of slices, the last and the first of the next rotation among them, lie further apart than a gap. -/
def gapsOk (gap first : Nat) : List Nat → Bool
  | [] => false
  | [a] => decide (first + 2048 ≤ a + gap)
  | a :: b :: r => decide (b ≤ a + gap) && gapsOk gap first (b :: r)

/-- A table of slices is one that R424 describes: 2,048 slices, and each checker of each group with its slices and within its gap. -/
def slicesOk (t : List (Nat × Nat)) : Bool :=
  t.length == 2048 && (List.range 14).all fun (g : Nat) =>
    match sliceCounts[g]? with
    | some (k, n) => (List.range k).all fun (c : Nat) =>
        let at_ := (List.range 2048).filter fun (i : Nat) => t[i]? == some (g, c)
        at_.length == n / k && gapsOk (sliceGap g) (at_.headD 0) at_
    | none => false

/-- The slices of the checkers that are tested at a fixed pace, in the table that the model takes where its free table breaks R424. -/
def pacedSlice (i : Nat) : Option (Nat × Nat) :=
  let on (a b : Nat) : Bool := i == a || (decide (b ≤ i) && (i - b) % 80 == 0)
  if i % 8 = 0 then some (0, 0) else if i % 8 = 1 then some (1, 0)
  else match i % 32 with
  | 2 => some (8, 0) | 3 => some (9, 0) | 4 => some (9, 1) | 5 => some (10, 0) | 6 => some (10, 1)
  | _ => match i % 64 with
    | 7 => some (3, 0) | 10 => some (3, 1) | 11 => some (3, 2) | 12 => some (11, 0) | 13 => some (11, 1)
    | _ => if on 14 62 then some (13, 0) else if on 15 63 then some (13, 1) else if on 18 78 then some (13, 2) else if on 19 79 then some (13, 3) else none

/-- Its other slices: of the checkers with two slices, half a rotation apart, and of those with one. -/
def freeSlices : List Nat := (List.range 2048).filter fun i => (pacedSlice i).isNone
def pairedSlices : List Nat := (freeSlices.filter fun i => decide (i < 1024) && (pacedSlice (i + 1024)).isNone).take 188
def defaultSlice (i : Nat) : Nat × Nat :=
  match pacedSlice i with
  | some x => x
  | none => match pairedSlices.findIdx? fun a => a == i % 1024 with
    | some k => if k < 76 then (4, k) else if k < 164 then (5, k - 76) else (7, k - 164)
    | none =>
      let k := ((freeSlices.filter fun a => !(pairedSlices.contains (a % 1024))).findIdx? fun a => a == i).getD 0
      if k < 288 then (2, k) else if k < 432 then (6, k - 288) else (12, k - 432)

/-- The checker group and checker of a slice (R424): those of the free table where it is one that R424 describes. DESIGN CHOICE, log entry 53. -/
def sliceOf (i : Nat) : Nat × Nat := if slicesOk Config.sliceTable then Config.sliceTable.getD i (0, 0) else defaultSlice i

/-- The island of a checker: of the fault lines, the clock monitors and the class registers one after another, C2 before C3; of the others that a
rule places, there; else free. DESIGN CHOICE, log entry 53. -/
def checkerIsland (g c : Nat) : Fin 144 :=
  match g with
  | 0 => 126 | 1 => 44 | 3 => 143 | 8 => 128 | 11 => 143
  | 2 => ⟨c / 2 % 144, Nat.mod_lt _ (by decide)⟩
  | 6 | 12 => ⟨c % 144, Nat.mod_lt _ (by decide)⟩
  | 10 => ⟨130 + c % 2, by omega⟩
  | _ => Config.checkerIsland g c

/-- Supervisors are lost (R418, R423): each is held in reset until the next device reset. DEDUCED, log entry 91. -/
def Safety.lose (x : Safety) (f : Fin 2 → Bool) : Safety :=
  { x with sup := Vector.ofFn fun (i : Fin 2) => if f i then { x.sup[i] with lost := true } else x.sup[i], pair := .one, differ := Vector.replicate 2 0 }

/-- The other supervisor. -/
def otherSup (i : Fin 2) : Fin 2 := if i = 0 then 1 else 0

/-- Island of a supervisor (R422). DESIGN CHOICE, log entry 21. -/
def supervisorIsland (i : Fin 2) : Nat := 130 + i.val

/-- An island of Channel A: headgates, PAU, PCU, Tensor Engines, Tracker, QSA. DEDUCED, log entry 89. -/
def channelA (i : Nat) : Bool := (decide (34 ≤ i) && decide (i ≤ 41)) || (decide (46 ≤ i) && decide (i ≤ 79)) || (decide (112 ≤ i) && decide (i ≤ 121))

/-- An island whose clock and supply monitors are of class C3 (R425). DEDUCED, log entry 89. -/
def guardSide (i : Nat) : Bool := (decide (42 ≤ i) && decide (i ≤ 45)) || (decide (122 ≤ i) && decide (i ≤ 143))

/-- Class of SELFTEST_FAIL by checker group, in the order of R424's table, and island (R425). DEDUCED, log entries 89, 93. -/
def sliceClass (group : Nat) (island : Nat) : FaultClass :=
  match group with
  | 0 | 1 | 2 | 3 | 9 | 11 | 13 => .c3
  | 4 => if channelA island then .c2 else .c1
  | 6 => if guardSide island then .c3 else if channelA island then .c2 else .c1
  | 7 => if guardSide island then .c3 else .c1
  | 8 => .c2
  | 12 => if decide (50 ≤ island) && decide (island ≤ 79) || decide (112 ≤ island) && decide (island ≤ 121) then .c2 else .c1
  | _ => .c1

end Sys2Proof.Machine
end

