-- ==== Sys2Proof/Machine/Safety.lean ====
section
/-! DEFINITION. The commands of the Spillway, the supervisors and the self-tests (spec 17_safety). -/

namespace Sys2Proof.Machine

open Sys2Proof

/-- FAULT_COLLECTION (R407, R409): the asserted lines reach the Spillway; C3 is taken before C2. A C2 event while a release waits for its Gₖ keeps the
C2 state. DESIGN CHOICE, log entry 16. -/
def execFaultCollection (s : State) : Host.Outcome State Fault Refusal :=
  s.gate (.next (if !s.tb.running then s
    else if s.c3Lines || s.c3LinesB then
      ({ s.keepCopies with safety := { s.safety with latchC2 := s.safety.latchC2 || s.c2Anew } } : State).enterSafe s.c3Lines s.c3LinesB
    else if s.c2Anew && s.safety.st == .normal then s.enterDegraded
    else s))

/-- C2_RELEASE (R409, R415): the C2 state and its latch end, and its lines are released at the next Gₖ. DEDUCED, log entries 23, 90. -/
def execC2Release (s : State) : Host.Outcome State Fault Refusal :=
  s.gate (let c := s.safety.cfg
  .next (if s.safety.st = .degraded ∧ c.c2Rearm ∧ s.safety.releases.toNat < c.c2RearmMax ∧ c.c2Clear ≤ s.safety.clear ∧ s.ev.c2InFrame = false then
    { s.keepCopies with
      safety := { (s.safety.each fun (v : Supervisor) => { v with st := .normal }) with st := .normal, latchC2 := false, releases := s.safety.releases + 1, clear := 0, releaseDue := true }
      ev := s.ev.raise (evtOpen .c2Release spillIsland 0) }
  else s))

/-- SAFE_OK_STUCK (R417): the readback of the pin of path A (false) or B differs for 1 µs. DEDUCED, log entry 94. -/
def execSafeOkStuck (path : Bool) (s : State) : Host.Outcome State Fault Refusal :=
  s.gate (let p : Fin 2 := if path then 1 else 0
  .next (if s.tb.running && !s.safety.okStuck[p] then
    ({ s with safety := { s.safety with okStuck := s.safety.okStuck.set p true }, ev := s.ev.raise (evtOpen .safeOkStuck spillIsland path.toNat) } : State).enterSafe true true
  else s))

/-- SUPERVISOR_WATCHDOG_EXPIRY (R418): a kick absent for 50 µs. DEDUCED, log entries 91, 97. -/
def execSupervisorWatchdogExpiry (sup : Fin 2) (s : State) : Host.Outcome State Fault Refusal :=
  s.gate (let late (i : Fin 2) : Bool := !s.safety.sup[i].lost && elapsed s.tb.now s.safety.sup[i].kickAt (50 * ticksPerUs)
  let o := otherSup sup
  .next (if s.enrolled && late sup then
    let x := s.safety.lose late
    let s1 : State := { s with
      safety := x
      ev := s.ev.raiseAll (((List.finRange 2).filter late).map fun (i : Fin 2) => evt .supervisorLost spillIsland i.val i.val) }
    if x.sup[o].lost then
      ({ s1 with safety := { x with supsLost := true }, ev := s1.ev.raise (evtOpen .supervisorsLost spillIsland 0) } : State).enterSafe true true
    else s1
  else s))

/-- Run of heartbeats of a supervisor whose digest differs from the other's at equal SEQ, after this one (R423). DEDUCED, log entry 92. -/
def Safety.differRun (x : Safety) (sup : Fin 2) (q : BitVec 48) (digest : Word) : Nat :=
  match x.sup[otherSup sup].beat with
  | some (p, d) => if p = q then (if d = digest then 0 else x.differ[sup] + 1) else x.differ[sup]
  | none => x.differ[sup]

/-- SUPERVISOR_HEARTBEAT (R422, R423): once in 10 µs, the SEQ of the last event it has processed and the digest of its class state; it kicks its
watchdog. Two of its heartbeats in a row whose digest differs from the other's at equal SEQ start the self-check. DESIGN CHOICE, log entry 22. -/
def execSupervisorHeartbeat (sup : Fin 2) (digest : Word) (s : State) : Host.Outcome State Fault Refusal :=
  s.gate (.next (if s.enrolled && !s.safety.sup[sup].lost && elapsed s.tb.now s.safety.sup[sup].beatAt (10 * ticksPerUs) then
    let q := s.ev.current
    let x : Safety := s.safety
    let run : Nat := x.differRun sup q digest
    let check : Bool := decide ((2 : Nat) ≤ run) && x.pair == .both
    { s with
      safety := { x with
        sup := modAt x.sup sup fun (v : Supervisor) => { v with beat := some (q, digest), beatAt := s.tb.now, kickAt := s.tb.now }
        differ := if check then Vector.replicate 2 0 else x.differ.set sup run
        pair := if check then .checking else x.pair }
      ev := if sup = 0 then { s.ev with ssaBuf := [] } else { s.ev with ssbBuf := [] } }
  else s))

/-- HEARTBEAT_ABSENT (R423): in BOTH, no heartbeat of a supervisor for 30 µs. -/
def execHeartbeatAbsent (sup : Fin 2) (s : State) : Host.Outcome State Fault Refusal :=
  s.gate (.next (if s.enrolled && s.safety.pair == .both && elapsed s.tb.now s.safety.sup[sup].beatAt (30 * ticksPerUs) then
    { s with safety := s.safety.lose fun i => i == sup
             ev := s.ev.raise (evt .supervisorLost (supervisorIsland (otherSup sup)) sup.val sup.val) }
  else s))

/-- SUPERVISOR_SELF_CHECK (R423): the known-answer self-checks of SSA and SSB. -/
def execSupervisorSelfCheck (passA passB : Bool) (s : State) : Host.Outcome State Fault Refusal :=
  s.gate (.next (if s.safety.pair = .checking then
    let x : Safety := { s.safety with sup := Vector.ofFn fun (i : Fin 2) => { s.safety.sup[i] with check := some (if i = 0 then passA else passB) } }
    if passA = passB then
      { s with safety := { x with pair := .both }
               ev := s.ev.raiseAll [evtOpen .supervisorDisagree (supervisorIsland 0) 0, evtOpen .supervisorDisagree (supervisorIsland 1) 1] }
    else
      let l : Fin 2 := if passA then 1 else 0
      { s with safety := x.lose fun i => i == l
               ev := s.ev.raise (evt .supervisorLost (supervisorIsland (otherSup l)) l.val l.val) }
  else s))

/-- The supervisor that checks the slice of a frame (R422): SSB in even frames, SSA in odd ones, the survivor once one is lost. -/
def Safety.checker (x : Safety) (n : BitVec 64) : Fin 2 :=
  let c : Fin 2 := if n.getLsbD 0 then 0 else 1
  if x.sup[c].lost then otherSup c else c

/-- SELF_TEST_SLICE (R424, R425): slice n mod 2,048 from Bₙ + ST_OFFSET; the checker has reported the injected fault, and with the TEST tag. DESIGN CHOICE, log entry 53. DEDUCED, log entry 93. -/
def execSelfTestSlice (reported tagged : Bool) (s : State) : Host.Outcome State Fault Refusal :=
  s.gate (.next (match s.tb.frame with
    | none => s
    | some f =>
      if !s.enrolled || s.safety.supsLost || s.safety.sliceFrame == some f.no || !tReached s.tb.now (f.b + us s.safety.cfg.stOffset) then s else
      let i := f.no.toNat % 2048
      let x : Safety := { s.safety with slice := BitVec.ofNat 11 i, sliceFrame := some f.no }
      let c := sliceOf i
      let isl := checkerIsland c.1 c.2
      if !s.isl.powered[isl] then { s with safety := { x with skip := bump x.skip } }
      else
        let ok := reported && tagged
        let y : Safety := { (x.each fun (v : Supervisor) => { v with test := some (BitVec.ofNat 11 i, ok) }) with slicePass := ok }
        if ok then { s with safety := y }
        else
          let e : Ev := ⟨.selftestFail, supervisorIsland (x.checker f.no), c.1, Config.checkerNumber c.1 c.2, sliceClass c.1 isl.val⟩
          { s with safety := { y with selftestFail := bump y.selftestFail }, ev := s.ev.raise e }))

end Sys2Proof.Machine
end

