-- ==== Sys2Proof/Machine/Sequencer.lean ====
section
/-! DEFINITION. The commands of the Frame Sequencer (spec 03 R81, R82; spec 10 R245). -/

namespace Sys2Proof.Machine

open Sys2Proof

/-- Write a launch to its target (R81, R281): a launch entry into a command flume, or the unit's task. -/
def State.startTask (s : State) (x : SchedEntry) (n : BitVec 64) (e : Fin 256) (j : Nat) : State :=
  match unitOf x.target with
  | some u => { s with seq := { s.seq with busy := s.seq.busy.set u (some (n, e.val, j)) } }
  | none =>
    let t : Fin 4 := ⟨x.target.toNat / 4 % 4, Nat.mod_lt _ (by decide)⟩
    let q : Fin 4 := ⟨x.target.toNat % 4, Nat.mod_lt _ (by decide)⟩
    let r := s.tes.te[t].launch t q ⟨BitVec.ofNat 8 e.val, BitVec.ofNat 4 j, n.setWidth 32, x.list⟩ s.tb.now
    ({ s with tes := { s.tes with te := s.tes.te.set t r.1 }, ev := s.ev.raiseAll r.2 } : State).sample 4 (4 * t.val + q.val) (r.1.flume[q].length : Nat)

/-- SCHEDULE_LAUNCH (R81, R83, R473): launch j of entry e in frame n; `ue` says that its entry reads uncorrectable. DESIGN CHOICE, log entry 2. -/
def execScheduleLaunch (frame : BitVec 64) (entry : Fin 256) (j : Fin 16) (ue : Bool) (s : State) : Host.Outcome State Fault Refusal :=
  s.gate (.next (if s.launchable frame entry.val j.val then
    match (s.seq.tableOf frame)[entry.val]?, s.tb.frameNo frame with
    | some x, some f =>
      if ue then
        { s with seq := { s.seq with bad := entry.val :: s.seq.bad }, ev := s.ev.raise (evtOpen .seqMemUe seqIsland entry.val) }
      else
        let late := s.seq.outOfOrder frame entry.val && !s.replaying
        let q := (s.seq.put ⟨frame, entry.val, j.val, .running, s.tb.now, false, false, none⟩).show entry j.val .running false
        let q := if late then q.charge frame fun (c : Ndc) => { c with order := c.order + 1 } else q
        let s1 := ({ s with seq := q } : State).sample 1 entry.val (tDiff s.tb.now (x.startAt f.b j.val) / ticksPerUs)
        s1.startTask x frame entry j.val
    | _, _ => s
  else s))

/-- START_MISS (R82): not launched by Bₙ + START + WINDOW; the launch and its successors are skipped. -/
def execStartMiss (frame : BitVec 64) (entry : Fin 256) (j : Fin 16) (s : State) : Host.Outcome State Fault Refusal :=
  s.gate (.next (match (s.seq.tableOf frame)[entry.val]?, s.tb.frameNo frame with
    | some x, some f =>
      if s.enrolled && !s.c3 && decide (j.val ≤ x.repeats.toNat) && (s.seq.find frame entry.val j.val).isNone
          && tLater s.tb.now (s.windowEnd f x entry.val j.val) then
        let s1 : State := { s with seq := (s.seq.put ⟨frame, entry.val, j.val, .startMiss, s.tb.now, false, false, none⟩).show entry j.val .startMiss false }
        ((s1.timingFault frame entry j.val .startMiss).unitFailed x.target frame).skipSuccessors frame entry.val
      else s
    | _, _ => s))

/-- RUN_LONG (R82): not completed by t + MAX_RT; the task is aborted. DEDUCED, log entry 15. -/
def execRunLong (frame : BitVec 64) (entry : Fin 256) (j : Fin 16) (s : State) : Host.Outcome State Fault Refusal :=
  s.gate (.next (s.runLongNow frame entry j.val))

/-- DEADLINE_MISS (R82): not completed by Bₙ + DEADLINE; the successors are skipped. -/
def execDeadlineMiss (frame : BitVec 64) (entry : Fin 256) (j : Fin 16) (s : State) : Host.Outcome State Fault Refusal :=
  s.gate (.next (s.deadlineNow frame entry j.val))

/-- TASK_COMPLETION (R82, R27): a task that is not reported by t + MAX_RT or Bₙ + DEADLINE has missed it first; then the report. Output
assembly (0x14) has no command of its own and completes when this one comes. DEDUCED, log entry 15. -/
def execTaskCompletion (frame : BitVec 64) (entry : Fin 256) (j : Fin 16) (s : State) : Host.Outcome State Fault Refusal :=
  s.gate (.next (match (s.seq.tableOf frame)[entry.val]? with
    | some x => ((s.runLongNow frame entry j.val).deadlineNow frame entry j.val).complete x frame entry j.val
    | none => s))

/-- The frame whose close comes next: the one after the latest closed, or the first of the grid. -/
def State.nextClose (s : State) : Option Frame :=
  match s.seq.closed with
  | some n => s.tb.frameNo (n + 1)
  | none => match s.tb.frame with
    | none => none
    | some f => (f :: s.tb.past).getLast?

/-- FRAME_CLOSE (R245): at Bₙ₊₁ + CLOSE_DELAY the PAU's close pass and the PCU are signalled, and the Tracker takes the stream
confidences of the instant (R352). The headgates judge lateness by the same instant (R163). DEDUCED, log entry 112. -/
def execFrameClose (s : State) : Host.Outcome State Fault Refusal :=
  s.gate (.next (match s.nextClose with
    | some f =>
      if s.enrolled && tReached s.tb.now (f.next + tick (s.pcu.closeTicks f.no)) then
        { s with
          seq := { s.seq with closed := some f.no }
          pau := { s.pau with closing := s.pau.closing ++ [f.no], closeSt := ((f.no, Vector.ofFn fun (h : Fin 64) => s.hgs[h].st) :: s.pau.closeSt).take 8 }
          trk := { s.trk with closeConf := Vector.ofFn fun (h : Fin 64) => if s.hgs[h].st = .masked then 0 else s.hgs[h].conf } }
      else s
    | none => s))

end Sys2Proof.Machine
end

