-- ==== Sys2Proof/Machine/TeCommands.lean ====
section
/-! DEFINITION. The commands of the Tensor Engines (spec 11 R280 to R284, spec 12 R304 to R324). -/

namespace Sys2Proof.Machine

open Sys2Proof

/-- Put an engine's outcome back: engines, memory and events. -/
def State.withTes (s : State) (r : Tes × Memory × List Ev) : State := { s with tes := r.1, mem := r.2.1, ev := s.ev.raiseAll r.2.2 }

/-- A tensor command of engine t: it runs where the engine's list has it next (R282, R303). -/
def State.tensor (s : State) (t : Fin 4) (ecc : EccFind) (opcode : Nat) (f : CmdEnv → Command → CmdOut) : State :=
  s.withTes (s.tes.runEcc t s.mem s.kv s.tb.now opcode ecc f)

/-- The launch that a launch entry stands for: FRAME holds the frame's low 32 bits (R281). -/
def Seq.launchOf (q : Seq) (l : LaunchEntry) : Option Launch :=
  q.launches.find? fun (x : Launch) => x.frame.setWidth 32 == l.frame && x.entry == l.entry.toNat && x.j == l.launch.toNat

/-- A chain's end (R82, R320): a complete one completes its task; a golden task that stops is a golden failure (R421). DEDUCED, log entry 96. -/
def State.taskEnd (s : State) (e : TaskEnd) : State :=
  match e with
  | .running => s
  | .complete l =>
    match s.seq.launchOf l with
    | some x => { s with seq := s.seq.finish (x.frame, x.entry, x.j) }
    | none => s
  | .stopped l =>
    match (s.seq.tableOf (match s.seq.launchOf l with | some x => x.frame | none => s.tb.no))[l.entry.toNat]? with
    | some x => if x.golden then { s with ev := s.ev.raise (evt .goldenFail s.supIsland l.entry.toNat 4) } else s
    | none => s

/-- LIST_START (R282): the next list on engine t; `ue` says that a launch entry read uncorrectable. -/
def execListStart (t : Fin 4) (ue : Bool) (s : State) : Host.Outcome State Fault Refusal :=
  s.gate (let r := s.tes.te[t].start t s.mem s.tb.now ue
  .next { s with tes := { s.tes with te := s.tes.te.set t r.1 }, ev := s.ev.raiseAll r.2 })

/-- QUEUE_FLUSH (R284): a flush request of one queue. -/
def execQueueFlush (t q : Fin 4) (s : State) : Host.Outcome State Fault Refusal :=
  s.gate (let r := s.tes.te[t].flush t q
  .next { s with tes := { s.tes with te := s.tes.te.set t r.1 }, ev := s.ev.raiseAll r.2 })

/-- NOP (R304): nothing but its place in the list. -/
def execNop (t : Fin 4) (s : State) : Host.Outcome State Fault Refusal :=
  s.gate (.next (s.withTes (s.tes.run t s.mem s.kv s.tb.now 0x00 fun e _ => { mem := e.mem })))

/-- COPY (R304): opcode 0x01. -/
def execCopy (t : Fin 4) (ecc : EccFind) (s : State) : Host.Outcome State Fault Refusal :=
  s.gate (.next (s.tensor t ecc 0x01 CmdEnv.copy))

/-- FILL (R304): opcode 0x02. -/
def execFill (t : Fin 4) (ecc : EccFind) (s : State) : Host.Outcome State Fault Refusal :=
  s.gate (.next (s.tensor t ecc 0x02 CmdEnv.fillCmd))

/-- MATMUL (R305, R306): opcode 0x10. -/
def execMatmul (t : Fin 4) (ecc : EccFind) (s : State) : Host.Outcome State Fault Refusal :=
  s.gate (.next (s.tensor t ecc 0x10 CmdEnv.matmul))

/-- CONV (R307): opcode 0x11. -/
def execConv (t : Fin 4) (ecc : EccFind) (s : State) : Host.Outcome State Fault Refusal :=
  s.gate (.next (s.tensor t ecc 0x11 CmdEnv.conv))

/-- SPCONV (R308): opcode 0x12. -/
def execSpconv (t : Fin 4) (ecc : EccFind) (s : State) : Host.Outcome State Fault Refusal :=
  s.gate (.next (s.tensor t ecc 0x12 CmdEnv.spconv))

/-- GATHER (R309): opcode 0x20. -/
def execGather (t : Fin 4) (ecc : EccFind) (s : State) : Host.Outcome State Fault Refusal :=
  s.gate (.next (s.tensor t ecc 0x20 CmdEnv.gather))

/-- SCATTER (R310): opcode 0x21. -/
def execScatter (t : Fin 4) (ecc : EccFind) (s : State) : Host.Outcome State Fault Refusal :=
  s.gate (.next (s.tensor t ecc 0x21 CmdEnv.scatter))

/-- VUNARY (R311): opcode 0x30. -/
def execVunary (t : Fin 4) (ecc : EccFind) (s : State) : Host.Outcome State Fault Refusal :=
  s.gate (.next (s.tensor t ecc 0x30 CmdEnv.vunary))

/-- VBINARY (R311): opcode 0x31. -/
def execVbinary (t : Fin 4) (ecc : EccFind) (s : State) : Host.Outcome State Fault Refusal :=
  s.gate (.next (s.tensor t ecc 0x31 CmdEnv.vbinary))

/-- VFMA (R311): opcode 0x32. -/
def execVfma (t : Fin 4) (ecc : EccFind) (s : State) : Host.Outcome State Fault Refusal :=
  s.gate (.next (s.tensor t ecc 0x32 CmdEnv.vfma))

/-- REDUCE (R312): opcode 0x33. -/
def execReduce (t : Fin 4) (ecc : EccFind) (s : State) : Host.Outcome State Fault Refusal :=
  s.gate (.next (s.tensor t ecc 0x33 CmdEnv.reduce))

/-- SOFTMAX (R313): opcode 0x34. -/
def execSoftmax (t : Fin 4) (ecc : EccFind) (s : State) : Host.Outcome State Fault Refusal :=
  s.gate (.next (s.tensor t ecc 0x34 CmdEnv.softmax))

/-- NORM (R314): opcode 0x35. -/
def execNorm (t : Fin 4) (ecc : EccFind) (s : State) : Host.Outcome State Fault Refusal :=
  s.gate (.next (s.tensor t ecc 0x35 CmdEnv.norm))

/-- ATTEND (R315, R316, R328, R329): opcode 0x40. -/
def execAttend (t : Fin 4) (ecc : EccFind) (s : State) : Host.Outcome State Fault Refusal :=
  s.gate (.next (s.tensor t ecc 0x40 CmdEnv.attend))

/-- KV_APPEND (R317): opcode 0x41. -/
def execKvAppend (t : Fin 4) (ecc : EccFind) (s : State) : Host.Outcome State Fault Refusal :=
  s.gate (.next (s.tensor t ecc 0x41 (fun e c => e.kvToken c false)))

/-- KV_FLUSH (R317): opcode 0x42. -/
def execKvFlush (t : Fin 4) (ecc : EccFind) (s : State) : Host.Outcome State Fault Refusal :=
  s.gate (.next (s.tensor t ecc 0x42 CmdEnv.kvFlush))

/-- KV_SCATTER (R317, R337): opcode 0x43. -/
def execKvScatter (t : Fin 4) (ecc : EccFind) (s : State) : Host.Outcome State Fault Refusal :=
  s.gate (.next (s.tensor t ecc 0x43 (fun e c => e.kvToken c true)))

/-- DIGEST (R321): opcode 0x60. -/
def execDigest (t : Fin 4) (ecc : EccFind) (s : State) : Host.Outcome State Fault Refusal :=
  s.gate (.next (s.withTes (s.tes.digest t s.mem s.kv s.tb.now ecc)))

/-- SIGNAL (R318): opcode 0x50. -/
def execSignal (t : Fin 4) (s : State) : Host.Outcome State Fault Refusal :=
  s.gate (.next (s.withTes (s.tes.signal t s.mem s.kv s.tb.now)))

/-- WAIT (R318): opcode 0x51; it completes on a match. -/
def execWait (t : Fin 4) (s : State) : Host.Outcome State Fault Refusal :=
  s.gate (.next (s.withTes (s.tes.wait t s.mem s.kv s.tb.now)))

/-- WAIT_TIMEOUT (R320). -/
def execWaitTimeout (t : Fin 4) (s : State) : Host.Outcome State Fault Refusal :=
  s.gate (let r := s.tes.waitTimeout t s.mem s.kv s.tb.now
  .next { s with tes := r.1, ev := s.ev.raiseAll r.2 })

/-- GOLDEN_CHECK (R322): opcode 0x61. -/
def execGoldenCheck (t : Fin 4) (s : State) : Host.Outcome State Fault Refusal :=
  s.gate (let r := s.tes.goldenCheck t s.mem s.kv s.tb.now
  .next { s with tes := r.1, ev := s.ev.raiseAll r.2 })

/-- LIST_COMPLETION (R323, R187): the list that has run out, stopped or failed ends; a poisoned word's stop is told by the memory's event (R472). -/
def execListCompletion (t : Fin 4) (s : State) : Host.Outcome State Fault Refusal :=
  s.gate (let r := s.tes.te[t].finish t s.mem s.tb.now
  .next (({ s with tes := { s.tes with te := s.tes.te.set t r.1 }, mem := r.2.1, ev := s.ev.raiseAll r.2.2.1 } : State).taskEnd r.2.2.2))

end Sys2Proof.Machine
end

