-- ==== Sys2Proof/Machine/Tracker.lean ====
section
/-! DEFINITION. The command of the Tracker (spec 14_tracker R355). -/

namespace Sys2Proof.Machine

open Sys2Proof

/-- The headgate of each support bit: range sensors 0 to 7, cameras at 8 + c (R342). -/
def Pau.supportHgs (p : Pau) : List (Option (Fin 64)) :=
  (p.rs.toList.map fun (x : Option RsCfg) => x.map fun (c : RsCfg) => c.geo.hg)
    ++ p.cfg.cams.toList.map fun (x : Option CamCfg) => x.map fun (c : CamCfg) => c.geo.hg

/-- TRACKER_TASK (R355): the task of the frame that the Tracker runs; it waits while the frame's reference pose is undecided. A task that C3 has
stopped ends with the step in progress, and what it leaves is no frame's tracks (R412). DESIGN CHOICE, log entry 95. -/
def execTrackerTask (s : State) : Host.Outcome State Fault Refusal :=
  s.gate (.next (match s.seq.busy[1] with
    | none => s
    | some (n, e, j) =>
      match s.tb.frameNo n, s.pau.refFor n with
      | some f, some ref =>
        if s.seq.finished.contains (n, e, j) then s else
        let env : TrackEnv :=
          { n := n, b := f.b, period := s.tb.cfg.period, ref := ref
            refOld := s.trk.ref
            hg := s.pau.supportHgs
            crop := match s.pcu.sectionFor n with | some x => (x.cfg.cropXy : Rat) / 65536 | none => 64
            s3 := s.bcc.stage == 3, genDone := n = 0 || s.generationDone (n - 1), kv := s.kv
            last := if s.seq.abortedAt (n, e, j) then max 1 (Config.stopStep n).val else 7 }
        let r := s.trk.task env s.mem
        { s with trk := r.1, mem := r.2.1, ev := s.ev.raiseAll r.2.2
                 seq := if s.seq.abortedAt (n, e, j) then s.seq.freeUnit n e j else s.seq.finish (n, e, j) }
      | _, _ => s))

end Sys2Proof.Machine
end

