-- ==== Sys2Proof/Machine/Twin.lean ====
section
/-! DEFINITION. The commands of the Qanat link, the twin lines, the role and the cross-check (spec 18_twin_operation). -/

namespace Sys2Proof.Machine

open Sys2Proof

/-- QANAT_LINK_UP (R428, R431): four lanes locked and deskewed; a new session opens. -/
def execQanatLinkUp (s : State) : Host.Outcome State Fault Refusal :=
  .next (if s.twinLive && !s.qnt.linkUp then
    { s with qnt := { s.qnt with
      linkUp := true, linkAt := s.tb.now, helloSeen := false, guardFresh := false, partial_ := [], helloAt := none, statusAt := none
      reported := none, bothSince := none, conflict := false, sent := none, sentAt := s.tb.now
      session := match s.qnt.session with | none => some 0 | some x => some (x + 1) } }
  else s)

/-- LANE_BLOCK_LOCK_LOSS (R428): a lane, whichever, loses block lock; the link is down. -/
def execLaneBlockLockLoss (_lane : Fin 4) (s : State) : Host.Outcome State Fault Refusal :=
  s.gate (.next (if s.qnt.linkUp then { s with qnt := s.qnt.down } else s))

/-- A cell other than a HELLO counts: the peer's HELLO of this link-up has come and the cell is of its session (R429, R431). DEDUCED, log entry 127. -/
def Qanat.inSession (q : Qanat) (session : BitVec 8) : Bool := q.helloSeen && q.peerSession == some session

/-- QANAT_CELL_RECEIVED (R429 to R432, R438): a bad CRC or a reserved type is counted, then another session; a cell that passes goes to its message. DEDUCED, log entry 127. -/
def execQanatCellReceived (cell : Cell) (s : State) : Host.Outcome State Fault Refusal :=
  .next (if !s.twinLive || !s.qnt.linkUp then s else
    let b := padTo 64 cell.bytes
    let type := fieldOf b 4 4
    let session := BitVec.ofNat 8 (fieldOf b 8 8)
    let q := s.qnt
    if leNat (slice b 60 4) ≠ (crc32c (b.take 60)) ∨ 6 ≤ type then
      { s with qnt := { q with crcErr := bump q.crcErr } }
    else if type != 1 && !q.inSession session then
      { s with qnt := { q with staleId := bump q.staleId } }
    else
      let r := ({ q with lastCell := s.tb.now } : Qanat).assemble type (fieldOf b 16 16) (fieldOf b 32 4) (fieldOf b 36 4) (slice b 8 52)
      let s1 : State := { s with qnt := r.1 }
      (match r.2 with
        | some p => s1.takeMessage type session p cell
        | none => s1).evalPair)

/-- HELLO_SEND (R430, R431): at link-up, then every 1 ms. -/
def execHelloSend (s : State) : Host.Outcome State Fault Refusal :=
  let due := match s.qnt.helloAt with | none => true | some t => elapsed s.tb.now t ticksPerMs
  .next (if s.twinLive && s.qnt.linkUp && due then
    let o := s.bcc.ovyar
    { s with qnt := { s.qnt.send (.hello ⟨s.twinId, 1, o.1, o.2, s.bcc.imageDigest⟩) s.tb.now with helloAt := some s.tb.now } }
  else s)

/-- STATUS_SEND (R430, R436): every 10 µs. -/
def execStatusSend (s : State) : Host.Outcome State Fault Refusal :=
  let due := match s.qnt.statusAt with | none => true | some t => elapsed s.tb.now t (10 * ticksPerUs)
  .next (if s.twinLive && s.qnt.linkUp && due then
    let m : Status := ⟨s.qnt.role, BitVec.ofNat 2 s.safety.st.code, s.pairCode, s.bcc.stage, s.epoch⟩
    { s with qnt := ({ s.qnt.send (.status m) s.tb.now with statusAt := some s.tb.now, reported := some s.qnt.role } : Qanat).judgeRoles s.tb.now }
  else s)

/-- What the unit's TIME message returns to the peer (R64, R65). -/
def Timebase.timeMsg (tb : Timebase) : TimeMsg := ⟨tb.markerTx, tb.markerRx, tb.map.offset, tb.announced⟩

/-- TIME_TRANSFER_EXCHANGE (R64, R65, R430): every 100 µs the unit sends its marker, whose stamp is `tx`, and its TIME message; `reply` holds
the peer's receive and transmit stamps and the unit's own receive stamp, none for a missing exchange. The pair state is evaluated with it (R438). DESIGN CHOICE, log entry 140. -/
def execTimeTransferExchange (tx : T64) (reply : Option (T64 × T64 × T64)) (peerMapOffset : Nat) (peerGm : GmAttrs) (s : State) :
    Host.Outcome State Fault Refusal :=
  .next (if !s.replaying && (match s.tb.xferAt with | some t => elapsed s.tb.now t (100 * ticksPerUs) | none => true) then
    let r := s.tb.transfer tx (if s.qnt.linkUp then reply else none) peerMapOffset peerGm
    let s1 : State := { s with tb := r.1, ev := s.ev.raiseAll r.2, qnt := if s.qnt.linkUp then s.qnt.send (.time r.1.timeMsg) s.tb.now else s.qnt }
    if s.twinLive then s1.evalPair else s1
  else s)

/-- GUARD_MESSAGE_SEND (R430, R28): guard word k, whole, once. -/
def execGuardMessageSend (s : State) : Host.Outcome State Fault Refusal :=
  .next (match s.guard.word with
    | some w =>
      if s.twinLive && s.qnt.linkUp && s.qnt.guardSent != some w.k then
        { s with qnt := { s.qnt.send (.guard w.bytes) s.tb.now with guardSent := some w.k } }
      else s
    | none => s)

/-- LINK_LOSS (R438): no cell has passed for LINK_TIMEOUT. A link that has been up for as long goes back to its training. DEDUCED, log entry 128. -/
def execLinkLoss (s : State) : Host.Outcome State Fault Refusal :=
  let q := s.qnt
  let late (t : T64) : Bool := elapsed s.tb.now t (q.cfg.linkTimeout * ticksPerUs)
  .next (if s.twinLive && late q.lastCell then
    let s1 : State := if q.linkUp && late q.linkAt then { s with qnt := q.down } else s
    if !q.pair.linked then s1
    else if q.aliveSeen s.tb.now then s1.toPair .lostAlive (evtOpen .twinLinkLost qntIsland 0)
    else s1.toPair .unknown (evtOpen .twinPeerUnknown qntIsland 0)
  else s)

/-- ALIVE_TIMEOUT (R433, R438): the peer's alive is not seen. -/
def execAliveTimeout (s : State) : Host.Outcome State Fault Refusal :=
  .next (if s.twinLive && s.qnt.pair == .lostAlive && !s.qnt.aliveSeen s.tb.now then s.toPair .unknown (evtOpen .twinPeerUnknown qntIsland 0) else s)

/-- TWIN_ALIVE_TOGGLE (R433): at each whole microsecond from the end of enrolment, never in Replay mode. -/
def execTwinAliveToggle (s : State) : Host.Outcome State Fault Refusal :=
  s.gate (let t : T64 := us (s.tb.now.toNat / ticksPerUs)
  .next (if s.enrolled && !s.replaying && s.qnt.aliveAt != some t then
    { s with qnt := { s.qnt with aliveOut := !s.qnt.aliveOut, aliveAt := some t } }
  else s))

/-- TWIN_SYNC_PULSE (R433): high from the frame boundary for 1 µs. -/
def execTwinSyncPulse (s : State) : Host.Outcome State Fault Refusal :=
  s.gate (.next (match s.tb.frame with
    | none => s
    | some f =>
      if !s.enrolled || s.replaying then s
      else if s.qnt.syncAt ≠ some f.b then { s with qnt := { s.qnt with syncOut := !(elapsed s.tb.now f.b ticksPerUs), syncAt := some f.b } }
      else if s.qnt.syncOut && elapsed s.tb.now f.b ticksPerUs then { s with qnt := { s.qnt with syncOut := false } }
      else s))

/-- Signed distance of a stamp to the nearest own boundary (R433). -/
def Timebase.boundaryResidual (tb : Timebase) (t : T64) : Int :=
  match tb.frame with
  | none => if (tDiff t 0).natAbs ≤ (tDiff t (tick tb.cfg.period)).natAbs then tDiff t 0 else tDiff t (tick tb.cfg.period)
  | some f => ((f.next :: f.b :: tb.past.map fun (x : Frame) => x.b).map fun (b : T64) => tDiff t b).foldl
      (fun (a d : Int) => if d.natAbs < a.natAbs then d else a) (tDiff t f.next)

/-- TWIN_SYNC_IN_EDGE (R40, R433): every edge is stamped; the residual of a rising edge is a Grotto sample. -/
def execTwinSyncInEdge (rising : Bool) (stamp : T64) (s : State) : Host.Outcome State Fault Refusal :=
  .next (if s.twinLive then
    if rising then
      let r := s.tb.boundaryResidual stamp
      { s.sample 7 0 r with qnt := { s.qnt with syncEdge := some stamp, syncIn := some stamp, syncResidual := r } }
    else { s with qnt := { s.qnt with syncEdge := some stamp } }
  else s)

/-- TWIN_ALIVE_IN_EDGE (R433). -/
def execTwinAliveInEdge (stamp : T64) (s : State) : Host.Outcome State Fault Refusal :=
  .next (if s.twinLive then { s with qnt := { s.qnt with aliveIn := some stamp } } else s)

/-- The code of a WITNESS pulse by its width (R435). DEDUCED, log entry 129. -/
def witnessCode (width : Int) : Option Role :=
  let u : Int := (ticksPerUs : Nat)
  if 90 * u ≤ width ∧ width ≤ 110 * u then some .primary
  else if 290 * u ≤ width ∧ width ≤ 310 * u then some .secondary
  else if 490 * u ≤ width ∧ width ≤ 510 * u then some .none
  else none

/-- WITNESS_PULSE (R435): the third valid pulse in a row with one code gives the role, from the next Gₖ. DEDUCED, log entry 129. -/
def execWitnessPulse (rise fall : T64) (s : State) : Host.Outcome State Fault Refusal :=
  .next (if s.twinLive then
    let q := s.qnt
    match witnessCode (tDiff fall rise) with
    | none => { s with qnt := { q with witnessBad := bump q.witnessBad, run := none, lastRise := some rise, lastFall := some fall } }
    | some r =>
      let n : Nat := match q.run with | some (x, k) => if x = r then k + 1 else 1 | none => 1
      { s with qnt := { q with run := some (r, min n 3), lastRise := some rise, lastFall := some fall, lastValid := fall, witnessLost := false
                               roleNext := if 3 ≤ n ∧ r ≠ q.role then some r else if 3 ≤ n then none else q.roleNext } }
  else s)

/-- WITNESS_LOST (R435): no valid pulse for WITNESS_TIMEOUT; raised once, and the role is held. -/
def execWitnessLost (s : State) : Host.Outcome State Fault Refusal :=
  .next (if s.twinLive && s.qnt.installed && !s.qnt.witnessLost && elapsed s.tb.now s.qnt.lastValid (s.qnt.cfg.witnessTimeout * ticksPerMs) then
    { s with qnt := { s.qnt with witnessLost := true }, ev := s.ev.raise (evtOpen .witnessLost qntIsland 0) }
  else s)

/-- ROLE_CONFLICT (R436): both units report PRIMARY for 1 ms. -/
def execRoleConflict (s : State) : Host.Outcome State Fault Refusal :=
  .next (match s.qnt.bothSince with
    | some t =>
      if s.twinLive && s.qnt.linkUp && !s.qnt.conflict && elapsed s.tb.now t ticksPerMs then
        { s with qnt := { s.qnt with conflict := true }, ev := s.ev.raise (evtOpen .roleConflict qntIsland 0) }
      else s
    | none => s)

/-- XCHECK_SEND (R441, R442): at the publication of a frame. DEDUCED, log entry 130. -/
def execXcheckSend (s : State) : Host.Outcome State Fault Refusal :=
  .next (match s.out.published with
    | none => s
    | some n =>
      match s.tb.frameNo n with
      | some f =>
        let done := match s.qnt.own with | x :: _ => x.r.bn == f.b | [] => false
        if s.twinLive && s.qnt.installed && s.qnt.cfg.twin && !done then
          let r := s.xRecord f
          let q := if s.qnt.linkUp then s.qnt.send (.xcheck r.bytes) s.tb.now else s.qnt
          { s with qnt := { q with own := (⟨r, s.tb.now, false, s.tb.peerValid⟩ :: q.own).take 16 } }
        else s
      | none => s)

/-- XCHECK_COMPARE (R443): the oldest own record whose peer record is there is compared. -/
def execXcheckCompare (s : State) : Host.Outcome State Fault Refusal :=
  .next (if !s.twinLive then s else
    match s.qnt.own.reverse.find? fun (o : XHeld) => !o.used && (s.xPair o).isSome with
    | none => s
    | some o =>
      match s.xPair o with
      | none => s
      | some p =>
        let q := s.qnt
        let bad := failingParts q.cfg o.r p.r
        ({ s with qnt := { q with
          own := q.own.map fun (x : XHeld) => if x = o then { x with used := true } else x
          peer := q.peer.map fun (x : XHeld) => if x = p then { x with used := true } else x
          results := (bad :: q.results).take 2
          failRun := if bad = 0 then 0 else q.failRun + 1
          missRun := 0, compared := bump q.compared, failed := bumpIf (bad != 0) q.failed } } : State).evalPair)

/-- XC_WAIT_EXPIRY (R443): an own record was not compared within XC_WAIT frame periods. -/
def execXcWaitExpiry (s : State) : Host.Outcome State Fault Refusal :=
  .next (if !s.twinLive then s else
    match s.qnt.own.reverse.find? fun (o : XHeld) =>
        !o.used && (s.xPair o).isNone && tLater s.tb.now (o.at_ + tick (s.qnt.cfg.xcWait * s.tb.cfg.period)) with
    | none => s
    | some o =>
      let q := s.qnt
      ({ s with qnt := { q with own := q.own.map fun (x : XHeld) => if x = o then { x with used := true } else x
                                missRun := q.missRun + 1 } } : State).evalPair)

end Sys2Proof.Machine
end

