-- ==== Sys2Proof/Machine/Dispatch.lean ====
section
/-! DEFINITION. One arm per command, each a direct call of its meaning. -/

namespace Sys2Proof.Machine

open Sys2Proof

/-- The effect of a command on everything but the queue. -/
def exec (i : Instr) (s : State) : Host.Outcome State Fault Refusal :=
  match i with
  | .resetAssert => Sys2Proof.Machine.execResetAssert s
  | .resetNShortPulse => Sys2Proof.Machine.execResetNShortPulse s
  | .powerOnReset inRange => Sys2Proof.Machine.execPowerOnReset inRange s
  | .resetRelease straps => Sys2Proof.Machine.execResetRelease straps s
  | .phaseEnrolmentMarker missing => Sys2Proof.Machine.execPhaseEnrolmentMarker missing s
  | .islandReenrol island lines => Sys2Proof.Machine.execIslandReenrol island lines s
  | .supplyFail monitor => Sys2Proof.Machine.execSupplyFail monitor s
  | .temperatureReading readings supplies => Sys2Proof.Machine.execTemperatureReading readings supplies s
  | .clockFail island => Sys2Proof.Machine.execClockFail island s
  | .sfdpRead slot capacity => Sys2Proof.Machine.execSfdpRead slot capacity s
  | .noDeviceTimeout slot => Sys2Proof.Machine.execNoDeviceTimeout slot s
  | .headerCheck slot header table => Sys2Proof.Machine.execHeaderCheck slot header table s
  | .sectionRead stored => Sys2Proof.Machine.execSectionRead stored s
  | .stageEntryS1 => Sys2Proof.Machine.execStageEntryS1 s
  | .stageEntryS2 => Sys2Proof.Machine.execStageEntryS2 s
  | .stageEntryS3 => Sys2Proof.Machine.execStageEntryS3 s
  | .stageLate => Sys2Proof.Machine.execStageLate s
  | .timeBusIncrement periods => Sys2Proof.Machine.execTimeBusIncrement periods s
  | .ptpSyncReceived port domain rx originNs correction logInterval => Sys2Proof.Machine.execPtpSyncReceived port domain rx originNs correction logInterval s
  | .ptpAnnounceReceived port domain attrs logInterval => Sys2Proof.Machine.execPtpAnnounceReceived port domain attrs logInterval s
  | .pdelayMeasurement port seqId t2 t3 rx => Sys2Proof.Machine.execPdelayMeasurement port seqId t2 t3 rx s
  | .syncTimeoutExpiry source => Sys2Proof.Machine.execSyncTimeoutExpiry source s
  | .announceTimeoutExpiry source => Sys2Proof.Machine.execAnnounceTimeoutExpiry source s
  | .mapGuardExpiry => Sys2Proof.Machine.execMapGuardExpiry s
  | .holdLimitExpiry => Sys2Proof.Machine.execHoldLimitExpiry s
  | .ref10mEdge stamp => Sys2Proof.Machine.execRef10mEdge stamp s
  | .ref10mLost => Sys2Proof.Machine.execRef10mLost s
  | .ppsInEdge stamp => Sys2Proof.Machine.execPpsInEdge stamp s
  | .frameBoundary => Sys2Proof.Machine.execFrameBoundary s
  | .triggerEdge output pulse leading stamp => Sys2Proof.Machine.execTriggerEdge output pulse leading stamp s
  | .ppsOutEdge => Sys2Proof.Machine.execPpsOutEdge s
  | .timeTransferExchange tx reply peerMapOffset peerGm => Sys2Proof.Machine.execTimeTransferExchange tx reply peerMapOffset peerGm s
  | .sluiceIntake => Sys2Proof.Machine.execSluiceIntake s
  | .eventsLost island => Sys2Proof.Machine.execEventsLost island s
  | .sluiceIrqAckLowWrite value => Sys2Proof.Machine.execSluiceIrqAckLowWrite value s
  | .sluiceIrqAckHighWrite value => Sys2Proof.Machine.execSluiceIrqAckHighWrite value s
  | .scheduleLaunch frame entry j ue => Sys2Proof.Machine.execScheduleLaunch frame entry j ue s
  | .startMiss frame entry j => Sys2Proof.Machine.execStartMiss frame entry j s
  | .runLong frame entry j => Sys2Proof.Machine.execRunLong frame entry j s
  | .deadlineMiss frame entry j => Sys2Proof.Machine.execDeadlineMiss frame entry j s
  | .taskCompletion frame entry j => Sys2Proof.Machine.execTaskCompletion frame entry j s
  | .frameClose => Sys2Proof.Machine.execFrameClose s
  | .islReplayWrWrite value => Sys2Proof.Machine.execIslReplayWrWrite value s
  | .replayChunkHeaderRead => Sys2Proof.Machine.execReplayChunkHeaderRead s
  | .replayStartChunk => Sys2Proof.Machine.execReplayStartChunk s
  | .replayMapChunk => Sys2Proof.Machine.execReplayMapChunk s
  | .replayRecordDeliver => Sys2Proof.Machine.execReplayRecordDeliver s
  | .replayStall => Sys2Proof.Machine.execReplayStall s
  | .replayStallEnd => Sys2Proof.Machine.execReplayStallEnd s
  | .captureStart => Sys2Proof.Machine.execCaptureStart s
  | .captureWatermark stream => Sys2Proof.Machine.execCaptureWatermark stream s
  | .captureRecordWrite stream => Sys2Proof.Machine.execCaptureRecordWrite stream s
  | .csi2PacketReceived port packet => Sys2Proof.Machine.execCsi2PacketReceived port packet s
  | .ethernetFrameReceived port bytes stamp => Sys2Proof.Machine.execEthernetFrameReceived port bytes stamp s
  | .ptpMasterSend port kind tx => Sys2Proof.Machine.execPtpMasterSend port kind tx s
  | .spiInit k reads => Sys2Proof.Machine.execSpiInit k reads s
  | .spiDrdyEdge k stamp => Sys2Proof.Machine.execSpiDrdyEdge k stamp s
  | .spiBurstComplete k bytes => Sys2Proof.Machine.execSpiBurstComplete k bytes s
  | .spiPoll k => Sys2Proof.Machine.execSpiPoll k s
  | .encoderEdge e line level stamp => Sys2Proof.Machine.execEncoderEdge e line level stamp s
  | .encoderCodeIssue e => Sys2Proof.Machine.execEncoderCodeIssue e s
  | .canFrameReceived c frame stamp => Sys2Proof.Machine.execCanFrameReceived c frame stamp s
  | .canErrorFrame c tec rec_ => Sys2Proof.Machine.execCanErrorFrame c tec rec_ s
  | .scriptStep m result => Sys2Proof.Machine.execScriptStep m result s
  | .busRecovery m lowNs sda => Sys2Proof.Machine.execBusRecovery m lowNs sda s
  | .busStuckRetry m => Sys2Proof.Machine.execBusStuckRetry m s
  | .headgateItem h => Sys2Proof.Machine.execHeadgateItem h s
  | .externalMaskRelease h reason => Sys2Proof.Machine.execExternalMaskRelease h reason s
  | .pktGapExpiry h => Sys2Proof.Machine.execPktGapExpiry h s
  | .streamTimeout h => Sys2Proof.Machine.execStreamTimeout h s
  | .streamAbsent h => Sys2Proof.Machine.execStreamAbsent h s
  | .dataFlumeWriteCycle h => Sys2Proof.Machine.execDataFlumeWriteCycle h s
  | .flumeRead h ue => Sys2Proof.Machine.execFlumeRead h ue s
  | .flumeDrop h => Sys2Proof.Machine.execFlumeDrop h s
  | .plInputRecord => Sys2Proof.Machine.execPlInputRecord s
  | .rungWrite lockstepOk => Sys2Proof.Machine.execRungWrite lockstepOk s
  | .poseMaskRelease isImu entry => Sys2Proof.Machine.execPoseMaskRelease isImu entry s
  | .coastMaxExpiry => Sys2Proof.Machine.execCoastMaxExpiry s
  | .imuOnlyMaxExpiry => Sys2Proof.Machine.execImuOnlyMaxExpiry s
  | .poseQuery port t alpha lockstepOk => Sys2Proof.Machine.execPoseQuery port t alpha lockstepOk s
  | .liveRecord lockstepOk => Sys2Proof.Machine.execLiveRecord lockstepOk s
  | .pointCompensate pipe crcBad => Sys2Proof.Machine.execPointCompensate pipe crcBad s
  | .pointPoseWait pipe crcBad => Sys2Proof.Machine.execPointPoseWait pipe crcBad s
  | .pointProject point => Sys2Proof.Machine.execPointProject point s
  | .pauClosePass => Sys2Proof.Machine.execPauClosePass s
  | .alignStepApply => Sys2Proof.Machine.execAlignStepApply s
  | .misHoldExpiry sensor => Sys2Proof.Machine.execMisHoldExpiry sensor s
  | .pcuTask abortAfter => Sys2Proof.Machine.execPcuTask abortAfter s
  | .listStart t ue => Sys2Proof.Machine.execListStart t ue s
  | .queueFlush t q => Sys2Proof.Machine.execQueueFlush t q s
  | .nop t => Sys2Proof.Machine.execNop t s
  | .copy t ecc => Sys2Proof.Machine.execCopy t ecc s
  | .fill t ecc => Sys2Proof.Machine.execFill t ecc s
  | .matmul t ecc => Sys2Proof.Machine.execMatmul t ecc s
  | .conv t ecc => Sys2Proof.Machine.execConv t ecc s
  | .spconv t ecc => Sys2Proof.Machine.execSpconv t ecc s
  | .gather t ecc => Sys2Proof.Machine.execGather t ecc s
  | .scatter t ecc => Sys2Proof.Machine.execScatter t ecc s
  | .vunary t ecc => Sys2Proof.Machine.execVunary t ecc s
  | .vbinary t ecc => Sys2Proof.Machine.execVbinary t ecc s
  | .vfma t ecc => Sys2Proof.Machine.execVfma t ecc s
  | .reduce t ecc => Sys2Proof.Machine.execReduce t ecc s
  | .softmax t ecc => Sys2Proof.Machine.execSoftmax t ecc s
  | .norm t ecc => Sys2Proof.Machine.execNorm t ecc s
  | .attend t ecc => Sys2Proof.Machine.execAttend t ecc s
  | .kvAppend t ecc => Sys2Proof.Machine.execKvAppend t ecc s
  | .kvFlush t ecc => Sys2Proof.Machine.execKvFlush t ecc s
  | .kvScatter t ecc => Sys2Proof.Machine.execKvScatter t ecc s
  | .signal t => Sys2Proof.Machine.execSignal t s
  | .wait t => Sys2Proof.Machine.execWait t s
  | .waitTimeout t => Sys2Proof.Machine.execWaitTimeout t s
  | .digest t ecc => Sys2Proof.Machine.execDigest t ecc s
  | .goldenCheck t => Sys2Proof.Machine.execGoldenCheck t s
  | .listCompletion t => Sys2Proof.Machine.execListCompletion t s
  | .trackerTask => Sys2Proof.Machine.execTrackerTask s
  | .mpcBatch => Sys2Proof.Machine.execMpcBatch s
  | .alignSolve => Sys2Proof.Machine.execAlignSolve s
  | .cbHitEntry => Sys2Proof.Machine.execCbHitEntry s
  | .cbSeenMarking => Sys2Proof.Machine.execCbSeenMarking s
  | .gridRecentre => Sys2Proof.Machine.execGridRecentre s
  | .gridScrub => Sys2Proof.Machine.execGridScrub s
  | .cbEcc cell => Sys2Proof.Machine.execCbEcc cell s
  | .tableStart => Sys2Proof.Machine.execTableStart s
  | .tableSwap => Sys2Proof.Machine.execTableSwap s
  | .weirTask => Sys2Proof.Machine.execWeirTask s
  | .guardCycleLatch lockstepOk ecc poseCrcBad => Sys2Proof.Machine.execGuardCycleLatch lockstepOk ecc poseCrcBad s
  | .guardLate => Sys2Proof.Machine.execGuardLate s
  | .guardPortFrame => Sys2Proof.Machine.execGuardPortFrame s
  | .plRungLate => Sys2Proof.Machine.execPlRungLate s
  | .faultCollection => Sys2Proof.Machine.execFaultCollection s
  | .c2Release => Sys2Proof.Machine.execC2Release s
  | .safeOkStuck path => Sys2Proof.Machine.execSafeOkStuck path s
  | .supervisorWatchdogExpiry sup => Sys2Proof.Machine.execSupervisorWatchdogExpiry sup s
  | .supervisorHeartbeat sup digest => Sys2Proof.Machine.execSupervisorHeartbeat sup digest s
  | .heartbeatAbsent sup => Sys2Proof.Machine.execHeartbeatAbsent sup s
  | .supervisorSelfCheck passA passB => Sys2Proof.Machine.execSupervisorSelfCheck passA passB s
  | .selfTestSlice reported tagged => Sys2Proof.Machine.execSelfTestSlice reported tagged s
  | .qanatLinkUp => Sys2Proof.Machine.execQanatLinkUp s
  | .qanatCellReceived cell => Sys2Proof.Machine.execQanatCellReceived cell s
  | .helloSend => Sys2Proof.Machine.execHelloSend s
  | .statusSend => Sys2Proof.Machine.execStatusSend s
  | .guardMessageSend => Sys2Proof.Machine.execGuardMessageSend s
  | .linkLoss => Sys2Proof.Machine.execLinkLoss s
  | .aliveTimeout => Sys2Proof.Machine.execAliveTimeout s
  | .twinAliveToggle => Sys2Proof.Machine.execTwinAliveToggle s
  | .twinSyncPulse => Sys2Proof.Machine.execTwinSyncPulse s
  | .twinSyncInEdge rising stamp => Sys2Proof.Machine.execTwinSyncInEdge rising stamp s
  | .witnessPulse rise fall => Sys2Proof.Machine.execWitnessPulse rise fall s
  | .witnessLost => Sys2Proof.Machine.execWitnessLost s
  | .roleConflict => Sys2Proof.Machine.execRoleConflict s
  | .xcheckSend => Sys2Proof.Machine.execXcheckSend s
  | .xcheckCompare => Sys2Proof.Machine.execXcheckCompare s
  | .publication => Sys2Proof.Machine.execPublication s
  | .guardStreamMessage => Sys2Proof.Machine.execGuardStreamMessage s
  | .fragmentTransmit port queue tx => Sys2Proof.Machine.execFragmentTransmit port queue tx s
  | .txMaxAgeExpiry port queue => Sys2Proof.Machine.execTxMaxAgeExpiry port queue s
  | .sm0Build => Sys2Proof.Machine.execSm0Build s
  | .sm1Build => Sys2Proof.Machine.execSm1Build s
  | .canMaxAgeExpiry c m => Sys2Proof.Machine.execCanMaxAgeExpiry c m s
  | .canTransmitComplete c m => Sys2Proof.Machine.execCanTransmitComplete c m s
  | .busOff c => Sys2Proof.Machine.execBusOff c s
  | .busOffRecovered c => Sys2Proof.Machine.execBusOffRecovered c s
  | .cisternAccess bank reqs ecc word => Sys2Proof.Machine.execCisternAccess bank reqs ecc word s
  | .patrolScrub bank ecc word => Sys2Proof.Machine.execPatrolScrub bank ecc word s
  | .lpddr5xTraining ok => Sys2Proof.Machine.execLpddr5xTraining ok s
  | .dramScrub ecc word => Sys2Proof.Machine.execDramScrub ecc word s
  | .grottoSample => Sys2Proof.Machine.execGrottoSample s
  | .grtCtrlFreezeWrite value => Sys2Proof.Machine.execGrtCtrlFreezeWrite value s
  | .freezeExpiry => Sys2Proof.Machine.execFreezeExpiry s
  | .grtCursorWrite value => Sys2Proof.Machine.execGrtCursorWrite value s
  | .obpCapWinWrite value => Sys2Proof.Machine.execObpCapWinWrite value s
  | .msiXTableWrite w value => Sys2Proof.Machine.execMsiXTableWrite w value s
  | .recordRegisterRead addr len => Sys2Proof.Machine.execRecordRegisterRead addr len s
  | .bar0WriteDiscard addr len => Sys2Proof.Machine.execBar0WriteDiscard addr len s
  | .bar2WriteDiscard offset len => Sys2Proof.Machine.execBar2WriteDiscard offset len s
  | .replayWindowWrite offset data => Sys2Proof.Machine.execReplayWindowWrite offset data s
  | .twinAliveInEdge stamp => Sys2Proof.Machine.execTwinAliveInEdge stamp s
  | .laneBlockLockLoss lane => Sys2Proof.Machine.execLaneBlockLockLoss lane s
  | .xcWaitExpiry => Sys2Proof.Machine.execXcWaitExpiry s
  | .extest certificate on => Sys2Proof.Machine.execExtest certificate on s
  | .inBandInterrupt m => Sys2Proof.Machine.execInBandInterrupt m s
  | .ethernetLinkChange port up speed => Sys2Proof.Machine.execEthernetLinkChange port up speed s
  | .pdelayReqSend port tx => Sys2Proof.Machine.execPdelayReqSend port tx s

end Sys2Proof.Machine
end

