-- ==== Sys2Proof/Safety.lean ====
section
/-! DEFINITION. What a safe run of the device is, in the words that statements use: runs that go on, kept sets of states, and the parts
of the state that a command may change. -/

namespace Sys2Proof.Machine

open Sys2Proof

/-- A step that neither faults nor refuses. -/
def goesOn (s : State) : Prop := ∃ t, step s = .next t

/-- A command that gives a next state from every state. -/
def Completes (i : Instr) : Prop := ∀ s : State, ∃ t, exec i s = .next t

/-- A set of states that no step leaves. -/
def Kept (P : State → Prop) : Prop := ∀ s t : State, P s → step s = .next t → P t

/-- The lists that stand for memories have their one form: the addressed memories, the replay window and the output rings rising in address
with no listed zero, Channel B's grid rising in storage place. -/
def State.canonical (s : State) : Prop :=
  s.mem.wf = true ∧ cellsWf s.replay.window = true ∧ (∀ k : Fin 6, cellsWf s.out.ring[k].cells = true)
    ∧ (s.cb.grid.cells.map fun (e : Nat × CellTimes) => e.1).Pairwise (· < ·)

/-- The parts of the device's state, one for each field of `State`. -/
inductive Part where
  | pending | ev | tb | isl | replay | capture | seq | ports | hgs | pl | pau | pcu | tes | kv | trk | qsa | mem | cb | weir | guard
  | safety | qnt | bcc | out | grt | obp | pwr
deriving DecidableEq, Repr

/-- A part holds the same in two states. -/
def Part.same (p : Part) (s t : State) : Prop :=
  match p with
  | .pending => t.pending = s.pending
  | .ev => t.ev = s.ev
  | .tb => t.tb = s.tb
  | .isl => t.isl = s.isl
  | .replay => t.replay = s.replay
  | .capture => t.capture = s.capture
  | .seq => t.seq = s.seq
  | .ports => t.ports = s.ports
  | .hgs => t.hgs = s.hgs
  | .pl => t.pl = s.pl
  | .pau => t.pau = s.pau
  | .pcu => t.pcu = s.pcu
  | .tes => t.tes = s.tes
  | .kv => t.kv = s.kv
  | .trk => t.trk = s.trk
  | .qsa => t.qsa = s.qsa
  | .mem => t.mem = s.mem
  | .cb => t.cb = s.cb
  | .weir => t.weir = s.weir
  | .guard => t.guard = s.guard
  | .safety => t.safety = s.safety
  | .qnt => t.qnt = s.qnt
  | .bcc => t.bcc = s.bcc
  | .out => t.out = s.out
  | .grt => t.grt = s.grt
  | .obp => t.obp = s.obp
  | .pwr => t.pwr = s.pwr

/-- `t` differs from `s` in the listed parts only. -/
def Only (m : List Part) (s t : State) : Prop := ∀ p : Part, p ∉ m → p.same s t

/-- The parts that a command may change. -/
def partsOf (i : Instr) : List Part :=
  match i with
  | .resetNShortPulse => []
  | .sfdpRead .. | .noDeviceTimeout .. | .headerCheck .. => [.bcc]
  | .cbHitEntry | .gridRecentre | .gridScrub => [.cb]
  | .tableSwap => [.ev, .cb, .guard]
  | .eventsLost .. | .sluiceIrqAckLowWrite .. => [.ev]
  | .stageLate => [.ev, .bcc]
  | .captureStart | .captureWatermark .. | .captureRecordWrite .. => [.ev, .capture, .mem]
  | .cbEcc .. => [.ev, .cb]
  | .temperatureReading .. => [.ev, .grt, .pwr]
  | .guardLate => [.ev, .guard]
  | .streamTimeout .. | .streamAbsent .. => [.ev, .hgs]
  | .headgateItem .. => [.ev, .hgs, .grt]
  | .alignStepApply | .misHoldExpiry .. => [.ev, .hgs, .pau]
  | .rungWrite .. => [.ev, .hgs, .pl, .guard]
  | .flumeRead .. => [.ev, .hgs, .pl, .pau, .cb]
  | .clockFail .. => [.ev, .isl]
  | .selfTestSlice .. | .supervisorHeartbeat .. | .heartbeatAbsent .. | .supervisorSelfCheck .. => [.ev, .safety]
  | .c2Release => [.ev, .guard, .safety]
  | .cisternAccess .. | .patrolScrub .. | .dramScrub .. => [.ev, .mem]
  | .lpddr5xTraining .. => [.ev, .mem, .bcc]
  | .sluiceIrqAckHighWrite .. => [.ev, .obp]
  | .guardStreamMessage | .txMaxAgeExpiry .. => [.ev, .out]
  | .plInputRecord | .coastMaxExpiry | .imuOnlyMaxExpiry | .plRungLate => [.ev, .pl]
  | .poseQuery .. => [.ev, .pl, .guard]
  | .cbSeenMarking | .tableStart => [.ev, .pl, .cb]
  | .liveRecord .. | .pointProject .. | .pauClosePass => [.ev, .pl, .pau]
  | .stageEntryS1 => [.ev, .pl, .safety, .bcc]
  | .spiInit .. | .scriptStep .. | .busRecovery .. => [.ev, .ports, .hgs]
  | .encoderCodeIssue .. => [.ev, .capture, .ports, .hgs]
  | .busOff .. | .busOffRecovered .. => [.ev, .ports, .out]
  | .supplyFail .. => [.ev, .pwr]
  | .qanatCellReceived .. | .linkLoss | .aliveTimeout | .xcheckCompare | .xcWaitExpiry => [.ev, .guard, .qnt]
  | .witnessLost | .roleConflict => [.ev, .qnt]
  | .replayChunkHeaderRead => [.ev, .replay]
  | .taskCompletion .. => [.ev, .seq, .pau, .tes, .trk, .qsa, .mem, .weir, .guard, .safety, .grt]
  | .trackerTask => [.ev, .seq, .trk, .mem]
  | .sluiceIntake => [.ev, .seq, .obp]
  | .runLong .. => [.ev, .seq, .pau, .tes, .trk, .qsa, .mem, .weir, .guard, .safety]
  | .startMiss .. | .deadlineMiss .. => [.ev, .seq, .pau, .weir, .guard, .safety]
  | .pcuTask .. => [.ev, .seq, .pcu, .mem]
  | .stageEntryS2 => [.ev, .seq, .pcu, .mem, .guard, .bcc]
  | .stageEntryS3 => [.ev, .capture, .seq, .pcu, .mem, .guard, .bcc]
  | .pointCompensate .. | .pointPoseWait .. => [.ev, .seq, .pl, .pau, .cb]
  | .mpcBatch => [.ev, .seq, .pl, .qsa, .mem, .guard, .out]
  | .scheduleLaunch .. => [.ev, .seq, .tes, .grt]
  | .listCompletion .. => [.ev, .seq, .tes, .mem]
  | .faultCollection | .safeOkStuck .. | .supervisorWatchdogExpiry .. => [.ev, .seq, .tes, .qsa, .guard, .safety, .bcc]
  | .publication => [.ev, .seq, .trk, .out, .grt]
  | .weirTask => [.ev, .seq, .weir, .guard]
  | .ptpAnnounceReceived .. | .syncTimeoutExpiry .. | .announceTimeoutExpiry .. | .ref10mLost => [.ev, .tb]
  | .timeTransferExchange .. => [.ev, .tb, .guard, .qnt]
  | .timeBusIncrement .. => [.ev, .tb, .capture, .mem]
  | .guardCycleLatch .. => [.ev, .tb, .capture, .mem, .guard, .safety, .qnt, .out]
  | .ptpSyncReceived .. => [.ev, .tb, .grt]
  | .frameBoundary => [.ev, .tb, .capture, .hgs, .pau, .cb, .weir, .safety, .grt]
  | .sectionRead .. => [.ev, .tb, .isl, .ports, .hgs, .pl, .pau, .tes, .kv, .trk, .qsa, .mem, .cb, .guard, .safety, .qnt, .bcc, .out, .grt, .obp]
  | .resetAssert => [.ev, .tb, .isl, .replay, .capture, .seq, .ports, .hgs, .pl, .pau, .pcu, .tes, .kv, .trk, .qsa, .mem, .cb, .weir, .guard, .safety, .qnt, .bcc, .out, .grt, .obp, .pwr]
  | .replayMapChunk => [.ev, .tb, .replay]
  | .dataFlumeWriteCycle .. => [.ev, .seq, .hgs]
  | .listStart .. | .queueFlush .. | .waitTimeout .. | .goldenCheck .. => [.ev, .tes]
  | .nop .. | .copy .. | .fill .. | .matmul .. | .conv .. | .spconv .. | .gather .. | .scatter .. | .vunary .. | .vbinary .. | .vfma ..
  | .reduce .. | .softmax .. | .norm .. | .attend .. | .kvAppend .. | .kvFlush .. | .kvScatter .. | .signal .. | .wait .. | .digest .. => [.ev, .tes, .mem]
  | .grottoSample | .grtCtrlFreezeWrite .. | .freezeExpiry | .grtCursorWrite .. => [.grt]
  | .guardPortFrame => [.guard]
  | .externalMaskRelease .. | .pktGapExpiry .. => [.hgs]
  | .flumeDrop .. => [.hgs, .pau]
  | .poseMaskRelease .. => [.hgs, .pl]
  | .phaseEnrolmentMarker .. => [.tb, .isl, .bcc]
  | .islandReenrol .. => [.isl, .ports, .mem, .bcc]
  | .obpCapWinWrite .. | .msiXTableWrite .. | .recordRegisterRead .. | .bar0WriteDiscard .. | .bar2WriteDiscard .. => [.obp]
  | .fragmentTransmit .. | .ethernetLinkChange .. => [.ports, .out]
  | .sm0Build | .sm1Build | .canMaxAgeExpiry .. | .canTransmitComplete .. => [.out]
  | .spiDrdyEdge .. | .spiPoll .. | .encoderEdge .. | .canErrorFrame .. | .busStuckRetry .. | .inBandInterrupt .. => [.ports]
  | .csi2PacketReceived .. | .spiBurstComplete .. | .canFrameReceived .. => [.capture, .ports, .hgs]
  | .ethernetFrameReceived .. => [.tb, .capture, .ports, .hgs, .out]
  | .powerOnReset .. | .extest .. => [.pwr]
  | .qanatLinkUp | .helloSend | .statusSend | .guardMessageSend | .twinAliveToggle | .twinSyncPulse | .witnessPulse .. | .xcheckSend
  | .twinAliveInEdge .. | .laneBlockLockLoss .. => [.qnt]
  | .twinSyncInEdge .. => [.qnt, .grt]
  | .replayStall | .replayStallEnd => [.replay]
  | .islReplayWrWrite .. | .replayWindowWrite .. => [.replay, .obp]
  | .replayRecordDeliver => [.replay, .capture, .ports, .hgs]
  | .alignSolve => [.seq, .pau, .qsa, .mem]
  | .frameClose => [.seq, .pau, .trk]
  | .pdelayMeasurement .. | .mapGuardExpiry | .holdLimitExpiry | .ref10mEdge .. | .triggerEdge .. | .ppsOutEdge | .ptpMasterSend ..
  | .pdelayReqSend .. => [.tb]
  | .ppsInEdge .. => [.tb, .grt]
  | .resetRelease .. => [.tb, .isl, .bcc, .pwr]
  | .replayStartChunk => [.tb, .replay, .seq, .pl]

end Sys2Proof.Machine
end

