-- ==== Sys2Proof/Certificates/Slice0/Obligations.lean ====
section
/-! DEFINITION. The statements for the provers. -/

open Sys2Proof Sys2Proof.Machine

/-- For every command c, every queue rest and every state s: a step of s with c in front of the queue rest is exec of c on s with that rest as
its queue. The model's own rule (notes/assumptions/3.md): where no command waits, a step answers the same state, time included, since device
time passes by TIME_BUS_INCREMENT alone. (00_scope, 95_what_each_step_holds) -/
def Obligations.StepRunsTheFrontCommand : Prop :=
  (∀ (c : Instr) (rest : List Instr) (s : State), step { s with pending := c :: rest } = exec c { s with pending := rest }) ∧ (∀ s : State, s.pending = [] → step s = .next s)

/-- At reset: device time and its fraction are 0 and the increment is 32 ticks; the time map has offset 0, DOMAIN 0, STATE FREE, RATE_PPB 0 and
MAP_SEQ 0; the Sluice's next SEQ is 0 and its acknowledge is 0; no intake FIFO holds an event and no fault line is asserted; the stage is S0
and the safety state NORMAL with no latch; the role is NONE; no monitor of the Grotto has a sample and the cursor is 0; every counter named
here is 0; memory lists nothing and the command queue is empty. (R35, R44, R47, R68, R409, R436, R493, R508) -/
def Obligations.ResetLeavesTheStatedValues : Prop :=
  let r := State.reset
  r.tb.now = 0 ∧ r.tb.frac = 0 ∧ r.tb.incr = 0x002000000000 ∧ r.tb.running = false ∧ r.tb.map = {} ∧ r.tb.map.offset = 0 ∧ r.tb.map.state = .free ∧ r.tb.map.mapSeq = 0
    ∧ r.ev.next = 0 ∧ r.ev.ack = 0 ∧ (∀ i : Fin 144, r.ev.intake[i] = [] ∧ r.ev.lineC2[i] = false ∧ r.ev.lineC3[i] = false ∧ r.ev.lineC3B[i] = false)
    ∧ r.bcc.stage = 0 ∧ r.safety.st = .normal ∧ r.safety.latchA = false ∧ r.safety.latchB = false ∧ r.safety.latchC2 = false
    ∧ r.qnt.role = .none ∧ r.grt.cursor = 0 ∧ (∀ m : Fin 64, r.grt.mon[m].samples = 0 ∧ r.grt.mon[m].dropped = 0)
    ∧ r.mem.cistern = [] ∧ r.mem.dram = [] ∧ (∀ t : Fin 4, r.mem.local_[t] = []) ∧ r.pending = []

/-- At reset the Cistern, the four local buffers, LPDDR5X, the replay window and the output rings are in the model's canonical form (addresses
strictly rising, no listed zero), and Channel B's grid lists its places in rising order. (R467, R276, R385, R466, R474) -/
def Obligations.MemoryCanonicalAtReset : Prop :=
  State.reset.canonical

/-- In every state whose memories have the canonical form, a command that answers a next state, and a step, leave them in that form: in the
Cistern, the local buffers, LPDDR5X, the replay window and the output rings addresses strictly rising and no entry equal to what an unlisted
address reads as, in Channel B's grid the storage places strictly rising. (R385, R465, R466, R467, R470, R472, R473, R474) -/
def Obligations.MemoryStaysCanonical : Prop :=
  (∀ (c : Instr) (s t : State), s.canonical → exec c s = .next t → t.canonical) ∧ Kept State.canonical

/-- Every command that answers a next state leaves the queue as it was, so a step takes exactly one command from the front. Every command other
than CISTERN_ACCESS answers a next state from every state; CISTERN_ACCESS does so where no request names an address at or beyond
134,217,728. (95_what_each_step_holds) -/
def Obligations.CommandsLeaveTheQueue : Prop :=
  (∀ (c : Instr) (s t : State), exec c s = .next t → t.pending = s.pending)
    ∧ (∀ (c : Instr), (∀ b r e w, c ≠ .cisternAccess b r e w) → Completes c)
    ∧ (∀ b r e w (s : State), (∀ x ∈ r, x.addr < 134217728) → ∃ t, exec (.cisternAccess b r e w) s = .next t)

/-- Device time and its fraction are unchanged by every command except TIME_BUS_INCREMENT, RESET_ASSERT, RESET_RELEASE (the epoch, R35),
SECTION_READ (an ISLANDS section that selects Replay mode holds it at 0, R86) and REPLAY_START_CHUNK (which loads it once, R86). No
synchronisation, map jump, timeout or frame boundary steps it. (R35, R44, R55, R86) -/
def Obligations.DeviceTimeNeverSteps : Prop :=
  ∀ (c : Instr) (s t : State), (∀ n, c ≠ .timeBusIncrement n) → c ≠ .resetAssert → (∀ x, c ≠ .resetRelease x) → (∀ b, c ≠ .sectionRead b) →
    c ≠ .replayStartChunk → exec c s = .next t → t.tb.now = s.tb.now ∧ t.tb.frac = s.tb.frac

/-- a is later than b exactly where their signed 64-bit difference is positive, and equal where it is 0; where the true interval n is below 2⁶³
ticks, b advanced by n is later than b. T32 is bits [31:0] of a T64, and two T32 values whose true interval is below 2³¹ ticks compare by
their signed 32-bit difference. (R36, R37) -/
def Obligations.TimesCompareBySignedDifference : Prop :=
  (∀ a b : T64, (tLater a b = true ↔ 0 < (a - b).toInt) ∧ ((a - b).toInt = 0 ↔ a = b))
    ∧ (∀ (b : T64) (n : Nat), 0 < n → n < 2 ^ 63 → tLater (b + BitVec.ofNat 64 n) b = true ∧ tLater b (b + BitVec.ofNat 64 n) = false)
    ∧ (∀ t : T64, (t32 t).toNat = t.toNat % 2 ^ 32)
    ∧ (∀ (b : T64) (n : Nat), n < 2 ^ 31 → (t32 (b + BitVec.ofNat 64 n) - t32 b).toInt = n)

/-- The rebuild of a T32 against Bₙ is Bₙ plus d32, where d32 is (t32 − low) mod 2³² with low the low 32 bits of Bₙ, less 2³² where that is at
least 2³¹. For every boundary b and every signed d with −2³¹ ≤ d < 2³¹, rebuilding the T32 of b + d against b gives b + d. The example of
chapter 02 (b = 0x00000003FFF00000, T32 = 0x015E3600) rebuilds to 0x00000004015E3600. (R38, R39) -/
def Obligations.RebuildIsExactInTheFrame : Prop :=
  (∀ (b : T64) (d : Int), -(2 ^ 31) ≤ d → d < 2 ^ 31 → rebuildT64 b (t32 (b + BitVec.ofInt 64 d)) = b + BitVec.ofInt 64 d)
    ∧ rebuildT64 0x00000003FFF00000 0x015E3600 = 0x00000004015E3600
    ∧ (∀ (bn : T64) (x : T32), rebuildT64 bn x =
        let d := (x - bn.extractLsb' 0 32).toNat
        bn + BitVec.ofInt 64 (if 2 ^ 31 ≤ d then (d : Int) - 2 ^ 32 else d))

/-- The nominal increment TB_CFG.INCR is 0x0020_0000_0000, which is 32 ticks. In normal mode, once device time runs, TIME_BUS_INCREMENT of n
periods completes and adds n times the increment in force, in units of 2⁻³² tick, to device time with its fraction: the carry is exact, and
the count wraps at 2⁶⁴ ticks. Beside the time it changes only what a time map that comes into force changes; where none waits, nothing else. (R44) -/
def Obligations.TimeBusAdvancesDeviceTime : Prop :=
  State.reset.tb.cfg.incr = 0x002000000000 ∧ State.reset.tb.incr = 0x002000000000 ∧ (0x002000000000 : Nat) = 32 * 2 ^ 32 ∧
  ∀ (n : Nat) (s : State), s.tb.running = true → s.isl.cfg.replay = false → ∃ t, exec (.timeBusIncrement n) s = .next t ∧
    t.tb.now.toNat * 2 ^ 32 + t.tb.frac.toNat = (s.tb.now.toNat * 2 ^ 32 + s.tb.frac.toNat + n * s.tb.incr.toNat) % 2 ^ 96 ∧
    Only [.ev, .tb, .capture, .mem] s t ∧ (s.tb.mapNext = none → t = { s with tb := { s.tb with now := t.tb.now, frac := t.tb.frac } })

/-- While a new map waits for the guard cycle start g, TIME_BUS_INCREMENT leaves the map in force and the waiting one as they are until device
time has reached g; the increment that reaches g puts exactly the waiting map in force. Mapped time at t is t plus SEC seconds, NS
nanoseconds and SUB eighths of a nanosecond. For every command except RESET_ASSERT, SECTION_READ (which installs FREE_EPOCH) and
REPLAY_MAP_CHUNK (which installs a captured map): the latest time map after the command has the SEC, NS and SUB that it had before, or its
MAP_SEQ is one more than before. (R47, R48, R54) -/
def Obligations.TimeMapTakesEffectAtAGuardCycle : Prop :=
  (∀ (n : Nat) (s : State) (g : T64) (m : TimeMap), s.tb.mapNext = some (g, m) → ∃ t, exec (.timeBusIncrement n) s = .next t ∧
    (tReached t.tb.now g = false → t.tb.map = s.tb.map ∧ t.tb.mapNext = some (g, m)) ∧
    (tReached t.tb.now g = true → t.tb.map = m ∧ t.tb.mapNext = none ∧ (m.mapSeq ≠ s.tb.map.mapSeq → t.tb.reanchor = some g)))
  ∧ (∀ (m : TimeMap) (t : T64), m.mapped t = t.toNat + m.sec.toNat * 8000000000 + m.ns.toNat * 8 + m.sub.toNat)
  ∧ ∀ (c : Instr) (s t : State), c ≠ .resetAssert → (∀ b, c ≠ .sectionRead b) → c ≠ .replayMapChunk → exec c s = .next t →
    (t.tb.latest.sec = s.tb.latest.sec ∧ t.tb.latest.ns = s.tb.latest.ns ∧ t.tb.latest.sub = s.tb.latest.sub ∧ t.tb.latest.mapSeq = s.tb.latest.mapSeq)
      ∨ t.tb.latest.mapSeq = s.tb.latest.mapSeq + 1

/-- For a domain's message that belongs to source x, on a vehicle port that carries data, outside a Replay stall. An Announce in LISTENING
records the grandmaster and leaves the source LISTENING; one with another identity in ACQUIRING or LOCKED records it, makes the source
ACQUIRING and raises GM_CHANGE before any other event. A Sync in LISTENING after an Announce, with a valid path delay, makes the source
ACQUIRING. A Sync in ACQUIRING whose residual against the estimator is within LOCK_NS, and is the last of LOCK_COUNT such ones, makes the
source LOCKED and raises SRC_LOCKED first. Each Sync refreshes the time of the latest Sync; nothing changes but the Timebase, the events and
a Grotto sample. (R49, R53) -/
def Obligations.PtpMessagesMoveTheirSource : Prop :=
  (∀ port dom a l (s : State) x, s.stalled = false → s.vehicleUp port = true → s.tb.sourceOf port dom = some x → (s.tb.source x).st = .listening →
    ∃ t, exec (.ptpAnnounceReceived port dom a l) s = .next t ∧ (t.tb.source x).st = .listening ∧ (t.tb.source x).announced = true ∧ (t.tb.source x).gm = a ∧
      Only [.tb] s t)
  ∧ (∀ port dom a l (s : State) x, s.stalled = false → s.vehicleUp port = true → s.tb.sourceOf port dom = some x → ((s.tb.source x).st = .acquiring ∨ (s.tb.source x).st = .locked) →
    a.identity ≠ (s.tb.source x).gm.identity → ∃ t es, exec (.ptpAnnounceReceived port dom a l) s = .next t ∧ (t.tb.source x).st = .acquiring ∧
      (t.tb.source x).gm = a ∧ t.ev = s.ev.raiseAll (evtOpen .gmChange 42 x.code :: es) ∧ Only [.tb, .ev] s t)
  ∧ (∀ port dom rx o c l (s : State) x d, s.stalled = false → s.vehicleUp port = true → s.tb.sourceOf port dom = some x → (s.tb.source x).st = .listening → (s.tb.source x).announced = true →
    s.tb.pathDelay port = some d → ∃ t, exec (.ptpSyncReceived port dom rx o c l) s = .next t ∧ (t.tb.source x).st = .acquiring ∧
      (t.tb.source x).lastSync = s.tb.now ∧ Only [.tb, .ev, .grt] s t)
  ∧ (∀ port dom rx o c l (s : State) x e t₀ off, s.stalled = false → s.vehicleUp port = true → s.tb.sourceOf port dom = some x → (s.tb.source x).st = .acquiring → (s.tb.source x).est = some e →
    s.tb.syncOffset port dom rx o c = some (x, t₀, off) → absRat (off - e.predict t₀) ≤ ((s.tb.cfg.lockNs * 8 : Nat) : Rat) →
    s.tb.cfg.lockCount ≤ (s.tb.source x).lockRun + 1 → ∃ t es, exec (.ptpSyncReceived port dom rx o c l) s = .next t ∧ (t.tb.source x).st = .locked ∧
      (t.tb.source x).lastSync = s.tb.now ∧ t.ev = s.ev.raiseAll (evtOpen .srcLocked 42 x.code :: es) ∧ Only [.tb, .ev, .grt] s t)

/-- On a vehicle port that carries data, PDELAY_REQ_SEND notes its transmit stamp plus ASYM_OUT and its sequenceId, and takes the next
sequenceId; PDELAY_MEASUREMENT with that sequenceId gives ((t4 − t1) − (t3 − t2)) / 2 with t4 the receive stamp less ASYM_IN. A sensor port
that may send a master message (notes/assumptions/139.md) sends it in the served domain with the mapped time of the instant it serves, for
Sync and Announce the transmit stamp plus ASYM_OUT, and with the grandmaster attributes announced: clockClass 248 and the device's own
identity in FREE, 7 in HOLDOVER. An enabled trigger, in a frame whose number is a multiple of DIV, places its edges in turn: pulse p leads
at Bₙ + OFFSET + p × SPACING and trails WIDTH later; a leading edge is stamped outside Replay. 100 µs after the one before, an exchange
sends a marker and, on an open link, the TIME message; a missing one empties the run and makes the peer offset invalid, its value kept; a
completed one joins the run of the last 64 with ((t2 − t1) − (t4 − t3)) / 2 − QANAT_ASYM, and from 64 on the peer offset is the run's mean
to the nearest tick, ties to even, and valid. (R40, R50, R51, R53, R62, R64, R65) -/
def Obligations.DelaysMasterMessagesTriggersAndExchanges : Prop :=
  (∀ (port : Fin 2) tx (s : State), s.stalled = false → s.vehicleUp port = true → s.ptpStarts port = true → exec (.pdelayReqSend port tx) s = .next { s with tb := { s.tb with
      pdelayReq := s.tb.pdelayReq.set port (some (tx + BitVec.ofInt 64 (s.tb.cfg.asymOut[6 + port.val]), s.tb.pdelaySeq[port]))
      pdelaySeq := s.tb.pdelaySeq.set port (s.tb.pdelaySeq[port] + 1) } })
  ∧ (∀ (port : Fin 2) q t2 t3 rx t1 (s : State), s.stalled = false → s.vehicleUp port = true → s.tb.pdelayReq[port] = some (t1, q) → exec (.pdelayMeasurement port q t2 t3 rx) s = .next { s with tb := { s.tb with
      path := s.tb.path.set port (some ⟨(((rx - BitVec.ofInt 64 (s.tb.cfg.asymIn[6 + port.val]) - t1).toInt : Rat) - ((t3 - t2 : Int) : Rat) / 8192) / 2, s.tb.now⟩)
      pdelayReq := s.tb.pdelayReq.set port none } })
  ∧ (∀ (port : Fin 6) k tx (s : State), s.portUp ⟨8 + port.val, by omega⟩ = true → s.tb.ptpMay port k = true → ∃ t m, exec (.ptpMasterSend port k tx) s = .next t ∧
      t.tb.ptpSent[port] = some m ∧ m.kind = k ∧ m.domain = s.tb.cfg.sensorDomain ∧ m.transport = s.tb.cfg.sensorPort[port].transport ∧
      (k = .sync ∨ k = .announce → m.stamp = tx + BitVec.ofInt 64 (s.tb.cfg.asymOut[port.val]) ∧ m.seqId = (if k = .sync then s.tb.ptpSeq[port] else s.tb.ptpAnnSeq[port])) ∧
      (k = .followUp → ∀ x, s.tb.ptpSync[port] = some x → m.seqId = x.1 ∧ m.stamp = x.2) ∧ m.mappedTicks = m.stamp.toNat + s.tb.map.offset ∧
      (s.tb.map.state = .free → m.attrs.clockClass = 248 ∧ m.attrs.identity = Config.clockIdentity) ∧
      (s.tb.map.state = .holdover → m.attrs = { s.tb.holdAttrs with clockClass := 7 }) ∧
      t = { s with tb := { s.tb.ptpAfter port k (tx + BitVec.ofInt 64 (s.tb.cfg.asymOut[port.val])) with ptpSent := t.tb.ptpSent } })
  ∧ (∀ (i : Fin 16) (p : Fin 8) lead stamp (s : State) f, s.stalled = false → s.tb.frame = some f → s.tb.cfg.trig[i].en = true → p.val < s.tb.cfg.trig[i].count →
    f.no.toNat % s.tb.cfg.trig[i].div = 0 → s.tb.trigEdges[i] = 2 * p.val + (if lead then 0 else 1) →
    tReached s.tb.now (f.b + BitVec.ofNat 64 (s.tb.cfg.trig[i].offset + p.val * (if s.tb.cfg.trig[i].spacing = 0 then s.tb.cfg.period / 2 else s.tb.cfg.trig[i].spacing)
      + if lead then 0 else s.tb.cfg.trig[i].widthUs * 8000)) = true →
    exec (.triggerEdge i p lead stamp) s = .next { s with tb := { s.tb with
      trigActive := s.tb.trigActive.set i lead, trigEdges := s.tb.trigEdges.set i (s.tb.trigEdges[i] + 1)
      trigStamp := if lead && !s.replaying then s.tb.trigStamp.set i stamp else s.tb.trigStamp } })
  ∧ (∀ t1 o g (s : State), s.replaying = false → (∀ a, s.tb.xferAt = some a → elapsed s.tb.now a 800000 = true) → ∃ t, exec (.timeTransferExchange t1 none o g) s = .next t ∧
      t.tb = { s.tb with xferAt := some s.tb.now, markerTx := some t1, xfer := [], peerValid := false } ∧ Only [.ev, .tb, .guard, .qnt] s t ∧ (s.qnt.linkUp = false → s.twinLive = false → t.qnt = s.qnt))
  ∧ (∀ t1 t2 t3 t4 o g (s : State), s.qnt.linkUp = true → s.replaying = false → (∀ a, s.tb.xferAt = some a → elapsed s.tb.now a 800000 = true) →
      ∃ t l, exec (.timeTransferExchange t1 (some (t2, t3, t4)) o g) s = .next t ∧ t.tb.xferAt = some s.tb.now ∧ t.tb.markerTx = some t1 ∧ t.tb.markerRx = some t4 ∧
      t.qnt.sent = some (.time t.tb.timeMsg, l) ∧ t.tb.xfer = (((((t2 - t1).toInt - (t4 - t3).toInt : Int) : Rat) / 2 - (s.tb.cfg.qanatAsym : Rat)) :: s.tb.xfer).take 64 ∧
      (t.tb.xfer.length = 64 → t.tb.peerValid = true ∧ t.tb.peerOff = BitVec.ofInt 64 (rneRat (t.tb.xfer.foldl (· + ·) 0 / 64))) ∧
      (t.tb.xfer.length ≠ 64 → t.tb.peerValid = s.tb.peerValid ∧ t.tb.peerOff = s.tb.peerOff) ∧ Only [.ev, .tb, .guard, .qnt] s t)

/-- Outside a Replay stall. (The map moves on its own clock outside Replay mode only: there it comes from the capture, R86.) Where source x is
LOCKED or ACQUIRING and no Sync has come for SYNC_TIMEOUT of its intervals (no Announce for ANNOUNCE_TIMEOUT, for A and B), the timeout
makes it LISTENING and raises SRC_LOST first. In SETTLING, MAP_GUARD after its start, the map becomes LOCKED with every other field
unchanged. In HOLDOVER, HOLD_LIMIT after its start, it becomes FREE with DOMAIN 0 and every other field unchanged. Both maps wait for the
next guard cycle start (R48). In Replay mode neither command changes anything. (R53, R54, R65) -/
def Obligations.TimeoutsMoveSourcesAndTheMap : Prop :=
  (∀ x (s : State), s.stalled = false → ((s.tb.source x).st = .locked ∨ (s.tb.source x).st = .acquiring) →
    elapsed s.tb.now (s.tb.source x).lastSync (s.tb.cfg.syncTimeout * s.tb.syncTicks x) = true →
    ∃ t es, exec (.syncTimeoutExpiry x) s = .next t ∧ (t.tb.source x).st = .listening ∧ t.ev = s.ev.raiseAll (evtOpen .srcLost 42 x.code :: es) ∧ Only [.tb, .ev] s t)
  ∧ (∀ x (s : State), s.stalled = false → x ≠ .peer → ((s.tb.source x).st = .locked ∨ (s.tb.source x).st = .acquiring) →
    elapsed s.tb.now (s.tb.source x).lastAnnounce (s.tb.cfg.announceTimeout * s.tb.announceTicks x) = true →
    ∃ t es, exec (.announceTimeoutExpiry x) s = .next t ∧ (t.tb.source x).st = .listening ∧ t.ev = s.ev.raiseAll (evtOpen .srcLost 42 x.code :: es) ∧
      Only [.tb, .ev] s t)
  ∧ (∀ s : State, s.replaying = false → s.tb.latest.state = .settling → elapsed s.tb.now s.tb.settleAt (s.tb.cfg.mapGuardMs * 8000000) = true →
    exec .mapGuardExpiry s = .next { s with tb := { s.tb with mapNext := some (nextG s.tb.now, { s.tb.latest with state := .locked }) } })
  ∧ (∀ s : State, s.replaying = false → s.tb.latest.state = .holdover → elapsed s.tb.now s.tb.holdAt (s.tb.cfg.holdLimitS * 8000000000) = true →
    exec .holdLimitExpiry s = .next { s with tb := { s.tb with mapNext := some (nextG s.tb.now, { s.tb.latest with state := .free, domain := 0 }) } })
  ∧ (∀ s : State, s.replaying = true → exec .mapGuardExpiry s = .next s ∧ exec .holdLimitExpiry s = .next s)

/-- Outside Replay mode, REF10M_EDGE notes the stamp and ends a loss; outside a HOLDOVER that steers to REF10M_IN it changes nothing else. In
such a HOLDOVER, 1 µs without an edge raises REF10M_LOST once and leaves the increment as it is. PPS_IN_EDGE never steers: it keeps the
stamp and its mapped time's distance to the nearest whole second, and may give the Grotto a sample. From phase enrolment on PPS_OUT rises at
a whole second of mapped time, the first from the instant noted on, which is one tick past the rise before; a jump that comes into force
moves that instant to at least 500 ms after that rise. It falls PPS_WIDTH after its rise. (R57, R58, R63) -/
def Obligations.ReferenceAndSecondEdges : Prop :=
  (∀ stamp (s : State), s.replaying = false → (s.tb.map.state ≠ .holdover ∨ s.tb.cfg.holdExt = false ∨ s.tb.ref10m = none ∨ s.tb.ref10mLost = true) →
    exec (.ref10mEdge stamp) s = .next { s with tb := { s.tb with ref10m := some stamp, ref10mLost := false } })
  ∧ (∀ a (s : State), s.replaying = false → s.tb.map.state = .holdover → s.tb.cfg.holdExt = true → s.tb.ref10mLost = false → s.tb.ref10m = some a → elapsed s.tb.now a 8000 = true →
    exec .ref10mLost s = .next { s with tb := { s.tb with ref10mLost := true }, ev := s.ev.raise (evtOpen .ref10mLost 42 0) })
  ∧ (∀ stamp (s : State), s.replaying = false → ∃ t, exec (.ppsInEdge stamp) s = .next t ∧ t.tb = { s.tb with ppsStamp := some stamp, ppsResidual := t.tb.ppsResidual } ∧
      (∃ k : Int, (s.tb.map.mapped stamp : Int) = k * 8000000000 + t.tb.ppsResidual) ∧ 2 * t.tb.ppsResidual.natAbs ≤ 8000000000 ∧ Only [.tb, .grt] s t)
  ∧ (∀ s : State, s.stalled = false → s.isl.allEnrolled = true → s.tb.ppsHigh = false → tReached s.tb.now s.tb.ppsDue = true →
    exec .ppsOutEdge s = .next { s with tb := { s.tb with ppsHigh := true, ppsRise := some s.tb.ppsDue, ppsFrom := s.tb.ppsDue + 1 } })
  ∧ (∀ tb : Timebase, tb.ppsFrom.toNat + 8000000000 < 2 ^ 64 → tb.map.mapped tb.ppsDue % 8000000000 = 0 ∧
      tb.ppsFrom.toNat ≤ tb.ppsDue.toNat ∧ tb.ppsDue.toNat < tb.ppsFrom.toNat + 8000000000)
  ∧ (∀ (tb : Timebase) g m r, tb.mapNext = some (g, m) → m.mapSeq ≠ tb.map.mapSeq → tReached tb.now g = true → tb.ppsRise = some r →
      tReached tb.installMap.ppsFrom (r + 4000000000) = true)
  ∧ (∀ r (s : State), s.stalled = false → s.isl.allEnrolled = true → s.tb.ppsHigh = true → s.tb.ppsRise = some r → elapsed s.tb.now r (s.tb.cfg.ppsWidthUs * 8000) = true →
    exec .ppsOutEdge s = .next { s with tb := { s.tb with ppsHigh := false } })

/-- Outside a Replay stall, once device time reaches the next boundary b, FRAME_BOUNDARY opens the frame at b with the number after the latest
one (0 for the first). Without a jump to re-anchor for (and always in increment mode or with FRAME_ANCHOR = DEVICE), its period is P and no
event is queued. Where a jump took effect at a guard cycle start at or before b, in servo mode on a grid anchored to the domain, its period
is P + s with 0 ≤ s < P and mapped time at b + P + s congruent to FRAME_PHASE modulo P; s is kept and GRID_STRETCH carries it. Every flume's
OVERRUN is cleared. (R59, R60, R61, R483) -/
def Obligations.FrameBoundariesFollowTheGrid : Prop :=
  ∀ s : State, s.stalled = false → s.tb.running = true → tReached s.tb.now s.tb.nextB = true → 0 < s.tb.cfg.framePeriodMs → ∃ t f, exec .frameBoundary s = .next t ∧ t.tb.frame = some f ∧
    f.b = s.tb.nextB ∧ f.no = (match s.tb.frame with | some g => g.no + 1 | none => 0) ∧ (∀ h : Fin 64, t.hgs[h].overrun = false) ∧
    ((∀ g, s.tb.reanchor = some g → tReached s.tb.nextB g = false ∨ s.tb.cfg.servo = false ∨ s.tb.cfg.anchorDevice = true) →
      f.next = f.b + BitVec.ofNat 64 s.tb.cfg.period ∧ f.stretched = false ∧ t.tb.stretch = s.tb.stretch ∧ t.ev.intake = s.ev.intake) ∧
    (∀ g, s.tb.reanchor = some g → tReached s.tb.nextB g = true → s.tb.cfg.servo = true → s.tb.cfg.anchorDevice = false → ∃ k, k < s.tb.cfg.period ∧
      f.next = f.b + BitVec.ofNat 64 (s.tb.cfg.period + k) ∧ f.stretched = true ∧ t.tb.stretch = BitVec.ofNat 32 k ∧ t.tb.reanchor = none ∧
      (s.tb.map.mapped (f.b + BitVec.ofNat 64 s.tb.cfg.period) + k) % s.tb.cfg.period = s.tb.cfg.framePhaseUs * 8000 % s.tb.cfg.period ∧
      ∃ q : Sluice, t.ev = q.raise (evt .gridStretch 42 0 k))

/-- RESET_ASSERT gives the reset state; only the OTP memory, the waiting commands and the supplies' condition stay, and SAFE_OK_A, SAFE_OK_B and
FAULT_N are low. A reset while the rollback counter is being programmed leaves it between its old and its new count, both included (R104),
OTP being otherwise as it was. A short pulse changes nothing. Before reset release POWER_ON_RESET holds the internal reset while a supply is
out of range; afterwards it changes nothing. RESET_RELEASE, once no supply is out of range, starts device time at 0, samples the three
straps, holds the device in S0 where a STRAP is high, and powers exactly the S0 islands 42, 43, 130 to 135, 138 and 141 to 143. That OTP and
queue stay is the model's choice (log entries 3 and 7). (R32, R35, R104, R415, R526, R527, R528) -/
def Obligations.ResetAndItsRelease : Prop :=
  (∀ s : State, ∃ t, exec .resetAssert s = .next t ∧ t = { State.reset with pending := s.pending, bcc := { otp := s.bcc.otp.interrupted s.tb.now }, pwr := { por := s.pwr.por } } ∧
      t.safeOkA = false ∧ t.safeOkB = false ∧ t.faultLow = true ∧ (s.bcc.otp.programming = none → t.bcc.otp = s.bcc.otp) ∧
      (∀ old at_, s.bcc.otp.programming = some (old, at_) → old ≤ s.bcc.otp.rollback → t.bcc.otp = { s.bcc.otp with rollback := t.bcc.otp.rollback, programming := none } ∧
        old ≤ t.bcc.otp.rollback ∧ t.bcc.otp.rollback ≤ s.bcc.otp.rollback))
  ∧ (∀ s : State, exec .resetNShortPulse s = .next s)
  ∧ (∀ inRange (s : State), s.tb.running = false → exec (.powerOnReset inRange) s = .next { s with pwr := { s.pwr with por := !inRange } })
  ∧ (∀ inRange (s : State), s.tb.running = true → exec (.powerOnReset inRange) s = .next s)
  ∧ (∀ x (s : State), s.tb.running = false → s.pwr.por = false → ∃ t, exec (.resetRelease x) s = .next t ∧
      t.tb = { s.tb with running := true, now := 0, frac := 0 } ∧ t.pwr = { s.pwr with resetN := false, straps := some x } ∧
      t.bcc = { s.bcc with held := x.strapA || x.strapB } ∧ t.isl = { s.isl with powered := t.isl.powered } ∧ Only [.tb, .pwr, .bcc, .isl] s t ∧
      (∀ i : Fin 144, s.isl.cfg.replay = false → (t.isl.powered[i] = true ↔
        s.isl.powered[i] = true ∨ i.val = 42 ∨ i.val = 43 ∨ (130 ≤ i.val ∧ i.val ≤ 135) ∨ i.val = 138 ∨ (141 ≤ i.val ∧ i.val ≤ 143))))

/-- A PHASE_ENROLMENT_MARKER, the first or one 20 µs after the one before, at which every crossing reports ends enrolment; every powered island
carries data, its stamper aligned, and every crossing between two powered islands has write pointer 3 and read pointer 0. With a crossing
that has not reported, that crossing keeps its pointers, no island is enrolled, enrolment stays open, and at the third marker the pair is
named and the device held in S0. An earlier marker does nothing. ISLAND_REENROL enrols exactly its powered island, and presets exactly the
crossings between it and the other powered islands; every Cistern byte of island i (80 to 111, two banks of 2 MB) reads 0 afterwards and
every other Cistern byte as before, where no word is poisoned; the islands 61, 67, 73 and 79 clear their engine's local buffer, and no other
memory changes. (R70, R71, R470) -/
def Obligations.EnrolmentPresetsTheCrossings : Prop :=
  (∀ s : State, s.tb.running = true → s.isl.allEnrolled = false → s.isl.enrolFail = none → s.isl.markDue s.tb.now = true → ∃ t, exec (.phaseEnrolmentMarker none) s = .next t ∧
      t.isl.allEnrolled = true ∧ t.isl.markers = s.isl.markers + 1 ∧ (∀ i : Fin 144, s.isl.powered[i] = true → t.isl.enrolled[i] = true ∧ t.isl.aligned[i] = true) ∧
      (∀ a b : Fin 144, s.isl.powered[a] = true → s.isl.powered[b] = true → a ≠ b → t.isl.crossing[a][b] = (3, 0)) ∧ Only [.isl, .bcc, .tb] s t ∧
      t.bcc = { s.bcc with condAt := s.tb.now } ∧ t.tb = { s.tb with ppsFrom := s.tb.now })
  ∧ (∀ p q (s : State), s.tb.running = true → s.isl.allEnrolled = false → s.isl.enrolFail = none → s.isl.markDue s.tb.now = true → ∃ t,
      exec (.phaseEnrolmentMarker (some (p, q))) s = .next t ∧ t.isl.allEnrolled = false ∧ t.isl.markers = s.isl.markers + 1 ∧ t.isl.enrolled = s.isl.enrolled ∧
      t.isl.crossing[p][q] = s.isl.crossing[p][q] ∧ Only [.isl, .bcc] s t ∧ (s.isl.markers < 2 → t.isl.enrolFail = none ∧ t.bcc.held = s.bcc.held) ∧
      (2 ≤ s.isl.markers → t.isl.enrolFail = some (p, q) ∧ t.bcc.held = true))
  ∧ (∀ m (s : State), s.isl.markers ≠ 0 → elapsed s.tb.now s.isl.markAt 160000 = false → exec (.phaseEnrolmentMarker m) s = .next s)
  ∧ (∀ (i : Fin 144) ln (s : State), s.isl.allEnrolled = true → s.isl.powered[i] = true → s.isl.enrolled[i] = false → ∃ t, exec (.islandReenrol i ln) s = .next t ∧
      t.isl.enrolled[i] = true ∧ (∀ k : Fin 144, k ≠ i → t.isl.enrolled[k] = s.isl.enrolled[k]) ∧ (∀ a b : Fin 144, t.isl.crossing[a][b] =
        if s.isl.powered[a] = true ∧ s.isl.powered[b] = true ∧ a ≠ b ∧ (a = i ∨ b = i) then (3, 0) else s.isl.crossing[a][b]) ∧
      t.isl = { s.isl with enrolled := t.isl.enrolled, crossing := t.isl.crossing, aligned := t.isl.aligned } ∧ Only [.isl, .mem, .bcc, .ports] s t ∧
      (80 ≤ i.val → i.val ≤ 111 → s.mem.cisternBad = [] → ∀ a, t.mem.get .cistern a =
        if (i.val - 80) * 4194304 ≤ a ∧ a < (i.val - 79) * 4194304 then 0 else s.mem.get .cistern a) ∧
      (i.val < 80 ∨ 111 < i.val → t.mem.cistern = s.mem.cistern) ∧ t.mem.dram = s.mem.dram ∧
      (∀ k : Fin 4, (i.val ≠ 61 + 6 * k.val → t.mem.local_[k] = s.mem.local_[k]) ∧ (i.val = 61 + 6 * k.val → ∀ a, a < 7340032 → t.mem.get (.loc k) a = 0)))

/-- After reset release SUPPLY_FAIL of monitor m queues SUPPLY_FAIL with instance and DATA m and marks m; CLOCK_FAIL of a powered island marks
the island and queues CLOCK_FAIL of that island, of class C3 for islands 42 to 45 and 122 to 143 and C2 for the others; neither changes
anything else. Outside a Replay stall a TEMPERATURE_READING 1 ms of device time or more after the one before (or the first) takes all 8
sensors and 16 supply monitors; an earlier one changes nothing. A sensor counts its readings in a row at or above Tj,max less 10.0 °C, and
those at or above Tj,max; it raises TEMP_WARN with its number at the second or a later one of the first kind while armed, which disarms it
until a reading at or below Tj,max less 15.0 °C, and TEMP_LIMIT at the second of the other kind, once, after which it stays limited. No
other event is queued, and beside the events and these values only samples of the Grotto change. EXTEST is in force where it is asked for
and a certificate has been presented, and not otherwise; a certificate once presented counts from then on; nothing else changes. (R525, R529, R530, R542) -/
def Obligations.SuppliesClocksAndScan : Prop :=
  (∀ m (s : State), s.tb.running = true → exec (.supplyFail m) s = .next { s with
      pwr := { s.pwr with supplyFail := s.pwr.supplyFail ||| (1#16 <<< m.val) }, ev := s.ev.raise (evt .supplyFail 143 m.val m.val) })
  ∧ (∀ (i : Fin 144) (s : State), s.tb.running = true → s.isl.powered[i] = true → 
      exec (.clockFail i) s = .next { s with isl := { s.isl with clockFail := s.isl.clockFail.set i true }
                                             ev := s.ev.raise (evtOpenAt .clockFail (if (42 ≤ i.val ∧ i.val ≤ 45) ∨ 122 ≤ i.val then .c3 else .c2) i.val 0) })
  ∧ (∀ rs vs (s : State), s.stalled = false → s.tb.running = true → s.pwr.readDue s.tb.now = true → ∃ t es, exec (.temperatureReading rs vs) s = .next t ∧ Only [.ev, .pwr, .grt] s t ∧ t.ev = s.ev.raiseAll es ∧
      t.pwr = { s.pwr with temp := t.pwr.temp, supply := vs, readAt := some s.tb.now } ∧ ∀ i : Fin 8, t.pwr.temp[i].reading = rs[i] ∧
        (evt .tempWarn 143 i.val i.val ∈ es ↔ s.pwr.temp[i].armed = true ∧ tjMax - 100 ≤ rs[i] ∧ 1 ≤ s.pwr.temp[i].warnRun) ∧
        (evt .tempLimit 143 i.val i.val ∈ es ↔ s.pwr.temp[i].limited = false ∧ tjMax ≤ rs[i] ∧ 1 ≤ s.pwr.temp[i].limitRun) ∧
        (t.pwr.temp[i].warnRun = if tjMax - 100 ≤ rs[i] then s.pwr.temp[i].warnRun + 1 else 0) ∧
        (evt .tempWarn 143 i.val i.val ∈ es → t.pwr.temp[i].armed = false) ∧ (rs[i] ≤ tjMax - 150 → t.pwr.temp[i].armed = true) ∧
        (evt .tempWarn 143 i.val i.val ∉ es → tjMax - 150 < rs[i] → t.pwr.temp[i].armed = s.pwr.temp[i].armed) ∧
        (t.pwr.temp[i].limitRun = if tjMax ≤ rs[i] then s.pwr.temp[i].limitRun + 1 else 0) ∧
        (t.pwr.temp[i].limited = true ↔ s.pwr.temp[i].limited = true ∨ evt .tempLimit 143 i.val i.val ∈ es) ∧
        (∀ e ∈ es, ∃ k : Fin 8, e = evt .tempWarn 143 k.val k.val ∨ e = evt .tempLimit 143 k.val k.val))
  ∧ (∀ rs vs (s : State), s.pwr.readDue s.tb.now = false → exec (.temperatureReading rs vs) s = .next s)
  ∧ (∀ (p : Power) (now a : T64), (p.readAt = none → p.readDue now = true) ∧ (p.readAt = some a → (p.readDue now = true ↔ elapsed now a 8000000 = true)))
  ∧ (∀ certificate on (s : State), ∃ t, exec (.extest certificate on) s = .next t ∧ Only [.pwr] s t ∧ (t.pwr.extest = true ↔ on = true ∧ t.pwr.unlocked = true) ∧
      t.pwr.unlocked = (s.pwr.unlocked || certificate) ∧ t.pwr = { s.pwr with unlocked := t.pwr.unlocked, extest := t.pwr.extest })

/-- While the BCC reads: SFDP_READ no later than 500 µs after reset release notes the slot's device with its capacity, a later one does nothing;
NO_DEVICE_TIMEOUT, 500 µs after reset release without an answer, gives the slot reason 1; HEADER_CHECK gives the slot the first reason of
R105 that applies, 0 making it a candidate, and keeps the header's image digest. Once both slots are checked and none is selected, the
candidate is selected, the one of higher SVN where both are, slot A on equal SVN; without a candidate the device is held in S0 with
LOAD_RESULT NO_CANDIDATE. Only the BCC changes. (R95, R98, R105, R106) -/
def Obligations.SlotsAnswerAndOneIsChosen : Prop :=
  (∀ (k : Fin 2) n (s : State), s.loading = true → s.bcc.slots[k].answered = none → tReached 4000000 s.tb.now = true → exec (.sfdpRead k n) s = .next { s with bcc := { s.bcc with
      slots := s.bcc.slots.set k { s.bcc.slots[k] with answered := some true, bytes := n } } })
  ∧ (∀ (k : Fin 2) n (s : State), tReached 4000000 s.tb.now = false → exec (.sfdpRead k n) s = .next s)
  ∧ (∀ (k : Fin 2) (s : State), s.loading = true → s.bcc.slots[k].answered = none → tReached s.tb.now 4000000 = true → ∃ t, exec (.noDeviceTimeout k) s = .next t ∧
      Only [.bcc] s t ∧ t.bcc.slots[k].fail = 1 ∧ t.bcc.slots[k].checked = true ∧ t.bcc.slots[k].candidate = false)
  ∧ (∀ (k : Fin 2) hdr tab (s : State), s.loading = true → s.bcc.slots[k].answered = some true → s.bcc.slots[k].checked = false → ∃ t,
      exec (.headerCheck k hdr tab) s = .next t ∧ Only [.bcc] s t ∧ t.bcc.slots[k].checked = true ∧ t.bcc.slots[k].header = some (Manifest.ofBytes hdr) ∧
      t.bcc.slots[k].fail = headerReason s.bcc.otp s.bcc.slots[k].bytes hdr tab ∧ (t.bcc.slots[k].candidate = true ↔ t.bcc.slots[k].fail = 0) ∧
      t.bcc.slots[k].digest = sha256 (hdr.take 192) ∧ t.bcc.slots[k].table = sectionTable (Manifest.ofBytes hdr).sections tab)
  ∧ (∀ b : Bcc, b.slots[0].checked = true → b.slots[1].checked = true → b.slot = none →
      (b.slots[0].candidate = true → (b.slots[1].candidate = false ∨ b.slots[1].svn ≤ b.slots[0].svn) → b.select.slot = some 0) ∧
      (b.slots[1].candidate = true → (b.slots[0].candidate = false ∨ b.slots[0].svn < b.slots[1].svn) → b.select.slot = some 1) ∧
      (b.slots[0].candidate = false → b.slots[1].candidate = false → b.select.slot = none ∧ b.select.held = true ∧ b.select.result = .noCandidate))

/-- Where the BCC reads the LENGTH bytes of section e of the selected slot and its checks pass with plaintext p and the content that p spells,
SECTION_READ adds it after the sections installed, reads the next one, and ends the load complete after the last; no byte of memory changes,
but where it is a MODEL_SLOT or a QSA section, or such a section stands among those of STAGE 1. A section whose stored bytes do not have the
entry's SHA-256 fails with reason 10 before anything else is looked at. A failure in STAGE 1 goes to the other slot's first section where
that is an untried candidate, and otherwise holds the device in S0 with NO_CANDIDATE. In STAGE 2 or 3 the first digest failure of a section
is read again; any other failure ends the load with SECTION_FAIL and queues IMG_SECTION_FAIL with the section's index, and keeps the stage. (R103, R104, R105, R106, R107) -/
def Obligations.SectionsAreReadInOrder : Prop :=
  (∀ st (s : State) e p c, s.loading = true → s.bcc.slot.isSome = true → s.bcc.sel.table[s.bcc.next]? = some e → st.length = e.length →
      ({ s.bcc with readBytes := bumpBy s.bcc.readBytes st.length, condAt := s.tb.now } : Bcc).judge e st = .ok (p, c) → ∃ t l, exec (.sectionRead st) s = .next t ∧
      t.bcc.installed = l ∧ l.length = s.bcc.installed.length + 1 ∧ (l.getLast?).map (fun x => (x.index, x.entry, x.bytes, x.content)) = some (s.bcc.next, e, p, c) ∧
      SectionContent.ofBytes e.type e.inst p = some c ∧
      t.bcc.next = s.bcc.next + 1 ∧ t.bcc.last = some s.bcc.next ∧ (t.bcc.result = .complete ↔ s.bcc.next + 1 = s.bcc.sel.table.length) ∧ t.bcc.stage = s.bcc.stage ∧
      (e.stage ≠ 1 → (∀ q, c ≠ .qsa q) → c ≠ .modelSlot → ∀ sp a, t.mem.get sp a = s.mem.get sp a) ∧
      ((∀ x ∈ l, x.entry.stage = 1 → (∀ q, x.content ≠ .qsa q) ∧ x.content ≠ .modelSlot) → e.stage = 1 → ∀ sp a, t.mem.get sp a = s.mem.get sp a))
  ∧ (∀ (b : Bcc) e st, sha256 st ≠ e.digest → b.judge e st = .error 10)
  ∧ (∀ st (s : State) e r, s.loading = true → s.bcc.slot.isSome = true → s.bcc.sel.table[s.bcc.next]? = some e → st.length = e.length →
      ({ s.bcc with readBytes := bumpBy s.bcc.readBytes st.length, condAt := s.tb.now } : Bcc).judge e st = .error r → ∃ t, exec (.sectionRead st) s = .next t ∧ Only [.bcc, .ev] s t ∧
      t.bcc.stage = s.bcc.stage ∧
      (e.stage = 1 → t.ev = s.ev ∧ ((∃ k : Fin 2, s.bcc.slot ≠ some k ∧ t.bcc.slot = some k ∧ s.bcc.slots[k].candidate = true ∧ s.bcc.slots[k].tried = false ∧ t.bcc.next = 0 ∧
          t.bcc.installed = [] ∧ t.bcc.result = .reading) ∨ (t.bcc.result = .noCandidate ∧ t.bcc.held = true ∧ t.bcc.installed = [] ∧
          ∀ k : Fin 2, s.bcc.slot ≠ some k → s.bcc.slots[k].candidate = false ∨ s.bcc.slots[k].tried = true))) ∧
      (e.stage ≠ 1 → r = 10 → s.bcc.retry = false → t.bcc.retry = true ∧ t.bcc.next = s.bcc.next ∧ t.bcc.result = .reading ∧ t.ev = s.ev) ∧
      (e.stage ≠ 1 → (r ≠ 10 ∨ s.bcc.retry = true) → t.bcc.result = .sectionFail ∧ t.bcc.failed = some s.bcc.next ∧ t.bcc.reason = r ∧
        t.ev = s.ev.raise (evt .imgSectionFail 141 0 s.bcc.next) ∧ t.bcc.installed = s.bcc.installed))

/-- Where S1 can be entered, the stage is 1, the entry time is noted (the latest Gₖ, in Replay mode the present), the Pose Ladder's first rung
is the next whole microsecond, SAFE_OK_A and SAFE_OK_B are raised outside Replay mode, and STAGE_ENTRY with DATA 1 is queued. Where S2 or S3
can be entered, the stage is 2 or 3 and STAGE_ENTRY is queued with that DATA; S3 with SVN_COMMIT raises the rollback counter to the image's
SVN, never lowers it, its programming beginning at that instant, and reports SVN_COMMITTED. STAGE_LATE queues one event for S1 from 35 ms
and one for S3 from 1.2 s after reset release, each once, and changes no stage. (R32, R104, R111, R114, R193) -/
def Obligations.StageEntries : Prop :=
  (∀ s : State, s.s1Ready = true → exec .stageEntryS1 s = .next { s with
      bcc := { s.bcc with stage := 1, s1At := some (if s.isl.cfg.replay then s.tb.now else BitVec.ofNat 64 (s.tb.now.toNat / 8000 * 8000)) }
      safety := { s.safety with raised := !s.isl.cfg.replay }
      pl := { s.pl with start := some (s.tb.now.toNat / 8000 + 1), nextK := some (s.tb.now.toNat / 8000 + 1) }, ev := s.ev.raise (evt .stageEntry 141 0 1) })
  ∧ (∀ s : State, s.s2Ready = true → ∃ t, exec .stageEntryS2 s = .next t ∧ t.bcc.stage = 2 ∧ t.ev = s.ev.raise (evt .stageEntry 141 0 2) ∧
      Only [.ev, .bcc, .seq, .pcu, .mem, .guard] s t ∧ t.bcc.otp = s.bcc.otp ∧ t.bcc.installed.length = s.bcc.installed.length)
  ∧ (∀ s : State, s.s3Ready = true → ∃ t, exec .stageEntryS3 s = .next t ∧ t.bcc.stage = 3 ∧ Only [.ev, .bcc, .seq, .pcu, .mem, .guard, .capture] s t ∧
      (s.bcc.manifest.svnCommit = false → t.bcc.otp = s.bcc.otp ∧ t.ev = s.ev.raise (evt .stageEntry 141 0 3)) ∧
      (s.bcc.manifest.svnCommit = true → t.bcc.otp = { s.bcc.otp with rollback := max s.bcc.otp.rollback s.bcc.manifest.svn, programming := some (s.bcc.otp.rollback, s.tb.now) } ∧ t.bcc.svnCommitted = true ∧
        t.ev = (s.ev.raise (evt .stageEntry 141 0 3)).raise (evtOpen .svnCommitted 141 0)))
  ∧ (∀ s : State, s.tb.running = true → s.isl.cfg.replay = false → ∃ t es, exec .stageLate s = .next t ∧ Only [.ev, .bcc] s t ∧ t.ev = s.ev.raiseAll es ∧
      (evtOpen .stageLate 141 1 ∈ es ↔ s.bcc.stage = 0 ∧ s.bcc.lateS1 = false ∧ tReached s.tb.now 280000000 = true) ∧
      (evtOpen .stageLate 141 3 ∈ es ↔ s.bcc.stage ≠ 3 ∧ s.bcc.lateS3 = false ∧ tReached s.tb.now 9600000000 = true) ∧ (∀ e ∈ es, e = evtOpen .stageLate 141 1 ∨ e = evtOpen .stageLate 141 3) ∧
      (evtOpen .stageLate 141 1 ∈ es → t.bcc.lateS1 = true) ∧ (evtOpen .stageLate 141 3 ∈ es → t.bcc.lateS3 = true) ∧
      t.bcc = { s.bcc with lateS1 := t.bcc.lateS1, lateS3 := t.bcc.lateS3 })

/-- For every command other than RESET_ASSERT that answers a next state, the stage after it is at least the stage before; it rises only by
STAGE_ENTRY_S1 from 0 to 1, by STAGE_ENTRY_S2 from 1 to 2, and by STAGE_ENTRY_S3 to 3 from 2, or from 1 where the image has no STAGE 2
section. So every step whose front command is no RESET_ASSERT keeps or raises it. (R32, R111) -/
def Obligations.StageNeverFalls : Prop :=
  (∀ (c : Instr) (s t : State), c ≠ .resetAssert → exec c s = .next t → t.bcc.stage = s.bcc.stage ∨ (c = .stageEntryS1 ∧ s.bcc.stage = 0 ∧ t.bcc.stage = 1) ∨
    (c = .stageEntryS2 ∧ s.bcc.stage = 1 ∧ t.bcc.stage = 2) ∨ (c = .stageEntryS3 ∧ t.bcc.stage = 3 ∧ (s.bcc.stage = 2 ∨ (s.bcc.stage = 1 ∧ s.bcc.hasStage 2 = false))))
  ∧ ∀ s t : State, s.pending.head? ≠ some .resetAssert → step s = .next t → s.bcc.stage.toNat ≤ t.bcc.stage.toNat

/-- For island i below 144: with fewer than 16 events in its FIFO, raising an event puts it last with its resulting class (the higher of the
source class and the class table's entry) and loses none; with 16 the FIFO stays and LOST counts one more. Either way class C2 or C3 asserts
the island's C2 line or its C3 lines of both paths, no line is ever released, a lower class asserts none, and FIFOs, counts and lines of
every other island stay. So a FIFO never grows past 16 events. (R75, R76, R406, R407) -/
def Obligations.RaisingQueuesOrCounts : Prop :=
  (∀ (q : Sluice) (e : Ev) (i : Fin 144), e.island = i.val →
      (q.intake[i].length < 16 → (q.raise e).intake = q.intake.set i (q.intake[i] ++ [{ e with cls := q.classOf e }]) ∧ (q.raise e).lost = q.lost ∧
        (q.raise e).eventsLost = q.eventsLost) ∧
      (16 ≤ q.intake[i].length → (q.raise e).intake = q.intake ∧ (q.raise e).lost = q.lost.set i (q.lost[i] + 1)) ∧
      (∀ k : Fin 144, ((q.raise e).lineC2[k] = true ↔ q.lineC2[k] = true ∨ (k = i ∧ q.classOf e = .c2)) ∧
        ((q.raise e).lineC3[k] = true ↔ q.lineC3[k] = true ∨ (k = i ∧ q.classOf e = .c3)) ∧
        ((q.raise e).lineC3B[k] = true ↔ q.lineC3B[k] = true ∨ (k = i ∧ q.classOf e = .c3))) ∧
      (q.raise e).next = q.next ∧ (q.raise e).ring = q.ring ∧ (q.raise e).ack = q.ack)
    ∧ (∀ (q : Sluice) (e : Ev), e.cls.code ≤ (q.classOf e).code ∧ (q.entry e.kind).code ≤ (q.classOf e).code ∧ (q.classOf e = e.cls ∨ q.classOf e = q.entry e.kind))
    ∧ (∀ (q : Sluice) (es : List Ev), (∀ i : Fin 144, q.intake[i].length ≤ 16) → ∀ i : Fin 144, (q.raiseAll es).intake[i].length ≤ 16)

/-- Once the clocks are enrolled, an event waits and the buffer of each supervisor not lost has room, outside a Replay stall, SLUICE_INTAKE
takes the oldest event of the first island that presents one, beginning after the island taken last (from island 0 in Replay mode), and no
other. Its record carries the next SEQ and device time as TOO; the event ring (4,096 records) and the buffers of the supervisors not lost
receive it, SEQ counts up by one, and SLUICE_TIE counts where more than one island presented an event. With no event, or with a supervisor's
buffer of 256 records full (notes/assumptions/141.md), it changes nothing. Outside a stall EVENTS_LOST, with space in the FIFO and a count,
queues one event with the count as DATA and clears it. Device time, memory and every block but the Sluice, the Sequencer's counts and the
observation port stay. (R72, R74, R75, R77, R83, R85) -/
def Obligations.OneEventIsNumberedAtATime : Prop :=
  (∀ (s : State) (i : Fin 144) e rest, s.stalled = false → s.enrolled = true → s.supervisorsTake = true → s.ev.pick s.replaying = some i → s.ev.intake[i] = e :: rest → ∃ t r, exec .sluiceIntake s = .next t ∧
      t.ev.intake = s.ev.intake.set i rest ∧ t.ev.next = s.ev.next + 1 ∧ t.ev.lastIsland = e.island ∧ t.ev.ring = (r :: s.ev.ring).take 4096 ∧
      t.ev.ssaBuf = (if s.safety.sup[0].lost then [] else r :: s.ev.ssaBuf) ∧ t.ev.ssbBuf = (if s.safety.sup[1].lost then [] else r :: s.ev.ssbBuf) ∧ r.seq = s.ev.next ∧ r.too = s.tb.now ∧ r.island = e.island ∧ r.kind = e.kind ∧ r.cls = e.cls ∧
      r.inst = e.inst ∧ r.data = e.data ∧ t.ev.lost = s.ev.lost ∧ t.ev.lineC2 = s.ev.lineC2 ∧ t.ev.lineC3 = s.ev.lineC3 ∧ t.ev.lineC3B = s.ev.lineC3B ∧ Only [.ev, .seq, .obp] s t ∧
      ((∀ k : Fin 144, s.ev.intake[k] ≠ [] → k = i) → t.ev.ties = s.ev.ties ∧ t.seq = s.seq) ∧
      (∀ k : Fin 144, s.ev.intake[k] ≠ [] → k ≠ i → t.ev.ties = bump s.ev.ties))
  ∧ (∀ (q : Sluice) (i : Fin 144), q.pick true = some i ↔ q.intake[i] ≠ [] ∧ ∀ k : Fin 144, k < i → q.intake[k] = [])
  ∧ (∀ (q : Sluice) (i : Fin 144), q.lastIsland < 144 → (q.pick false = some i ↔ q.intake[i] ≠ [] ∧
      ∀ k : Fin 144, q.intake[k] ≠ [] → (i.val + 143 - q.lastIsland) % 144 ≤ (k.val + 143 - q.lastIsland) % 144))
  ∧ (∀ s : State, ((∃ k : Fin 2, s.safety.sup[k].lost = false ∧ 256 ≤ (if k = 0 then s.ev.ssaBuf else s.ev.ssbBuf).length) ∨ ∀ k : Fin 144, s.ev.intake[k] = []) → exec .sluiceIntake s = .next s)
  ∧ (∀ (i : Fin 144) (s : State), s.stalled = false → s.ev.lost[i] ≠ 0 → s.ev.intake[i].length < 16 → exec (.eventsLost i) s = .next { s with
      ev := ({ s.ev with lost := s.ev.lost.set i 0 } : Sluice).raise (evt .eventsLost i.val 0 s.ev.lost[i]) })

/-- Outside a Replay stall, where launch j of entry e is due in frame n (R81) and within its window, SCHEDULE_LAUNCH records it as running from
device time on; a target outside the Tensor Engines becomes busy with it, and nothing but the Sequencer, and a Grotto sample, changes; on a
TE queue below 16 entries the launch entry joins the queue with its list address. Where the entry reads uncorrectable, SEQ_MEM_UE is queued
with its number and the entry is due in no later frame. A launch of a lost entry, one already launched, or one whose window has passed is
not due, nor is any after a C3 or before phase enrolment. (R79, R81, R473, R518) -/
def Obligations.LaunchesStartTheirTarget : Prop :=
  (∀ (n : BitVec 64) (e : Fin 256) (j : Fin 16) (s : State) x, s.stalled = false → s.launchable n e.val j.val = true → (s.seq.tableOf n)[e.val]? = some x → ∃ t, exec (.scheduleLaunch n e j false) s = .next t ∧
      t.seq.find n e.val j.val = some ⟨n, e.val, j.val, .running, s.tb.now, false, false, none⟩ ∧ t.seq.table = s.seq.table ∧ t.seq.prev = s.seq.prev ∧ t.seq.bad = s.seq.bad ∧
      Only [.ev, .seq, .tes, .grt] s t ∧
      (∀ u, unitOf x.target = some u → t.seq.busy = s.seq.busy.set u (some (n, e.val, j.val)) ∧ t.tes = s.tes ∧ t.ev = s.ev) ∧
      (∀ (k q : Fin 4), x.target = BitVec.ofNat 8 (4 * k.val + q.val) → t.seq.busy = s.seq.busy ∧
        t.tes.te[k].flume[q] = s.tes.te[k].flume[q] ++ [⟨BitVec.ofNat 8 e.val, BitVec.ofNat 4 j.val, n.setWidth 32, x.list⟩]))
  ∧ (∀ (n : BitVec 64) (e : Fin 256) (j : Fin 16) (s : State), s.stalled = false → s.launchable n e.val j.val = true → exec (.scheduleLaunch n e j true) s = .next { s with
      seq := { s.seq with bad := e.val :: s.seq.bad }, ev := s.ev.raise (evtOpen .seqMemUe 134 e.val) })
  ∧ (∀ (n : BitVec 64) (e : Fin 256) (j : Fin 16) (s : State), (e.val ∈ s.seq.bad ∨ s.c3 = true ∨ (s.seq.find n e.val j.val).isSome = true ∨ s.enrolled = false ∨
      ∃ x f, (s.seq.tableOf n)[e.val]? = some x ∧ s.tb.frameNo n = some f ∧ tLater s.tb.now (s.windowEnd f x e.val j.val) = true) →
      s.launchable n e.val j.val = false)

/-- For an entry x of the frame's table in a frame of the grid, outside a Replay stall, with a supervisor not lost: past Bₙ + START + j·SPACING
+ WINDOW without a launch, START_MISS records the launch as missed; past the launch time plus MAX_RT, RUN_LONG records a running one, or one
DEADLINE_MISS has met, not done and not aborted, as aborted; past Bₙ + DEADLINE + j·SPACING, DEADLINE_MISS records a running or long one not
done; each limit is later by the stretch of the frame where R244 shifts the entry. The first event raised is of that kind, of the surviving
supervisor's island, instance e and DATA e + 65536·j; a golden entry raises GOLDEN_FAIL with DATA 4 instead. Time, poses and headgates stay.
A second miss of an entry in one frame changes nothing. Else each supervisor not lost takes the miss into its own copy, and the run is the
number of frames in a row with a miss of the entry, as the raising supervisor's copy has them, of which the frame is one (counted 254 back
and 255 on): TIMING_C2 or more raises TIMING_ESCALATE with the entry as instance and DATA, a shorter run nothing, and the entry's register
holds it up to 255. No other entry's register changes, and nothing but the Sequencer, the events and those copies. (R82, R418, R419, R421) -/
def Obligations.TimingMissesAreReportedAndEscalate : Prop :=
  (∀ (n : BitVec 64) (e : Fin 256) (j : Fin 16) (s : State) x f, s.stalled = false → (s.safety.sup[0].lost = false ∨ s.safety.sup[1].lost = false) → (s.seq.tableOf n)[e.val]? = some x → s.tb.frameNo n = some f → s.enrolled = true → s.c3 = false →
      j.val ≤ x.repeats.toNat → s.seq.find n e.val j.val = none →
      tLater s.tb.now (f.b + us (x.start.toNat + j.val * x.spacing.toNat) + us x.window.toNat + tick (s.shift f e.val)) = true →
      ∃ t es, exec (.startMiss n e j) s = .next t ∧ (t.seq.find n e.val j.val).map (·.outcome) = some .startMiss ∧ t.seq.table = s.seq.table ∧ t.seq.prev = s.seq.prev ∧ Only [.ev, .seq, .pau, .weir, .guard, .safety] s t ∧
        t.ev = s.ev.raiseAll ((if x.golden then evt .goldenFail s.supIsland e.val 4 else evt .startMiss s.supIsland e.val (e.val + j.val * 65536)) :: es))
  ∧ (∀ (n : BitVec 64) (e : Fin 256) (j : Fin 16) (s : State) x f l, s.stalled = false → (s.safety.sup[0].lost = false ∨ s.safety.sup[1].lost = false) → (s.seq.tableOf n)[e.val]? = some x → s.tb.frameNo n = some f →
      s.seq.find n e.val j.val = some l → (l.outcome = .running ∨ (l.outcome = .deadlineMiss ∧ l.doneAt = none ∧ l.aborted = false)) → tLater s.tb.now (l.at_ + us x.maxRt.toNat + tick (s.shift f e.val)) = true →
      ∃ t es, exec (.runLong n e j) s = .next t ∧ (t.seq.find n e.val j.val).map (·.outcome) = some .runLong ∧ t.seq.table = s.seq.table ∧ t.seq.prev = s.seq.prev ∧
        (t.seq.find n e.val j.val).map (·.aborted) = some true ∧ Only [.ev, .seq, .pau, .tes, .trk, .qsa, .mem, .weir, .guard, .safety] s t ∧
        t.ev = s.ev.raiseAll ((if x.golden then evt .goldenFail s.supIsland e.val 4 else evt .runLong s.supIsland e.val (e.val + j.val * 65536)) :: es))
  ∧ (∀ (n : BitVec 64) (e : Fin 256) (j : Fin 16) (s : State) x f l, s.stalled = false → (s.safety.sup[0].lost = false ∨ s.safety.sup[1].lost = false) → (s.seq.tableOf n)[e.val]? = some x → s.tb.frameNo n = some f →
      s.seq.find n e.val j.val = some l → (l.outcome = .running ∨ l.outcome = .runLong) → l.doneAt = none → tLater s.tb.now (f.b + us (x.deadline.toNat + j.val * x.spacing.toNat) + tick (s.shift f e.val)) = true →
      ∃ t es, exec (.deadlineMiss n e j) s = .next t ∧ (t.seq.find n e.val j.val).map (·.outcome) = some .deadlineMiss ∧ t.seq.table = s.seq.table ∧ t.seq.prev = s.seq.prev ∧
        Only [.ev, .seq, .pau, .weir, .guard, .safety] s t ∧
        t.ev = s.ev.raiseAll ((if x.golden then evt .goldenFail s.supIsland e.val 4 else evt .deadlineMiss s.supIsland e.val (e.val + j.val * 65536)) :: es))
  ∧ (∀ (n : BitVec 64) (e : Fin 256) (s : State), s.safety.sup[s.supNo].missedIn e n = true → s.miss n e = s)
  ∧ (∀ (n : BitVec 64) (e : Fin 256) (s : State), s.safety.sup[s.supNo].lost = false → s.safety.sup[s.supNo].missedIn e n = false → Only [.ev, .seq, .safety] s (s.miss n e) ∧
      (∀ k : Fin 2, (s.miss n e).safety.sup[k] = if s.safety.sup[k].lost then s.safety.sup[k] else s.safety.sup[k].takeMiss e n) ∧
      (∀ k : Fin 2, s.safety.sup[k].lost = false → (s.miss n e).safety.sup[k].missedIn e n = true) ∧
      (∀ k : Fin 256, k ≠ e → (s.miss n e).seq.regs[k] = s.seq.regs[k]) ∧
      ∀ a b : Nat, a ≤ 254 → b ≤ 255 → a ≤ n.toNat → (∀ k, 1 ≤ k → k ≤ a → (s.safety.sup[s.supNo].takeMiss e n).missedIn e (n - BitVec.ofNat 64 k) = true) →
        (n.toNat = a ∨ a = 254 ∨ (s.safety.sup[s.supNo].takeMiss e n).missedIn e (n - BitVec.ofNat 64 (a + 1)) = false) →
        (∀ k, 1 ≤ k → k ≤ b → (s.safety.sup[s.supNo].takeMiss e n).missedIn e (n + BitVec.ofNat 64 k) = true) →
        (b = 255 ∨ (s.safety.sup[s.supNo].takeMiss e n).missedIn e (n + BitVec.ofNat 64 (b + 1)) = false) →
        (s.miss n e).seq.regs[e].missRun.toNat = min 255 (a + 1 + b) ∧
        (s.miss n e).ev = if s.safety.cfg.timingC2 ≤ a + 1 + b then s.ev.raise (evt .timingEscalate s.supIsland e.val e.val) else s.ev)

/-- Outside a Replay stall, with a supervisor not lost. A running launch whose work is done, reported no later than its launch plus MAX_RT and
its deadline, becomes complete; one that RUN_LONG has met, or DEADLINE_MISS, and no RUN_LONG is due for it, keeps that outcome; its instant
is kept; either frees its unit and, where its run was shorter than MIN_RT, is marked short and raises RUN_SHORT (GOLDEN_FAIL on a golden
entry). One reported after MAX_RT is not complete and raises RUN_LONG (GOLDEN_FAIL on a golden entry) first. At Bₙ₊₁ plus CLOSE_DELAY,
FRAME_CLOSE closes the frame after the latest closed, signals the PAU's close pass with its number and the streams' states of the instant,
and the Tracker takes every stream's confidence, 0 for a masked one. Nothing else changes, but for a Grotto sample. (R82, R163, R245, R352) -/
def Obligations.CompletionAndFrameClose : Prop :=
  (∀ (n : BitVec 64) (e : Fin 256) (j : Fin 16) (s : State) x f l, s.stalled = false → (s.safety.sup[0].lost = false ∨ s.safety.sup[1].lost = false) → (s.seq.tableOf n)[e.val]? = some x → s.tb.frameNo n = some f →
      s.seq.find n e.val j.val = some l → (l.outcome = .running ∨ l.outcome = .runLong ∨ l.outcome = .deadlineMiss) →
      (l.outcome = .running ∨ (l.outcome = .deadlineMiss ∧ l.doneAt = none ∧ l.aborted = false) → tLater s.tb.now (l.at_ + us x.maxRt.toNat + tick (s.shift f e.val)) = false) →
      (l.outcome ≠ .deadlineMiss → tLater s.tb.now (f.b + us (x.deadline.toNat + j.val * x.spacing.toNat) + tick (s.shift f e.val)) = false) → (n, e.val, j.val) ∈ s.seq.finished →
      ∃ t k, exec (.taskCompletion n e j) s = .next t ∧ t.seq.find n e.val j.val = some k ∧ k.outcome = (if l.outcome = .running then .complete else l.outcome) ∧ k.at_ = l.at_ ∧ k.doneAt = some s.tb.now ∧
        (k.runShort = true ↔ x.minRt ≠ 0 ∧ tLater (l.at_ + us x.minRt.toNat) s.tb.now = true) ∧ (n, e.val, j.val) ∉ t.seq.finished ∧
        (∀ u : Fin 6, t.seq.busy[u] ≠ some (n, e.val, j.val) ∧ (s.seq.busy[u] ≠ some (n, e.val, j.val) → t.seq.busy[u] = s.seq.busy[u])) ∧ Only [.ev, .seq, .grt] s t ∧
        t.ev = (if k.runShort then s.ev.raise (if x.golden then evt .goldenFail s.supIsland e.val 4 else evt .runShort s.supIsland e.val (e.val + j.val * 65536)) else s.ev))
  ∧ (∀ (n : BitVec 64) (e : Fin 256) (j : Fin 16) (s : State) x f l, s.stalled = false → (s.safety.sup[0].lost = false ∨ s.safety.sup[1].lost = false) → (s.seq.tableOf n)[e.val]? = some x → s.tb.frameNo n = some f →
      s.seq.find n e.val j.val = some l → l.outcome = .running → tLater s.tb.now (l.at_ + us x.maxRt.toNat + tick (s.shift f e.val)) = true →
      ∃ t k es, exec (.taskCompletion n e j) s = .next t ∧ t.seq.find n e.val j.val = some k ∧ k.outcome ≠ .complete ∧
        t.ev = s.ev.raiseAll ((if x.golden then evt .goldenFail s.supIsland e.val 4 else evt .runLong s.supIsland e.val (e.val + j.val * 65536)) :: es))
  ∧ (∀ (s : State) f, s.stalled = false → s.enrolled = true → s.nextClose = some f → tReached s.tb.now (f.next + tick (s.pcu.closeTicks f.no)) = true → ∃ t, exec .frameClose s = .next t ∧
      t.seq = { s.seq with closed := some f.no } ∧ (∃ v, t.pau = { s.pau with closing := s.pau.closing ++ [f.no], closeSt := ((f.no, v) :: s.pau.closeSt).take 8 } ∧ ∀ h : Fin 64, v[h] = s.hgs[h].st) ∧ t.trk = { s.trk with closeConf := t.trk.closeConf } ∧
      (∀ h : Fin 64, t.trk.closeConf[h] = if s.hgs[h].st = .masked then 0 else s.hgs[h].conf) ∧ Only [.seq, .pau, .trk] s t)

/-- In Replay mode ISL_REPLAY_WR takes a value of whole words from its old value to RD plus the window's size, REPLAY_WINDOW_WRITE the bytes at
an offset inside the window; outside Replay mode both only count a dropped write. A header that lies whole between the headers read and
ISL_REPLAY_WR, with an unknown type or an earlier due time halts the reader with REPLAY_ORDER, another out of count with REPLAY_GAP (which
of the two: notes/assumptions/143.md); a good one moves the reader past its chunk. The first START chunk, in S3, loads device time from its
STAMP and the frame's number and boundary from its payload. A MAP chunk at its Gₖ puts its payload's map in force. A RECORD at its DELIVER
time is passed; no other headgate changes, and an SPI stream's inbox, its cluster enrolled, takes its payload with the chunk's STAMP; a
stall begins where the next increment would pass the smallest watermark, and ends where that exceeds device time. (R85, R86, R87, R88, R89, R90, R465, R519) -/
def Obligations.ReplayReadsAndDeliversInOrder : Prop :=
  (∀ v (s : State), s.isl.cfg.replay = true → v.toNat % 8 = 0 → (s.replay.wr - s.replay.rd).toNat ≤ (v - s.replay.rd).toNat → (v - s.replay.rd).toNat ≤ 4194304 →
      exec (.islReplayWrWrite v) s = .next { s with replay := { s.replay with wr := v } })
  ∧ (∀ o d (s : State), s.isl.cfg.replay = true → cellsWf s.replay.window = true → o + d.length ≤ 4194304 → ∃ t, exec (.replayWindowWrite o d) s = .next t ∧ Only [.replay] s t ∧
      t.replay = { s.replay with window := t.replay.window } ∧
      ∀ a, cellsGet t.replay.window a = if o ≤ a ∧ a < o + d.length then d.getD (a - o) 0 else cellsGet s.replay.window a)
  ∧ (∀ v o d (s : State), s.isl.cfg.replay = false → exec (.islReplayWrWrite v) s = .next { s with obp := { s.obp with bar0Drop := bump s.obp.bar0Drop } } ∧
      exec (.replayWindowWrite o d) s = .next { s with obp := { s.obp with writeDrop := bump s.obp.writeDrop } })
  ∧ (∀ s : State, s.isl.cfg.replay = true → s.replay.halted = false → (s.replay.head - s.replay.rd).toNat + 32 ≤ (s.replay.wr - s.replay.rd).toNat →
      let h := s.replay.bytes s.replay.head 32
      let bad : Prop := 5 ≤ fieldOf h 4 4 ∨ ∃ d, s.replay.lastDue = some d ∧ tLater d (if fieldOf h 4 4 = 0 then BitVec.ofNat 64 (fieldOf h 128 64) else BitVec.ofNat 64 (fieldOf h 64 64)) = true
      let gap : Prop := BitVec.ofNat 32 (fieldOf h 32 32) ≠ (if fieldOf h 4 4 = 3 then 0 else match s.replay.lastNo[streamIdx (fieldOf h 8 8)] with | some n => n + 1 | none => 0)
      ∃ t, exec .replayChunkHeaderRead s = .next t ∧ Only [.ev, .replay] s t ∧
        (bad → t.replay = { s.replay with halted := true } ∧ t.ev = s.ev.raise (evtOpen .replayOrder 138 0)) ∧
        (¬ bad → gap → t.replay = { s.replay with halted := true } ∧ t.ev = s.ev.raise (evtOpen .replayGap 138 0)) ∧
        (¬ bad → ¬ gap → t.ev = s.ev ∧ t.replay.halted = false ∧ t.replay.head = s.replay.head + BitVec.ofNat 32 (32 + (fieldOf h 16 16 + 7) / 8 * 8)))
  ∧ (∀ (s : State) c q, s.replay.queue = c :: q → c.type = 3 → s.isl.cfg.replay = true → s.replay.halted = false → 32 + c.length ≤ (s.replay.wr - s.replay.rd).toNat →
      s.replay.started = false → s.bcc.stage = 3 → ∃ t f, exec .replayStartChunk s = .next t ∧ t.tb.now = c.stamp ∧ t.tb.frac = 0 ∧ t.tb.frame = some f ∧
        f.no = BitVec.ofNat 64 (fieldOf (s.replay.bytes (BitVec.ofNat 32 (c.pos + 32)) 16) 0 64) ∧ f.b = BitVec.ofNat 64 (fieldOf (s.replay.bytes (BitVec.ofNat 32 (c.pos + 32)) 16) 64 64) ∧ f.next = f.b + BitVec.ofNat 64 s.tb.cfg.period ∧ t.replay.started = true ∧ Only [.replay, .tb, .pl, .seq] s t)
  ∧ (∀ (s : State) c q, s.replay.queue = c :: q → c.type = 2 → s.replay.started = true → s.replay.halted = false → tReached s.tb.now c.stamp = true →
      32 + c.length ≤ (s.replay.wr - s.replay.rd).toNat → ∃ t, exec .replayMapChunk s = .next t ∧ t.replay.mapped = true ∧ t.tb.mapNext = none ∧
        t.tb.map = TimeMap.ofBytes (s.replay.bytes (BitVec.ofNat 32 (c.pos + 32)) 16) ∧ t.tb.now = s.tb.now ∧ Only [.replay, .tb, .ev] s t)
  ∧ (∀ (s : State) c q, s.replay.queue = c :: q → c.type = 0 → s.replay.started = true → s.replay.halted = false → tReached s.tb.now c.deliver = true →
      32 + c.length ≤ (s.replay.wr - s.replay.rd).toNat → ∃ t, exec .replayRecordDeliver s = .next t ∧ t.replay = s.replay.pop ∧ Only [.replay, .ports, .hgs, .capture] s t ∧
        (∀ h : Fin 64, h.val ≠ c.stream → t.hgs[h] = s.hgs[h]) ∧ (∀ (hc : c.stream < 64) k, s.hgs[c.stream].cfg = some k → 16 ≤ k.port → k.port < 20 → s.clusterUp ⟨c.stream, hc⟩ = true →
          t.hgs[c.stream] = { s.hgs[c.stream] with inbox := s.hgs[c.stream].inbox ++ [.sample c.stamp (s.replay.bytes (BitVec.ofNat 32 (c.pos + 32)) c.length)] }))
  ∧ (∀ (s : State) w, s.replay.bound s.enabledStreams = some w → s.isl.cfg.replay = true → s.replay.started = true → s.replay.halted = false → (w - s.tb.now).toInt < 32 →
      exec .replayStall s = .next { s with replay := { s.replay with stalled := true } })
  ∧ (∀ (s : State) w, s.replay.bound s.enabledStreams = some w → s.replay.stalled = true → 0 < (w - s.tb.now).toInt →
      exec .replayStallEnd s = .next { s with replay := { s.replay with stalled := false } })

/-- CAPTURE_START, in S3 with a ring and trained memory, at the frame boundary that has just opened, makes capture active and begins the chunk
counts of every stream anew with a START and a MAP chunk. CAPTURE_WATERMARK of an enabled stream, 1 ms after the one before, writes the
items that wait, then its chunk, and moves that stream's mark by 1 ms. An item that reaches a captured stream's enrolled headgate waits with
its stamp and the device time; CAPTURE_RECORD_WRITE writes the oldest item that waits, where it is of its stream, as a RECORD chunk with
them, and changes nothing where it is of another. A chunk that fits adds its length (32 bytes and the payload in whole 8 bytes) and one to
its stream's CHUNK_NO; one that does not ends the capture with CAPTURE_LOSS and writes nothing. Every LPDDR5X byte outside the ring's
CAPTURE_SIZE bytes, where no word is poisoned, the Cistern and the local buffers stay. (R92, R474) -/
def Obligations.CaptureWritesItsRingAlone : Prop :=
  (∀ s : State, s.stalled = false → s.captureReady = true → s.capture.startAt = some s.tb.now → ∃ t, exec .captureStart s = .next t ∧ Only [.ev, .capture, .mem] s t ∧
      (s.capture.written + 96 ≤ s.isl.cfg.captureSize → t.capture.active = true ∧ t.capture.full = false ∧ t.capture.written = s.capture.written + 96 ∧ t.ev = s.ev ∧
        ∀ k : Fin 65, t.capture.nextNo[k] = if k.val = 64 then 2 else 0))
  ∧ (∀ (h : Fin 64) (s : State), s.stalled = false → s.capture.active = true → s.enabledStreams.getLsbD h.val = true → elapsed s.tb.now s.capture.lastMark[h] 8000000 = true → ∃ t,
      exec (.captureWatermark h) s = .next t ∧ t.capture.lastMark = s.capture.lastMark.set h (s.capture.lastMark[h] + 8000000) ∧ Only [.ev, .capture, .mem] s t ∧
      t = (({ s with capture := { s.capture with lastMark := t.capture.lastMark } } : State).flushItems).putChunk 1 h.val s.tb.now 0 [] ∧
      (s.capture.items = [] → s.captureUsed + 32 ≤ s.isl.cfg.captureSize → t.capture.written = s.capture.written + 32))
  ∧ (∀ s : State, (s.capture.items = [] → s.flushItems = s) ∧ ∀ x rest, s.capture.items = x :: rest →
      s.flushItems = rest.foldl (fun (u : State) y => u.writeItem y (u.capture.items.drop 1)) (s.writeItem x rest))
  ∧ (∀ (h : Fin 64) it st (pl : Bytes) (s : State), s.clusterUp h = true → s.capture.active = true → s.isl.cfg.captureMask.getLsbD h.val = true → s.enabledStreams.getLsbD h.val = true →
      pl.length ≤ 65535 → (s.present h it st pl).capture = { s.capture with items := s.capture.items ++ [⟨h, st, s.tb.now, pl⟩] })
  ∧ (∀ (h : Fin 64) (s : State) x rest, s.stalled = false → s.capture.active = true → s.capture.items = x :: rest → x.stream = h → ∃ t,
      exec (.captureRecordWrite h) s = .next t ∧ t = ({ s with capture := { s.capture with items := rest } } : State).putChunk 0 h.val x.stamp x.deliver x.bytes ∧
      Only [.ev, .capture, .mem] s t)
  ∧ (∀ (h : Fin 64) (s : State) x rest, s.capture.items = x :: rest → x.stream ≠ h → exec (.captureRecordWrite h) s = .next s)
  ∧ (∀ ty st a b pl (s : State), s.capture.active = true →
      (s.captureUsed + 32 + (pl.length + 7) / 8 * 8 ≤ s.isl.cfg.captureSize → (s.putChunk ty st a b pl).ev = s.ev ∧ (s.putChunk ty st a b pl).capture = { s.capture with
        written := s.capture.written + 32 + (pl.length + 7) / 8 * 8, nextNo := s.capture.nextNo.set (streamIdx st) (s.capture.nextNo[streamIdx st] + 1) }) ∧
      (s.isl.cfg.captureSize < s.captureUsed + 32 + (pl.length + 7) / 8 * 8 → (s.putChunk ty st a b pl).mem = s.mem ∧
        (s.putChunk ty st a b pl).ev = s.ev.raise (evtOpen .captureLoss 138 0) ∧ (s.putChunk ty st a b pl).capture.active = false))
  ∧ (∀ ty st a b pl (s : State), s.mem.dramBad = [] → 0 < s.isl.cfg.captureSize → (s.putChunk ty st a b pl).mem.cistern = s.mem.cistern ∧
      (s.putChunk ty st a b pl).mem.local_ = s.mem.local_ ∧ ∀ x, (x < s.mem.cfg.captureBase ∨ s.mem.cfg.captureBase + s.isl.cfg.captureSize ≤ x) →
        (s.putChunk ty st a b pl).mem.get .dram x = s.mem.get .dram x)

/-- While its port island carries data outside Replay mode, to a headgate whose cluster is enrolled: a CSI-2 frame start with a readable header
goes to the bound headgate with its stamp; a header that cannot be corrected only counts. An Ethernet frame with a wrong FCS, or longer than
9,216 bytes, only counts; a UDP datagram that a matcher claims goes on with the pin stamp less ASYM_IN and its checksum mark; P6 and P7 hand
nothing on to a headgate. A passed SPI INIT ends it; a failed one raises IMU_INIT_FAIL first. A data-ready edge starts a burst, or is held
pending during a burst and its chip-select gap; a burst hands on the sample with its edge's stamp; a poll's stamp is its due time. A CAN
frame that a filter claims goes on, and none is taken in bus-off. Other ports and headgates stay. (R117, R118, R123, R124, R125, R126, R128, R136, R137, R138, R143, R144) -/
def Obligations.SensorPortsHandItemsOn : Prop :=
  (∀ (p : Fin 8) k (s : State) c d h, s.portUp ⟨p.val, by omega⟩ = true → s.ports.csi[p].cfg = some c → (k.head c).2 = some d → d.dt = 0 →
      Headgates.bound s.hgs p.val d.vc.val = some h → s.clusterUp h = true → ∃ t, exec (.csi2PacketReceived p k) s = .next t ∧ Only [.ports, .hgs, .capture] s t ∧
      t.hgs = s.hgs.set h { s.hgs[h] with inbox := s.hgs[h].inbox ++ [.csi (c.packetStamp k) (.frameStart d.wc) false] })
  ∧ (∀ (p : Fin 8) k (s : State) c, s.portUp ⟨p.val, by omega⟩ = true → s.ports.csi[p].cfg = some c → (k.head c).2 = none → exec (.csi2PacketReceived p k) s = .next { s with
      ports := { s.ports with csi := s.ports.csi.set p { s.ports.csi[p] with eccFail := bump s.ports.csi[p].eccFail } } })
  ∧ (∀ (p : Fin 8) bs st (s : State) c, s.portUp ⟨8 + p.val, by omega⟩ = true → p.val < 6 → s.ports.eth[p].cfg = some c → ∃ t, exec (.ethernetFrameReceived p bs st) s = .next t ∧
      Only [.ports, .hgs, .capture, .tb] s t ∧ t.tb = { s.tb with ptpReq := t.tb.ptpReq } ∧ (∀ q : Fin 8, q ≠ p → t.ports.eth[q] = s.ports.eth[q]) ∧
      (9216 < bs.length → t.hgs = s.hgs ∧ t.ports.eth[p] = { s.ports.eth[p] with oversize := bump s.ports.eth[p].oversize }) ∧
      (bs.length ≤ 9216 → fcsOk bs = false → t.hgs = s.hgs ∧ t.ports.eth[p] = { s.ports.eth[p] with fcsErr := bump s.ports.eth[p].fcsErr }) ∧
      (t.hgs ≠ s.hgs → ∃ (h : Fin 64) (pl : Bytes) (bad : Bool), t.hgs = s.hgs.set h { s.hgs[h] with inbox := s.hgs[h].inbox ++ [.frame (st - BitVec.ofInt 64 s.tb.cfg.asymIn[p]) pl bad] }))
  ∧ (∀ (p : Fin 8) bs st (s : State) c vl ty rest sa sp dp pl bad m h, s.portUp ⟨8 + p.val, by omega⟩ = true → p.val < 6 → s.ports.eth[p].cfg = some c → bs.length ≤ 9216 →
      fcsOk bs = true → etherSplit (bs.take (bs.length - 4)) = (vl, ty, rest) → ty ≠ 0x8808 → ty ≠ 0x88F7 → netOf ty rest = .udp sa sp dp pl bad → dp ≠ 319 → dp ≠ 320 →
      (List.range c.matchers.length).find? (fun i => match c.matchers[i]? with | some x => x.claims vl ty (slice bs 6 6) (.udp sa sp dp pl bad) | none => false) = some m →
      Headgates.bound s.hgs (8 + p.val) m = some h → s.clusterUp h = true → ∃ t, exec (.ethernetFrameReceived p bs st) s = .next t ∧
      t.hgs = s.hgs.set h { s.hgs[h] with inbox := s.hgs[h].inbox ++ [.frame (st - BitVec.ofInt 64 s.tb.cfg.asymIn[p]) pl bad] })
  ∧ (∀ (p : Fin 8) bs st (s : State), s.portUp ⟨8 + p.val, by omega⟩ = true → 6 ≤ p.val → ∃ t, exec (.ethernetFrameReceived p bs st) s = .next t ∧ Only [.ports, .out] s t ∧
      (∀ q : Fin 8, q ≠ p → t.ports.eth[q] = s.ports.eth[q]))
  ∧ (∀ (k : Fin 4) rs (s : State), s.portUp ⟨16 + k.val, by omega⟩ = true → s.ports.spi[k].initDue = true → s.ports.spi[k].cfg.isSome = true → ∃ t es, exec (.spiInit k rs) s = .next t ∧
      Only [.ports, .hgs, .ev] s t ∧ t.ports.spi[k].initDue = false ∧ t.ports.spi[k].initFailed = !t.ports.spi[k].initOk ∧
      (t.ports.spi[k].initOk = true → t.hgs = s.hgs ∧ t.ev = s.ev) ∧ (t.ports.spi[k].initFailed = true → t.ev = s.ev.raiseAll (evtOpen .imuInitFail (16 + k.val) k.val :: es)))
  ∧ (∀ (k : Fin 4) st (s : State) c, s.portUp ⟨16 + k.val, by omega⟩ = true → s.ports.spi[k].cfg = some c → c.poll = false → s.ports.spi[k].initDue = false →
      s.ports.spi[k].initFailed = false → ∃ t, exec (.spiDrdyEdge k st) s = .next t ∧ Only [.ports] s t ∧
      (s.ports.spi[k].running = none → s.ports.spi[k].waiting = none → t.ports.spi[k].running = some st ∧ t.ports.spi[k].waiting = none) ∧
      ((s.ports.spi[k].running.isSome = true ∨ (s.ports.spi[k].waiting.isSome = true ∧ tReached st s.ports.spi[k].gapEnd = false)) →
        t.ports.spi[k].running = s.ports.spi[k].running ∧ t.ports.spi[k].waiting = some st ∧ t.ports.spi[k].drdyOverrun = bumpIf s.ports.spi[k].waiting.isSome s.ports.spi[k].drdyOverrun))
  ∧ (∀ (k : Fin 4) bs (s : State) st, s.portUp ⟨16 + k.val, by omega⟩ = true → s.ports.spi[k].cfg.isSome = true → s.ports.spi[k].running = some st → ∃ t,
      exec (.spiBurstComplete k bs) s = .next t ∧ Only [.ports, .hgs, .capture] s t ∧ t.ports.spi[k].running = none ∧ t.ports.spi[k].waiting = s.ports.spi[k].waiting ∧
      (∀ h, Headgates.bound s.hgs (16 + k.val) 0 = some h → s.clusterUp h = true → t.hgs = s.hgs.set h { s.hgs[h] with inbox := s.hgs[h].inbox ++ [.sample st bs] }))
  ∧ (∀ (k : Fin 4) (s : State) c, s.portUp ⟨16 + k.val, by omega⟩ = true → s.ports.spi[k].cfg = some c → c.poll = true → s.ports.spi[k].initDue = false →
      s.ports.spi[k].initFailed = false → tReached s.tb.now (c.pollAfter k s.ports.spi[k].polled) = true → ∃ t, exec (.spiPoll k) s = .next t ∧ Only [.ports] s t ∧
      t.ports.spi[k].polled = c.pollAfter k s.ports.spi[k].polled ∧ (s.ports.spi[k].running = none → t.ports.spi[k].running = some (c.pollAfter k s.ports.spi[k].polled)))
  ∧ (∀ (c : Fin 4) k st (s : State) g f h, s.portUp ⟨28 + c.val, by omega⟩ = true → s.ports.can[c].cfg = some g → s.ports.can[c].st ≠ .busOff → k.remote = false →
      (List.range g.filters.length).find? (fun i => match g.filters[i]? with | some x => x.claims k | none => false) = some f → Headgates.bound s.hgs (28 + c.val) f = some h →
      s.clusterUp h = true → ∃ t, exec (.canFrameReceived c k st) s = .next t ∧ Only [.ports, .hgs, .capture] s t ∧ t.hgs = s.hgs.set h { s.hgs[h] with inbox := s.hgs[h].inbox ++ [.can st k.data] })
  ∧ (∀ (c : Fin 4) k st (s : State), s.ports.can[c].st = .busOff → ∃ t, exec (.canFrameReceived c k st) s = .next t ∧ t.hgs = s.hgs)
  ∧ (∀ (c : Fin 4) tec rec_ (s : State), s.portUp ⟨28 + c.val, by omega⟩ = true → s.ports.can[c].cfg.isSome = true → ∃ t, exec (.canErrorFrame c tec rec_) s = .next t ∧ Only [.ports] s t ∧
      t.ports.can[c].errorFrames = bump s.ports.can[c].errorFrames ∧ t.ports.can[c].tec = tec ∧ t.ports.can[c].rec_ = rec_)

/-- On an enrolled port outside Replay mode. ENCODER_EDGE less than MIN_PULSE after the latest pending edge of its line takes that edge back
with itself, and the edge that comes next is marked GLITCH; any other joins the pending ones. ENCODER_CODE_ISSUE, MIN_PULSE after the oldest
pending edge and not before, issues its code to the bound, enrolled headgate; the count moves by the step of R139 (±1 in QUAD by the other
line's level, +1 or −1 at a rising A in STEP_DIR, 0 for Z, the sign reversed by INVERT), by 0 for an illegal pair in QUAD; a rising Z whose
count difference is not ±COUNTS_PER_REV within INDEX_TOL raises ENC_INDEX with it. SCRIPT_STEP: a WRITE acknowledged, a READ_CHECK that
matches and a DELAY that has passed go on; a NACK, a stretch timeout (which also begins a recovery) or a mismatch repeats the step, three
times at most, then SCRIPT_FAIL ends the script and masks its dependents. BUS_RECOVERY, begun by 20 µs of SCL high and SDA low, not less, or
while RECOVERING, sends pulses until SDA reads high, 16 at most: IDLE where it does, else STUCK with BUS_STUCK and the attempt, and after
eight retries BUS_STUCK, then BUS_DEAD, a SCRIPT_FAIL for every script left, their dependents masked. BUS_STUCK_RETRY acts one second after
STUCK, not before, eight times. IN_BAND_INTERRUPT is counted on an I3C bus and does nothing on an I²C bus. (R139, R140, R141, R145, R146, R147, R148) -/
def Obligations.EncodersAndConfigurationBuses : Prop :=
  (∀ (e : Fin 8) ln lv st (s : State) c, s.portUp ⟨20 + e.val, by omega⟩ = true → s.ports.enc[e].cfg = some c →
      (∀ l x r, s.ports.enc[e].pend = l ++ x :: r → x.line = ln → (∀ y ∈ r, y.line ≠ ln) → ((c.minPulse * 8 : Nat) : Int) ≤ tDiff st x.stamp) →
      exec (.encoderEdge e ln lv st) s = .next { s with ports := { s.ports with
        enc := s.ports.enc.set e { s.ports.enc[e] with pend := s.ports.enc[e].pend ++ [⟨ln, lv, st, s.ports.enc[e].glitched, false⟩], glitched := false } } })
  ∧ (∀ (e : Fin 8) ln lv st (s : State) c l x r, s.portUp ⟨20 + e.val, by omega⟩ = true → s.ports.enc[e].cfg = some c → s.ports.enc[e].pend = l ++ x :: r → x.line = ln →
      (∀ y ∈ r, y.line ≠ ln) → tDiff st x.stamp < ((c.minPulse * 8 : Nat) : Int) → exec (.encoderEdge e ln lv st) s = .next { s with ports := { s.ports with
        enc := s.ports.enc.set e { s.ports.enc[e] with
          glitch := bump s.ports.enc[e].glitch, glitched := s.ports.enc[e].glitched || r.isEmpty
          pend := l ++ match r with | y :: q => { y with glitch := true } :: q | [] => [] } } })
  ∧ (∀ (c : EncCfg) a b ln lv, c.invert = false → c.step a b 2 lv = 0 ∧ ({ c with invert := true } : EncCfg).step a b ln lv = -(c.step a b ln lv) ∧
      (c.stepDir = true → c.step a b 0 true = (if b then -1 else 1) ∧ (ln ≠ 0 ∨ lv = false → c.step a b ln lv = 0)) ∧
      (c.stepDir = false → c.step a b 0 true = (if b then -1 else 1) ∧ c.step a b 0 false = (if b then 1 else -1) ∧
        c.step a b 1 true = (if a then 1 else -1) ∧ c.step a b 1 false = (if a then -1 else 1)))
  ∧ (∀ (p : EncPort) c x r, p.cfg = some c → p.pend = x :: r → ∃ k q, p.next = some (k, q) ∧
      (k.illegal = true ↔ c.stepDir = false ∧ (x.illegal = true ∨ ∃ y ∈ r, x.pairs y = true)) ∧
      k.count = p.count + BitVec.ofInt 24 (if k.illegal then 0 else c.step p.a p.b x.line x.level) ∧ q.count = k.count ∧
      k.stamp = x.stamp ∧ k.line = x.line ∧ k.level = x.level ∧ k.glitch = x.glitch ∧ (k.fell = true ↔ k.illegal = false ∧ c.step p.a p.b x.line x.level < 0) ∧
      q.pend = (r.map fun y => if k.illegal && x.pairs y then { y with illegal := true } else y) ∧
      (x.line = 0 → q.a = x.level ∧ q.b = p.b) ∧ (x.line = 1 → q.b = x.level ∧ q.a = p.a) ∧ q.encIllegal = bumpIf (k.illegal && !x.illegal) p.encIllegal)
  ∧ (∀ (e : Fin 8) (s : State) c k q, s.portUp ⟨20 + e.val, by omega⟩ = true → s.ports.enc[e].cfg = some c → s.ports.enc[e].next = some (k, q) →
      elapsed s.tb.now k.stamp (c.minPulse * 8) = true → ∃ t, exec (.encoderCodeIssue e) s = .next t ∧ Only [.ports, .hgs, .ev, .capture] s t ∧ t.ports.enc[e].pend = q.pend ∧
      t.ports.enc[e].count = k.count ∧ t.ports.enc[e].edges = bump s.ports.enc[e].edges ∧ (∀ j : Fin 8, j ≠ e → t.ports.enc[j] = s.ports.enc[j]) ∧
      (∀ h, Headgates.bound s.hgs (20 + e.val) 0 = some h → s.clusterUp h = true → t.hgs = s.hgs.set h { s.hgs[h] with inbox := s.hgs[h].inbox ++ [.edge k] }) ∧
      (k.line = 2 ∧ k.level = true → t.ports.enc[e].zCount = some k.count ∧ (s.ports.enc[e].zCount = none ∨ c.countsPerRev = 0 → t.ev = s.ev) ∧
        ∀ z, s.ports.enc[e].zCount = some z → c.countsPerRev ≠ 0 → t.ev = if c.indexTol < ((((k.count - z).toInt.natAbs : Int) - c.countsPerRev).natAbs) then
          s.ev.raise (evt .encIndex (20 + e.val) e.val (codeInt 32 (k.count - z).toInt)) else s.ev) ∧
      (¬ (k.line = 2 ∧ k.level = true) → t.ports.enc[e].zCount = q.zCount ∧ q.zCount = s.ports.enc[e].zCount ∧ t.ev = s.ev))
  ∧ (∀ (e : Fin 8) (s : State) c k q, s.ports.enc[e].cfg = some c → s.ports.enc[e].next = some (k, q) → elapsed s.tb.now k.stamp (c.minPulse * 8) = false →
      exec (.encoderCodeIssue e) s = .next s)
  ∧ (∀ (m : Fin 2) r (s : State) x, s.portUp ⟨32 + m.val, by omega⟩ = true → s.ports.bus[m].st = .idle → s.ports.bus[m].current = some x →
      ((∃ a w, x.2 = .write a w ∧ r = .ok) ∨ (∃ a g v k d, x.2 = .readCheck a g v k ∧ r = .read d ∧ List.zipWith (· &&& ·) d k = List.zipWith (· &&& ·) v k) ∨
        (∃ d, x.2 = .delay d ∧ elapsed s.tb.now s.ports.bus[m].stepAt (d * 8000) = true)) →
      exec (.scriptStep m r) s = .next { s with ports := { s.ports with bus := s.ports.bus.set m (s.ports.bus[m].advance s.tb.now) } })
  ∧ (∀ (p : BusPort) now sc rest, p.scripts = sc :: rest → p.advance now = if p.step + 1 < sc.steps.length then { p with step := p.step + 1, tries := 0, stepAt := now }
      else { p with scripts := rest, step := 0, tries := 0, stepAt := now })
  ∧ (∀ (m : Fin 2) r d (s : State) sc, s.ports.bus[m].current = some (sc, .delay d) → elapsed s.tb.now s.ports.bus[m].stepAt (d * 8000) = false → exec (.scriptStep m r) s = .next s)
  ∧ (∀ (m : Fin 2) r (s : State) x, s.portUp ⟨32 + m.val, by omega⟩ = true → s.ports.bus[m].st = .idle → s.ports.bus[m].current = some x → (∀ n, x.2 ≠ .delay n) →
      (r = .nack ∨ r = .stretchTimeout ∨ ∃ a g v k d, x.2 = .readCheck a g v k ∧ r = .read d ∧ List.zipWith (· &&& ·) d k ≠ List.zipWith (· &&& ·) v k) →
      ∃ t es, exec (.scriptStep m r) s = .next t ∧ Only [.ports, .hgs, .ev] s t ∧ t.ports.bus[m].nacks = bumpIf (r == .nack) s.ports.bus[m].nacks ∧
        t.ports.bus[m].st = (if r = .stretchTimeout then .recovering else .idle) ∧
        (s.ports.bus[m].tries < 3 → t.ports.bus[m].tries = s.ports.bus[m].tries + 1 ∧ t.ports.bus[m].step = s.ports.bus[m].step ∧ t.ports.bus[m].scripts = s.ports.bus[m].scripts ∧
          t.hgs = s.hgs ∧ t.ev = s.ev) ∧
        (3 ≤ s.ports.bus[m].tries → t.ports.bus[m].tries = 0 ∧ t.ports.bus[m].step = 0 ∧ t.ports.bus[m].scripts = s.ports.bus[m].scripts.tail ∧ t.ports.bus[m].scriptFail = true ∧
          t.ev = s.ev.raiseAll (evtOpen .scriptFail (32 + m.val) m.val :: es) ∧ (∀ h ∈ x.1.dependents, s.hgs[h].st ≠ .off → t.hgs[h].st = .masked)))
  ∧ (∀ (m : Fin 2) low (sda : Vector Bool 16) (s : State), s.portUp ⟨32 + m.val, by omega⟩ = true →
      (s.ports.bus[m].st = .recovering ∨ (s.ports.bus[m].st = .idle ∧ 20000 ≤ low)) → (∀ i : Fin 16, sda[i] = false) → ∃ t es,
      exec (.busRecovery m low sda) s = .next t ∧ Only [.ports, .hgs, .ev] s t ∧ t.ports.bus[m].pulses = 16 ∧ t.ports.bus[m].stuckAt = s.tb.now ∧
      (s.ports.bus[m].st = .idle → t.ports.bus[m].st = .stuck ∧ t.ports.bus[m].retries = 0 ∧ t.hgs = s.hgs ∧ t.ev = s.ev.raise (evt .busStuck (32 + m.val) m.val 1)) ∧
      (s.ports.bus[m].st = .recovering → s.ports.bus[m].retries < 8 → t.ports.bus[m].st = .stuck ∧ t.hgs = s.hgs ∧
        t.ev = s.ev.raise (evt .busStuck (32 + m.val) m.val (s.ports.bus[m].retries + 1))) ∧
      (s.ports.bus[m].st = .recovering → 8 ≤ s.ports.bus[m].retries → t.ports.bus[m].st = .dead ∧ t.ports.bus[m].scripts = [] ∧
        t.ev = s.ev.raiseAll (evt .busStuck (32 + m.val) m.val (s.ports.bus[m].retries + 1) :: evtOpen .busDead (32 + m.val) m.val ::
          ((s.ports.bus[m].scripts.map fun _ => evtOpen .scriptFail (32 + m.val) m.val) ++ es)) ∧
        ∀ sc ∈ s.ports.bus[m].scripts, ∀ h ∈ sc.dependents, s.hgs[h].st ≠ .off → t.hgs[h].st = .masked))
  ∧ (∀ (m : Fin 2) low sda (s : State), s.ports.bus[m].st = .idle → low < 20000 → exec (.busRecovery m low sda) s = .next s)
  ∧ (∀ (m : Fin 2) low (sda : Vector Bool 16) (i : Fin 16) (s : State), s.portUp ⟨32 + m.val, by omega⟩ = true →
      (s.ports.bus[m].st = .recovering ∨ (s.ports.bus[m].st = .idle ∧ 20000 ≤ low)) → sda[i] = true → (∀ k : Fin 16, k < i → sda[k] = false) →
      exec (.busRecovery m low sda) s = .next { s with ports := { s.ports with bus := s.ports.bus.set m { s.ports.bus[m] with
        recoveries := bump s.ports.bus[m].recoveries, pulses := i.val + 1, st := .idle, retries := 0 } } })
  ∧ (∀ (m : Fin 2) (s : State), s.portUp ⟨32 + m.val, by omega⟩ = true → s.ports.bus[m].st = .stuck → s.ports.bus[m].retries < 8 → elapsed s.tb.now s.ports.bus[m].stuckAt 8000000000 = true →
      exec (.busStuckRetry m) s = .next { s with ports := { s.ports with bus := s.ports.bus.set m { s.ports.bus[m] with st := .recovering, retries := s.ports.bus[m].retries + 1 } } })
  ∧ (∀ (m : Fin 2) (s : State), (s.ports.bus[m].st ≠ .stuck ∨ 8 ≤ s.ports.bus[m].retries ∨ elapsed s.tb.now s.ports.bus[m].stuckAt 8000000000 = false) →
      exec (.busStuckRetry m) s = .next s)
  ∧ (∀ (m : Fin 2) (s : State) c, s.portUp ⟨32 + m.val, by omega⟩ = true → s.ports.bus[m].cfg = some c → exec (.inBandInterrupt m) s =
      .next (if c.i3c then { s with ports := { s.ports with bus := s.ports.bus.set m { s.ports.bus[m] with ibiNack := bump s.ports.bus[m].ibiNack } } } else s))

/-- For a headgate in force, outside a Replay stall, HEADGATE_ITEM takes exactly its oldest item. One with a bad port mark counts CHECK_FAIL, is
not accepted, makes the failure run one longer (no further than 255) and lowers the confidence; where that run is FAIL_MASK and the stream
is not masked for CHECK, the stream is masked and STREAM_MASKED queued. Whatever the item, at most one more is accepted; one that is keeps
its pin stamp as the latest, raises the item count by one and, unless it ends a mask, makes its counter the stream's references. An edge
code within the stamp window, in ACTIVE with no counter, is accepted: its record waits for the flume with TOV its stamp less LATENCY, the
confidence rises by CONF_RISE to at most 255, and the failure run ends. No other headgate changes, and nothing but a Grotto sample and
events besides. (R156, R157, R160, R166, R167, R168) -/
def Obligations.ItemsAreCheckedInOrder : Prop :=
  (∀ (h : Fin 64) (s : State) c it r, s.stalled = false → s.hgs[h].cfg = some c → s.hgs[h].inbox = it :: r → s.hgs[h].st ≠ .off → ∃ t, exec (.headgateItem h) s = .next t ∧ Only [.ev, .hgs, .grt] s t ∧
      t.hgs[h].inbox = r ∧ (∀ k : Fin 64, k ≠ h → t.hgs[k] = s.hgs[k]) ∧ t.hgs[h].flume = s.hgs[h].flume ∧ t.hgs[h].occ = s.hgs[h].occ ∧
      (t.hgs[h].itemNo = s.hgs[h].itemNo ∨ (t.hgs[h].itemNo = s.hgs[h].itemNo + 1 ∧ t.hgs[h].accepted = bump s.hgs[h].accepted ∧ t.hgs[h].lastStamp = some it.stamp)) ∧
      (t.hgs[h].itemNo ≠ s.hgs[h].itemNo → t.hgs[h].st ≠ .resync → ∀ v, counterOf c s.hgs[h].templ it = some v →
        t.hgs[h].accEpoch = some (v / 2 ^ (c.ctrBits - c.epochBits)) ∧ t.hgs[h].seqRef = some (v % 2 ^ (c.ctrBits - c.epochBits))) ∧
      (it.crcBad = true → t.hgs[h].checkFail = bump s.hgs[h].checkFail ∧ t.hgs[h].itemNo = s.hgs[h].itemNo ∧ t.hgs[h].accepted = s.hgs[h].accepted ∧
        t.hgs[h].failRun.toNat = min 255 (s.hgs[h].failRun.toNat + 1) ∧ t.hgs[h].conf.toNat ≤ s.hgs[h].conf.toNat ∧
        (min 255 (s.hgs[h].failRun.toNat + 1) = c.failMask → reasonCheck ∉ s.hgs[h].reasons →
          t.hgs[h].st = .masked ∧ reasonCheck ∈ t.hgs[h].reasons ∧ t.hgs[h].conf = 0 ∧ t.ev = s.ev.raise (evtOpen .streamMasked (34 + h.val / 8) h.val))))
  ∧ (∀ (h : Fin 64) (s : State) c k r, s.stalled = false → s.hgs[h].cfg = some c → s.hgs[h].inbox = .edge k :: r → s.hgs[h].st = .active → c.kind = .edge → c.ctrBits = 0 →
      timeOk c k.stamp (k.stamp - BitVec.ofInt 64 c.latency) = true → ∃ t x, exec (.headgateItem h) s = .next t ∧ t.hgs[h].inbox = r ∧ t.hgs[h].accepted = bump s.hgs[h].accepted ∧
      t.hgs[h].itemNo = s.hgs[h].itemNo + 1 ∧ t.hgs[h].conf.toNat = min 255 (s.hgs[h].conf.toNat + c.confRise) ∧ t.hgs[h].failRun = 0 ∧ t.hgs[h].st = .active ∧
      t.hgs[h].out = s.hgs[h].out ++ [.data x, .itemEnd true] ∧ x.body = .edge k ∧ x.tov = k.stamp - BitVec.ofInt 64 c.latency ∧ x.conf = t.hgs[h].conf ∧ x.itemNo = t.hgs[h].itemNo ∧
      t.ev = s.ev)

/-- Outside a Replay stall. In ACTIVE or PROBATION with an open unit, PKT_GAP after the latest item with none waiting or arriving from before,
the stream is in GAP with its unit closed. In ACTIVE, PROBATION or GAP, TIMEOUT after it with none so, the stream is TIMED_OUT with
confidence 0, references dropped and STREAM_TIMEOUT queued. A stream that still waits TIMEOUT after its installation, with no item from
before, raises STREAM_ABSENT once and stays WAITING. The release of the last reason of a mask moves the stream to RESYNC; of another reason,
it stays masked. Only that headgate and the events change. (R165, R166, R168) -/
def Obligations.StreamStatesFollowTheirTimers : Prop :=
  (∀ (h : Fin 64) (s : State) c a, s.stalled = false → s.hgs[h].cfg = some c → s.hgs[h].lastStamp = some a → (s.hgs[h].st = .active ∨ s.hgs[h].st = .probation) → c.kind ≠ .scalar → c.kind ≠ .edge →
      s.hgs[h].unitOpen = true → elapsed s.tb.now a (c.pktGap * 8000) = true → s.hgs[h].held (s.comingTo h) (a + us c.pktGap) = false → ∃ t, exec (.pktGapExpiry h) s = .next t ∧ Only [.hgs] s t ∧
      t.hgs[h].st = .gap ∧ t.hgs[h].before = s.hgs[h].st ∧ t.hgs[h].unitOpen = false ∧ (∀ k : Fin 64, k ≠ h → t.hgs[k] = s.hgs[k]))
  ∧ (∀ (h : Fin 64) (s : State) c a, s.stalled = false → s.hgs[h].cfg = some c → s.hgs[h].lastStamp = some a → (s.hgs[h].st = .active ∨ s.hgs[h].st = .probation ∨ s.hgs[h].st = .gap) → c.timeout ≠ 0 →
      elapsed s.tb.now a (c.timeout * 8000000) = true → s.hgs[h].held (s.comingTo h) (a + ms c.timeout) = false → ∃ t, exec (.streamTimeout h) s = .next t ∧ Only [.hgs, .ev] s t ∧
      t.hgs[h].st = .timedOut ∧ t.hgs[h].conf = 0 ∧ t.hgs[h].accEpoch = none ∧ t.hgs[h].seqRef = none ∧ t.ev = s.ev.raise (evtOpen .streamTimeout (34 + h.val / 8) h.val) ∧
      (∀ k : Fin 64, k ≠ h → t.hgs[k] = s.hgs[k]))
  ∧ (∀ (h : Fin 64) (s : State) c, s.stalled = false → s.hgs[h].cfg = some c → s.hgs[h].st = .waiting → s.hgs[h].absent = false → c.timeout ≠ 0 → elapsed s.tb.now s.hgs[h].installedAt (c.timeout * 8000000) = true →
      s.hgs[h].held (s.comingTo h) (s.hgs[h].installedAt + ms c.timeout) = false →
      exec (.streamAbsent h) s = .next { s with hgs := s.hgs.set h { s.hgs[h] with absent := true }, ev := s.ev.raise (evtOpen .streamAbsent (34 + h.val / 8) h.val) })
  ∧ (∀ (h : Fin 64) r (s : State), s.stalled = false → (r = reasonMisaligned ∨ r = reasonExternal) → s.hgs[h].st = .masked → r ∈ s.hgs[h].reasons → ∃ t, exec (.externalMaskRelease h r) s = .next t ∧
      Only [.hgs] s t ∧ (∀ k : Fin 64, k ≠ h → t.hgs[k] = s.hgs[k]) ∧ (∀ x, x ∈ t.hgs[h].reasons ↔ x ∈ s.hgs[h].reasons ∧ x ≠ r) ∧
      ((∀ x ∈ s.hgs[h].reasons, x = r) → t.hgs[h].st = .resync ∧ t.hgs[h].accEpoch = none ∧ t.hgs[h].seqRef = none ∧ t.hgs[h].window = []) ∧
      ((∃ x ∈ s.hgs[h].reasons, x ≠ r) → t.hgs[h].st = .masked))

/-- Outside a Replay stall. A write cycle appends at the back of the flume, so what it held stays in place; where a reader has it and its
occupancy was within FLUME bytes it stays within them; without a reader nothing stays in it. Once the reader's island is enrolled, not
before, FLUME_READ takes the oldest visible record and counts its space as freed; an uncorrectable one reaches no reader, is counted, and
raises FLUME_UE once in a frame; a record of the item that a drop skips reaches none. Where its record is the last of the item the drop
ends. FLUME_DROP starts a drop for the item that the PAU lost. Other flumes stay. (R163, R479, R480, R481, R482, R483) -/
def Obligations.FlumesKeepOrderAndBound : Prop :=
  (∀ (h : Fin 64) (s : State) c, s.stalled = false → s.hgs[h].cfg = some c → ∃ t, exec (.dataFlumeWriteCycle h) s = .next t ∧ Only [.ev, .seq, .hgs] s t ∧ (∀ k : Fin 64, k ≠ h → t.hgs[k] = s.hgs[k]) ∧
      t.hgs[h].freed = 0 ∧ (s.hasReader h = true → s.hgs[h].flume <+: t.hgs[h].flume) ∧ (s.hasReader h = false → t.hgs[h].flume = [] ∧ t.hgs[h].occ = 0) ∧
      (s.hgs[h].occ ≤ c.flumeBytes → t.hgs[h].occ ≤ c.flumeBytes) ∧ (t.hgs[h].full = true ↔ c.flumeBytes < t.hgs[h].occ + c.largest) ∧
      (s.isl.cfg.replay = true → t.seq = s.seq))
  ∧ (∀ (h : Fin 64) ue (s : State) r rest, s.stalled = false → s.hasReader h = true → s.readerUp h = true → s.hgs[h].flume = r :: rest → ∃ t, exec (.flumeRead h ue) s = .next t ∧ Only [.ev, .hgs, .pl, .pau, .cb] s t ∧
      t.hgs[h].flume = rest ∧ t.hgs[h].freed = s.hgs[h].freed + r.size ∧ (∀ k : Fin 64, k ≠ h → t.hgs[k] = s.hgs[k]) ∧
      (ue = true → t.hgs[h].flumeUe = bump s.hgs[h].flumeUe ∧ Only [.ev, .hgs] s t ∧ t.ev = (if s.hgs[h].ueFrame = some s.tb.no then s.ev else s.ev.raise (evtOpen .flumeUe (34 + h.val / 8) h.val))) ∧
      (ue = false → s.hgs[h].drop = some r.itemNo → Only [.hgs, .pau] s t ∧ t.hgs[h].drop = (if r.last then none else some r.itemNo)) ∧
      (ue = false → s.hgs[h].drop = none → s.pau.rsOf h = none → s.pau.camOf h = none → t.pl = { s.pl with inbox := s.pl.inbox ++ [r] } ∧ t.pau = s.pau))
  ∧ (∀ (h : Fin 64) ue (s : State), s.readerUp h = false → exec (.flumeRead h ue) s = .next s)
  ∧ (∀ (h : Fin 64) (s : State) x, s.stalled = false → s.pau.lostItem.find? (fun y : Fin 64 × BitVec 16 => y.1 == h) = some x → ∃ t, exec (.flumeDrop h) s = .next t ∧ Only [.hgs, .pau] s t ∧
      t.hgs = s.hgs.set h { s.hgs[h] with drop := some x.2 } ∧ (∀ y ∈ t.pau.lostItem, y.1 ≠ h) ∧ t.pau = { s.pau with lostItem := t.pau.lostItem })

/-- Outside a Replay stall. Where rung k is due (k µs + LAG has come), RUNG_WRITE puts the record of rung k first, with TOV k µs, keeps the
rungs before it (131,072 at most), the next is k + 1, and no query at the front of a port's queue waits for a visible head. A lockstep
mismatch there queues PL_LOCKSTEP, clears the live record's VALID and the Ladder is dead, the ladder as it was: no later RUNG_WRITE changes
anything, an answer computed from it has VALID = 0 and status 0, and a POSE_QUERY leaves its port without one. An input record is taken
oldest first; one the Ladder uses whose TOV is later than the newest rung joins the inputs; one that is not only counts and raises
POSE_INPUT_BEHIND. COAST for COAST_MAX, or SLIP or IMU_ONLY for longer than IMU_ONLY_MAX, judged at the due rung with no input from before
the limit still to be taken, makes the mode LOST with POSE_LOST. PL_RUNG_LATE is raised once for a rung, LAG + 10 µs after it. MASK_HOLD
after a mask the entry is unmasked. Device time and memory stay. (R192, R193, R197, R198, R199, R205, R420) -/
def Obligations.RungsFollowEachOther : Prop :=
  (∀ (s : State) k, s.stalled = false → s.rungDue = some k → ∃ t r, exec (.rungWrite true) s = .next t ∧ t.pl.ladder = (r :: s.pl.ladder).take 131072 ∧ r.tov = BitVec.ofNat 64 (k * 8000) ∧
      t.pl.nextK = some (k + 1) ∧ t.pl.dead = false ∧ t.pl.start = s.pl.start ∧ t.pl.cfg = s.pl.cfg ∧ Only [.ev, .hgs, .pl] s t ∧ (r.valid = true ↔ r.mode ≠ .init ∧ r.mode ≠ .lost) ∧
      ∀ (p : Fin 8) x α a rest, t.pl.waiting[p] = (x, α, a) :: rest → t.pl.answer x α a = none)
  ∧ (∀ (s : State) k, s.stalled = false → s.rungDue = some k → ∃ t, exec (.rungWrite false) s = .next t ∧ t.pl.dead = true ∧ t.pl.ladder = s.pl.ladder ∧ t.pl.live.valid = false ∧
      t.ev = s.ev.raise (evtOpen .plLockstep 44 0) ∧ Only [.ev, .pl, .guard] s t)
  ∧ (∀ s : State, s.pl.dead = true → ∀ b, exec (.rungWrite b) s = .next s ∧ ∀ port x α now, s.pl.answer x α now = some (poseFail 0 x, 0, false) ∧
      (s.stalled = false → exec (.poseQuery port x α b) s = .next { s with pl := { s.pl with answers := s.pl.answers.set port [] } }))
  ∧ (∀ (s : State) r rest, s.stalled = false → s.pl.inbox = r :: rest → ∃ t, exec .plInputRecord s = .next t ∧ t.pl.inbox = rest ∧ t.pl.ladder = s.pl.ladder ∧ Only [.ev, .pl] s t ∧
      (t.pl.inputs = s.pl.inputs ∨ (t.pl.inputs.length = s.pl.inputs.length + 1 ∧ t.ev = s.ev)) ∧
      (∀ k, s.pl.head = some k → tLater r.tov (BitVec.ofNat 64 (k * 8000)) = false → t.pl.inputs = s.pl.inputs) ∧
      (∀ k x, s.pl.head = some k → s.pl.inputOf s.hgs[r.hg].cfg r = some x → tLater r.tov (BitVec.ofNat 64 (k * 8000)) = false → t.pl.behind = bump s.pl.behind ∧
        t.ev = s.ev.raise (evtOpen .poseInputBehind 44 0)) ∧
      (∀ x, s.pl.inputOf s.hgs[r.hg].cfg r = some x → (∀ k, s.pl.head = some k → tLater r.tov (BitVec.ofNat 64 (k * 8000)) = true) → (r.tov, x) ∈ t.pl.inputs ∧ t.ev = s.ev))
  ∧ (∀ (s : State) k a, s.stalled = false → s.rungDue = some k → s.pl.mode = .coast → s.pl.coastAt = some a → elapsed (BitVec.ofNat 64 (k * 8000)) a (s.pl.cfg.coastMax * 8000000) = true →
      (∀ y ∈ s.pl.inputs, tLater (a + ms s.pl.cfg.coastMax) y.1 = false) →
      ∃ t, exec .coastMaxExpiry s = .next t ∧ t.pl.mode = .lost ∧ t.pl.ladder = s.pl.ladder ∧ t.ev = s.ev.raise (evtOpen .poseLost 44 0) ∧ Only [.ev, .pl] s t)
  ∧ (∀ (s : State) k a, s.stalled = false → s.rungDue = some k → (s.pl.mode = .slip ∨ s.pl.mode = .imuOnly) → s.pl.imuOnlyAt = some a →
      ((s.pl.cfg.imuOnlyMax * 8000000 : Nat) : Int) < (BitVec.ofNat 64 (k * 8000) - a).toInt → (∀ y ∈ s.pl.inputs, tLater y.1 (a + ms s.pl.cfg.imuOnlyMax) = true) →
      ∃ t, exec .imuOnlyMaxExpiry s = .next t ∧ t.pl.mode = .lost ∧ t.pl.ladder = s.pl.ladder ∧ t.ev = s.ev.raise (evtOpen .poseLost 44 0) ∧ Only [.ev, .pl] s t)
  ∧ (∀ (s : State) k, s.stalled = false → s.enrolled = true → s.pl.nextK = some k → s.pl.lateK ≠ some k → tReached s.tb.now (BitVec.ofNat 64 ((k + s.pl.cfg.lag + 10) * 8000)) = true →
      exec .plRungLate s = .next { s with pl := { s.pl with lateK := some k }, ev := s.ev.raise (evtOpen .plRungLate 44 0) })
  ∧ (∀ (i : Fin 8) (s : State) a, s.stalled = false → s.pl.encs[i].maskedAt = some a → elapsed s.tb.now a (s.pl.cfg.maskHold * 8000000) = true → ∃ t, exec (.poseMaskRelease false i) s = .next t ∧
      t.pl = { s.pl with encs := s.pl.encs.set i { s.pl.encs[i] with maskedAt := none } } ∧ Only [.pl, .hgs] s t)
  ∧ (∀ (i : Fin 4) (s : State) a, s.stalled = false → s.pl.imus[i].maskedAt = some a → elapsed s.tb.now a (s.pl.cfg.maskHold * 8000000) = true → ∃ t,
      exec (.poseMaskRelease true ⟨i.val, by omega⟩) s = .next t ∧ t.pl = { s.pl with imus := s.pl.imus.set i { s.pl.imus[i] with maskedAt := none } } ∧ Only [.pl, .hgs] s t)

/-- Outside a Replay stall. An answer is a function of the ladder, the target time, the as-of time and device time; POSE_QUERY puts it in its
port's place and moves no rung; where there is none yet, which is where the head rung (as-of less LAG, not before the first rung) is not
written, the query joins the port's queue with the time of its issue and nothing else changes. A lockstep mismatch of an answer or a live
record queues PL_LOCKSTEP and the Ladder is dead: its answers have VALID = 0 and status 0, the port's place is cleared, the live record is
not valid. With a visible head rung, a target on a whole microsecond from the start to the head, not 120 ms before it and inside the ring,
is answered by that rung itself; one outside the ring by EVICTED (status 3), counted as such; one later than the head by more than
EXTRAP_MAX by status 2; one more than 120 ms before it by status 1. LIVE_RECORD keeps the record of the latest whole microsecond, moves no
rung, and changes no frame's decided reference pose (which stay kept where the 16 places hold all open frames). (R192, R207, R209, R210, R211, R219) -/
def Obligations.QueriesAndTheLiveRecord : Prop :=
  (∀ port x α (s : State) r, s.stalled = false → s.pl.dead = false → s.pose x α = some r → ∃ t, exec (.poseQuery port x α true) s = .next t ∧ t.pl.answers = s.pl.answers.set port [r] ∧
      t.pl.ladder = s.pl.ladder ∧ t.pl.mode = s.pl.mode ∧ t.pl.dead = false ∧ Only [.ev, .pl] s t)
  ∧ (∀ (port : Fin 8) x α (s : State) b, s.stalled = false → s.pl.dead = false → s.pose x α = none → exec (.poseQuery port x α b) s =
      .next { s with pl := { s.pl with waiting := s.pl.waiting.set port (s.pl.waiting[port] ++ [(x, α, s.tb.now)]) } })
  ∧ (∀ (pl : PoseLadder) x α now k0, pl.dead = false → pl.start = some k0 → (pl.answer x α now = none ↔
      (k0 : Int) ≤ (α.toNat / 8000 : Nat) - (pl.cfg.lag : Int) ∧ ∀ top, pl.head = some top → (top : Int) < (α.toNat / 8000 : Nat) - (pl.cfg.lag : Int)))
  ∧ (∀ port x α (s : State) b, s.stalled = false → s.pl.dead = true → exec (.poseQuery port x α b) s = .next { s with pl := { s.pl with answers := s.pl.answers.set port [] } })
  ∧ (∀ port x α (s : State) r, s.stalled = false → s.pl.dead = false → s.pose x α = some r → ∃ t, exec (.poseQuery port x α false) s = .next t ∧ t.pl.dead = true ∧ t.pl.ladder = s.pl.ladder ∧
      t.ev = s.ev.raise (evtOpen .plLockstep 44 0) ∧ Only [.ev, .pl, .guard] s t)
  ∧ (∀ (pl : PoseLadder) x α now, pl.dead = true → pl.answer x α now = some (poseFail 0 x, 0, false))
  ∧ (∀ (pl : PoseLadder) (x α now : T64) k0 top q, pl.dead = false → pl.start = some k0 → pl.head = some top → k0 + pl.cfg.lag ≤ α.toNat / 8000 → α.toNat / 8000 ≤ top + pl.cfg.lag →
      (x - BitVec.ofNat 64 ((α.toNat / 8000 - pl.cfg.lag) * 8000)).toInt ≤ 0 → -960000000 ≤ (x - BitVec.ofNat 64 ((α.toNat / 8000 - pl.cfg.lag) * 8000)).toInt →
      tReached now (us (x.toNat / 8000) + us (131072 + pl.cfg.lag)) = false → k0 ≤ x.toNat / 8000 → x.toNat % 8000 = 0 →
      pl.rungAt (x.toNat / 8000) = some q → pl.answer x α now = some (q, 0, false))
  ∧ (∀ (pl : PoseLadder) (x α now : T64) k0 top, pl.dead = false → pl.start = some k0 → pl.head = some top → k0 + pl.cfg.lag ≤ α.toNat / 8000 → α.toNat / 8000 ≤ top + pl.cfg.lag →
      -960000000 ≤ (x - BitVec.ofNat 64 ((α.toNat / 8000 - pl.cfg.lag) * 8000)).toInt →
      (tReached now (us (x.toNat / 8000) + us (131072 + pl.cfg.lag)) = true → pl.answer x α now = some (poseFail 3 x, 0, true)) ∧
      (tReached now (us (x.toNat / 8000) + us (131072 + pl.cfg.lag)) = false → 0 < (x - BitVec.ofNat 64 ((α.toNat / 8000 - pl.cfg.lag) * 8000)).toInt → ((pl.cfg.extrapMax * 8000000 : Nat) : Int) < (x - BitVec.ofNat 64 ((α.toNat / 8000 - pl.cfg.lag) * 8000)).toInt → pl.answer x α now = some (poseFail 2 x, 0, false)))
  ∧ (∀ (pl : PoseLadder) (x α now : T64) k0 top, pl.dead = false → pl.start = some k0 → pl.head = some top → k0 + pl.cfg.lag ≤ α.toNat / 8000 → α.toNat / 8000 ≤ top + pl.cfg.lag →
      (x - BitVec.ofNat 64 ((α.toNat / 8000 - pl.cfg.lag) * 8000)).toInt < -960000000 → pl.answer x α now = some (poseFail 1 x, 0, false))
  ∧ (∀ (s : State) k0, s.stalled = false → s.pl.start = some k0 → s.pl.dead = true → ∃ t, exec (.liveRecord true) s = .next t ∧ t.pl.live.valid = false ∧ Only [.pl, .pau] s t)
  ∧ (∀ (s : State) k0, s.stalled = false → s.pl.start = some k0 → s.pl.dead = false → ∃ t, exec (.liveRecord true) s = .next t ∧ t.pl.live = (s.pl.liveAt (BitVec.ofNat 64 (s.tb.now.toNat / 8000 * 8000))).1 ∧
      t.pl.ladder = s.pl.ladder ∧ t.pl.mode = s.pl.mode ∧ Only [.pl, .pau] s t ∧
      (∀ n, (s.pau.refFor n).isSome = true → s.pau.refs.length + (match s.tb.frame with | some _ => s.tb.past.length + 1 | none => 0) ≤ 16 → t.pau.refFor n = s.pau.refFor n))
  ∧ (∀ (s : State) k0, s.stalled = false → s.pl.start = some k0 → s.pl.dead = false → ∃ t, exec (.liveRecord false) s = .next t ∧ t.pl.dead = true ∧ t.pl.live.valid = false ∧
      t.ev = s.ev.raise (evtOpen .plLockstep 44 0) ∧ Only [.ev, .pl, .pau] s t)

/-- Outside a Replay stall. POINT_COMPENSATE takes the point at the head of its pipe that does not wait yet. Where its pose answer or reference
pose is not decided it stays at the head as waiting and PAU_POSE_WAIT counts; POINT_POSE_WAIT takes a waiting one and leaves it while it
still is undecided. A discarded point leaves the pipe and counts in PAU_NO_POSE, and Channel B gets no core. A core leaves the pipe and goes
last into Channel B's input, once; after either the records at the pipe's head that need no compensation follow it there, in flume order; in
S1 the decoration path gets nothing; from S2 the point of an open frame goes last there while the pending store has room. POINT_PROJECT 0
puts the projection of the first point with a waiting slot in its place; whichever point it takes, it changes no core, no decided slot and
no number of points. Other pipes stay. (R220, R221, R222, R224, R226, R228, R231, R482) -/
def Obligations.PointsAreCompensatedOnce : Prop :=
  (∀ (k : Fin 4) cb (s : State) it rest c, s.stalled = false → s.pau.pipes[k] = it :: rest → it.waited = false → s.pau.rs[it.sensor] = some c →
      s.pau.compensate c it (s.tb.frameAt it.r.tov) cb s.pose = .wait → exec (.pointCompensate k cb) s = .next { s with
        pau := { s.pau with pipes := s.pau.pipes.set k ({ it with waited := true } :: rest), poseWait := bump s.pau.poseWait } })
  ∧ (∀ (k : Fin 4) cb (s : State) it rest c, s.stalled = false → s.pau.pipes[k] = it :: rest → it.waited = true → s.pau.rs[it.sensor] = some c →
      s.pau.compensate c it (s.tb.frameAt it.r.tov) cb s.pose = .wait → exec (.pointPoseWait k cb) s = .next s)
  ∧ (∀ (k : Fin 4) cb (s : State) it rest c lost n w, s.stalled = false → s.pau.pipes[k] = it :: rest → it.waited = w → s.pau.rs[it.sensor] = some c →
      s.pau.compensate c it (s.tb.frameAt it.r.tov) cb s.pose = .discard lost n → ∃ t, exec (if w then .pointPoseWait k cb else .pointCompensate k cb) s = .next t ∧
        t.pau.pipes = s.pau.pipes.set k (rest.dropWhile fun (y : PipeItem) => forwards y.r.body) ∧ t.pau.noPose = bump s.pau.noPose ∧
        t.cb = { s.cb with input := s.cb.input ++ (rest.takeWhile fun (y : PipeItem) => forwards y.r.body).map fun (y : PipeItem) => .mark y.r y.sensor } ∧
        t.pau.points = s.pau.points ∧ Only [.ev, .pl, .pau, .cb] s t ∧
        (lost = true → (it.r.hg, it.r.itemNo) ∈ t.pau.lostItem) ∧ (lost = false → t.pau.lostItem = s.pau.lostItem))
  ∧ (∀ (k : Fin 4) cb (s : State) it rest c q n w, s.stalled = false → s.pau.pipes[k] = it :: rest → it.waited = w → s.pau.rs[it.sensor] = some c →
      s.pau.compensate c it (s.tb.frameAt it.r.tov) cb s.pose = .core q n → ∃ t, exec (if w then .pointPoseWait k cb else .pointCompensate k cb) s = .next t ∧
        t.pau.pipes = s.pau.pipes.set k (rest.dropWhile fun (y : PipeItem) => forwards y.r.body) ∧
        t.cb = { s.cb with input := s.cb.input ++ [.hit q] ++ (rest.takeWhile fun (y : PipeItem) => forwards y.r.body).map fun (y : PipeItem) => .mark y.r y.sensor } ∧ Only [.ev, .seq, .pl, .pau, .cb] s t ∧
        (s.bcc.stage.toNat < 2 → t.pau.points = s.pau.points) ∧ (s.bcc.stage.toNat < 2 ∨ t.pau.points = s.pau.points ∨ t.pau.points.map (·.core) = s.pau.points.map (·.core) ++ [q]) ∧
        (2 ≤ s.bcc.stage.toNat → s.pau.isClosed q.frame = false → s.pau.pendingCount < s.pau.cfg.pending →
          t.pau.points = s.pau.points ++ [⟨q, c.cams.map fun (x : Fin 16) => (x, SlotSt.waiting)⟩]))
  ∧ (∀ (s : State) p rest, s.stalled = false → s.pau.points = p :: rest → p.undecided = true → ∃ t, exec (.pointProject 0) s = .next t ∧
      t.pau.points = (s.pau.projectPoint p s.rowsOf s.pl.cfg.lag false s.checkedPose).1 :: rest)
  ∧ (∀ i (s : State), s.stalled = false → ∃ t, exec (.pointProject i) s = .next t ∧ Only [.ev, .pl, .pau] s t ∧ t.pau = { s.pau with points := t.pau.points, expFallback := t.pau.expFallback } ∧
      t.pau.points.map (·.core) = s.pau.points.map (·.core) ∧
      (∀ (j : Nat) (hs : j < s.pau.points.length) (ht : j < t.pau.points.length) (m : Nat) (c : Fin 16) (x : SlotSt), s.pau.points[j].slots[m]? = some (c, x) → x ≠ SlotSt.waiting → t.pau.points[j].slots[m]? = some (c, x)))

/-- Outside a Replay stall. PAU_CLOSE_PASS takes the oldest frame signalled and marks it closed; from S2 it waits, and nothing changes, while a
pose answer that it asks for waits for its rung. In S1 that is all. From S2 the frame's points are handed over in their parity's place, none
of whose slots waits, in the order of their headgates; no point up to that frame stays, every later one does. From S3, where frame n's
window was solved and device time is in frame n + 2, ALIGN_STEP_APPLY ends the step: an eligible solve gives one set for that frame with
EXT_SEQ one higher and raises ALIGN_STEP first; any other is discarded with ALIGN_STEP_FAIL and no set. MIS_HOLD after its mask a sensor
masked fewer than MIS_LIMIT times starts from nominal, any other is held with ALIGN_HELD. (R228, R231, R234, R236, R237, R449) -/
def Obligations.ClosePassAndAlignment : Prop :=
  (∀ (s : State) n rest, s.stalled = false → s.pau.closing = n :: rest → (s.bcc.stage.toNat < 2 ∨ (s.pau.closePass n s.rowsOf s.pl.cfg.lag s.checkedPose).isSome = true) → ∃ t, exec .pauClosePass s = .next t ∧ t.pau.closing = rest ∧ t.pau.closed = some n ∧ Only [.ev, .pl, .pau] s t ∧
      (s.bcc.stage.toNat < 2 → t.pau = { s.pau with closing := rest, closed := some n }) ∧
      (2 ≤ s.bcc.stage.toNat → (∀ q ∈ t.pau.points, n.toNat < q.core.frame.toNat) ∧ (∀ q ∈ s.pau.points, n.toNat < q.core.frame.toNat → q ∈ t.pau.points) ∧
        ∃ x, (if n.toNat % 2 = 0 then t.pau.handed[0] else t.pau.handed[1]) = some x ∧ x.frame = n ∧ (∀ q ∈ x.points, q.core.frame = n ∧ ∀ y ∈ q.slots, y.2 ≠ SlotSt.waiting) ∧
          x.points.Pairwise (fun a b => a.core.hg.val ≤ b.core.hg.val) ∧ x.points.length = (s.pau.points.filter fun q => q.core.frame == n).length))
  ∧ (∀ (s : State) n rest, s.pau.closing = n :: rest → 2 ≤ s.bcc.stage.toNat → s.pau.closePass n s.rowsOf s.pl.cfg.lag s.checkedPose = none → exec .pauClosePass s = .next s)
  ∧ (∀ (s : State) w r f, s.stalled = false → 3 ≤ s.bcc.stage.toNat → s.pau.work = some w → w.solved = some r → s.tb.frame = some f → (w.frame + 2).toNat ≤ s.tb.no.toNat → r.eligible = true → ∃ t es,
      exec .alignStepApply s = .next t ∧ t.pau.work = none ∧ t.pau.alignSteps = bump s.pau.alignSteps ∧ Only [.ev, .hgs, .pau] s t ∧ t.ev = s.ev.raiseAll (evtOpen .alignStep 49 0 :: es) ∧
      ∃ d, t.pau.sets = ((w.frame + 2, ⟨(s.pau.setFor (w.frame + 2)).seq + 1, d⟩) :: s.pau.sets).take 8)
  ∧ (∀ (s : State) w r f, s.stalled = false → 3 ≤ s.bcc.stage.toNat → s.pau.work = some w → w.solved = some r → s.tb.frame = some f → (w.frame + 2).toNat ≤ s.tb.no.toNat → r.eligible = false →
      exec .alignStepApply s = .next { s with pau := { s.pau with work := none, alignFails := bump s.pau.alignFails }, ev := s.ev.raise (evtOpen .alignStepFail 49 0) })
  ∧ (∀ (k : Fin 24) (s : State) a, s.stalled = false → s.pau.entries[k].st = .misaligned → s.pau.entries[k].maskedAt = some a → elapsed s.tb.now a (s.pau.cfg.misHold * 8000000000) = true →
      s.pau.entries[k].masks < s.pau.cfg.misLimit → ∃ t, exec (.misHoldExpiry k) s = .next t ∧ t.pau.entries[k].st = .nominal ∧ t.pau.entries[k].maskedAt = none ∧
        t.pau.entries[k].resetDue = true ∧ t.ev = s.ev ∧ (∀ j : Fin 24, j ≠ k → t.pau.entries[j] = s.pau.entries[j]) ∧ Only [.ev, .hgs, .pau] s t)
  ∧ (∀ (k : Fin 24) (s : State) a, s.stalled = false → s.pau.entries[k].st = .misaligned → s.pau.entries[k].maskedAt = some a → elapsed s.tb.now a (s.pau.cfg.misHold * 8000000000) = true →
      s.pau.cfg.misLimit ≤ s.pau.entries[k].masks → exec (.misHoldExpiry k) s = .next { s with
        pau := { s.pau with entries := s.pau.entries.set k { s.pau.entries[k] with st := .held, maskedAt := none } }, ev := s.ev.raise (evtOpen .alignHeld 49 k.val) })

/-- Outside a Replay stall. Where the PCU runs the launch of frame n, its points have been handed over, nothing has aborted it and no word is
poisoned, PCU_TASK finishes the launch: the completion record in force for frame n, with DONE 1 and STEP 8, reads back from its place. Where
the launch is aborted or its step 1 reads a poisoned word, the record carries ABORTED 1, DONE 0 and the last whole step (at least 1; 1 for a
poisoned word), the unit is free and the launch is not finished. Where the Tracker runs frame n, not aborted, and the reference pose is
decided, TRACKER_TASK finishes the launch and the tracks stand at frame n; of the memories it changes the Cistern alone, one that is aborted
frees the unit and finishes nothing, and of the blocks only the Tracker, the Sequencer and the events. (R243, R269, R270, R276, R342, R355) -/
def Obligations.PointCloudAndTrackerTasks : Prop :=
  (∀ a (s : State) n e j f x sec, s.stalled = false → s.seq.busy[0] = some (n, e, j) → s.tb.frameNo n = some f → (n, e, j) ∉ s.seq.finished →
      (if n.toNat % 2 = 0 then s.pau.handed[0] else s.pau.handed[1]) = some x → x.frame = n → (∀ l, s.seq.find n e j = some l → l.aborted = false) →
      s.mem.wf = true → s.mem.cisternBad = [] → s.mem.dramBad = [] → s.pcu.readsPoison n s.mem = false → s.pcu.sectionFor n = some sec → ∃ t d, exec (.pcuTask a) s = .next t ∧ Only [.ev, .seq, .pcu, .mem] s t ∧
        (n, e, j) ∈ t.seq.finished ∧ t.seq.busy = s.seq.busy ∧ t.pcu.last = some d ∧ d.frame = n ∧ d.done = true ∧ d.aborted = false ∧ d.step = 8 ∧
        (∀ i, i < 64 → t.mem.get (sec.cfg.doneRec.at_ n).space ((sec.cfg.doneRec.at_ n).addr + i) = d.bytes.getD i 0))
  ∧ (∀ (a : Fin 9) (s : State) n e j f x sec, s.stalled = false → s.seq.busy[0] = some (n, e, j) → s.tb.frameNo n = some f → (n, e, j) ∉ s.seq.finished →
      (if n.toNat % 2 = 0 then s.pau.handed[0] else s.pau.handed[1]) = some x → x.frame = n → ((∃ l, s.seq.find n e j = some l ∧ l.aborted = true) ∨ s.pcu.readsPoison n s.mem = true) → a.val < 8 →
      s.pcu.sectionFor n = some sec → ∃ t d, exec (.pcuTask a) s = .next t ∧ Only [.ev, .seq, .pcu, .mem] s t ∧ t.seq = s.seq.freeUnit n e j ∧ t.pcu.last = some d ∧ d.aborted = true ∧
        d.done = false ∧ d.frame = n ∧ d.step = (if s.pcu.readsPoison n s.mem then 1 else max 1 a.val))
  ∧ (∀ (s : State) n e j f ref, s.stalled = false → s.seq.busy[1] = some (n, e, j) → s.tb.frameNo n = some f → s.pau.refFor n = some ref → (n, e, j) ∉ s.seq.finished → ∃ t, exec .trackerTask s = .next t ∧
      Only [.ev, .seq, .trk, .mem] s t ∧ ((∀ l, s.seq.find n e j = some l → l.aborted = false) → t.seq = { s.seq with finished := s.seq.finished ++ [(n, e, j)] } ∧ t.trk.frame = some n) ∧
      ((∃ l, s.seq.find n e j = some l ∧ l.aborted = true) → t.seq = s.seq.freeUnit n e j) ∧ t.trk.cfg = s.trk.cfg ∧
      t.mem.dram = s.mem.dram ∧ t.mem.local_ = s.mem.local_ ∧ t.mem.dramBad = s.mem.dramBad)

/-- Outside a Replay stall and C3. Where the QSA runs a launch with its pose answer known and its feed frame decided, MPC_BATCH counts one
batch, gives one command with that batch number and TOV the launch time plus LEAD, and finishes the launch. The command is valid exactly in
S3 without C2 and with a valid pose; without a feed frame it carries NO_FEED and is a stop; one that is no stop names an eligible lane.
Cistern bytes outside the batch parity's 64 KB of results, with no word poisoned, and every other memory stay. From S3, ALIGN_SOLVE of the
window of the frame before keeps its result, and changes no byte outside the 1,024 bytes of its slot (where no word is poisoned); without
such a window, and before S3, it only finishes. (R31, R236, R369, R374, R375, R378, R379, R381) -/
def Obligations.BatchesGiveOneCommand : Prop :=
  (∀ (s : State) n e j x f p, s.stalled = false → s.seq.busy[2] = some (n, e, j) → (s.seq.tableOf n)[e]? = some x → s.tb.frameNo n = some f → (n, e, j) ∉ s.seq.finished → s.c3 = false →
      s.checkedPose (x.startAt f.b j + us s.qsa.cfg.lead) (x.startAt f.b j) = some p → s.feedOf (x.startAt f.b j) ≠ .wait → ∃ t, exec .mpcBatch s = .next t ∧
        Only [.ev, .seq, .pl, .qsa, .mem, .out, .guard] s t ∧ t.seq = { s.seq with finished := s.seq.finished ++ [(n, e, j)] } ∧ t.qsa.batch = s.qsa.batch + 1 ∧ t.qsa.cmd.batch = s.qsa.batch + 1 ∧
        t.qsa.cmd.tov = x.startAt f.b j + us s.qsa.cfg.lead ∧ t.qsa.written = true ∧ t.qsa.cfg = s.qsa.cfg ∧
        (t.qsa.cmd.valid = true ↔ p.valid = true ∧ s.bcc.stage = 3 ∧ s.c2 = false) ∧ (t.qsa.cmd.stop = true ∨ t.qsa.cmd.valid = false ∨ ∃ m, s.feedOf (x.startAt f.b j) = .ready m) ∧
        (t.qsa.cmd.stop = false → ∃ l : Fin 64, l.val = t.qsa.cmd.lane.toNat ∧ t.qsa.results[l].eligible = true) ∧
        (p.valid = true → (∀ m, s.feedOf (x.startAt f.b j) ≠ .ready m) → t.qsa.cmd.noFeed = true ∧ t.qsa.cmd.stop = true) ∧
        t.mem.dram = s.mem.dram ∧ t.mem.local_ = s.mem.local_ ∧ (s.mem.cisternBad = [] → ∀ a, (a < s.qsa.cfg.resultBase + (s.qsa.batch + 1).toNat % 2 * 65536 ∨
          s.qsa.cfg.resultBase + (s.qsa.batch + 1).toNat % 2 * 65536 + 65536 ≤ a) → t.mem.get .cistern a = s.mem.get .cistern a))
  ∧ (∀ (s : State) n e j w, s.stalled = false → 3 ≤ s.bcc.stage.toNat → s.seq.busy[5] = some (n, e, j) → (n, e, j) ∉ s.seq.finished → s.pau.work = some w → w.frame + 1 = n → w.solved = none → ∃ t r, exec .alignSolve s = .next t ∧
        t.seq = { s.seq with finished := s.seq.finished ++ [(n, e, j)] } ∧ t.pau = { s.pau with work := some { w with solved := some r } } ∧ t.qsa = { s.qsa with alignResult := r } ∧
        Only [.seq, .pau, .qsa, .mem] s t ∧ t.mem.dram = s.mem.dram ∧ t.mem.local_ = s.mem.local_ ∧ (s.mem.cisternBad = [] →
          ∀ a, (a < s.qsa.cfg.resultBase + 131072 ∨ s.qsa.cfg.resultBase + 132096 ≤ a) → t.mem.get .cistern a = s.mem.get .cistern a))
  ∧ (∀ (s : State) n e j, s.stalled = false → s.seq.busy[5] = some (n, e, j) → (n, e, j) ∉ s.seq.finished → (s.bcc.stage.toNat < 3 ∨ ∀ w, s.pau.work = some w → w.frame + 1 ≠ n) → exec .alignSolve s = .next { s with
        seq := { s.seq with finished := s.seq.finished ++ [(n, e, j)] } })

/-- Outside a Replay stall. NOP, COPY, FILL, MATMUL, CONV, SPCONV, GATHER, SCATTER, VUNARY, VBINARY, VFMA, REDUCE, SOFTMAX, NORM, ATTEND,
KV_APPEND, KV_FLUSH and KV_SCATTER of engine t each complete where the engine's list has a command of their opcode in front and no word that
they read carries an ECC error: memory is what the command's function computes from its operands (for NOP as it was), one more command has
run at the present time, its flags and INDEX_RANGE count join the list's, and the list stops only where a poisoned word was read; the other
engines and the model slots stay. Where the command reads LOCAL, a corrected word there is counted in LOCAL_CE and all else is the same; an
uncorrectable one stops the list with TE_ECC_UE and writes no byte, an event for a count above DIM (R287) coming before it. With another
opcode in front none of them changes memory, the list or the events. Whatever runs on engine t, the other engines and, with the model slots
in shared memory, their local buffers stay. (R276, R282, R303, R304, R305, R307, R308, R311, R316, R324, R472, R473) -/
def Obligations.TensorCommandsRunInListOrder : Prop :=
  (∀ (t : Fin 4) (s : State) r h c e, s.stalled = false → s.tes.front t s.mem s.kv = some (r, h, c, e) →
      ∀ x ∈ ([
        (.copy t .clean, 0x01, CmdEnv.copy), (.fill t .clean, 0x02, CmdEnv.fillCmd), (.matmul t .clean, 0x10, CmdEnv.matmul), (.conv t .clean, 0x11, CmdEnv.conv),
        (.spconv t .clean, 0x12, CmdEnv.spconv), (.gather t .clean, 0x20, CmdEnv.gather), (.scatter t .clean, 0x21, CmdEnv.scatter),
        (.vunary t .clean, 0x30, CmdEnv.vunary), (.vbinary t .clean, 0x31, CmdEnv.vbinary), (.vfma t .clean, 0x32, CmdEnv.vfma),
        (.reduce t .clean, 0x33, CmdEnv.reduce), (.softmax t .clean, 0x34, CmdEnv.softmax), (.norm t .clean, 0x35, CmdEnv.norm),
        (.attend t .clean, 0x40, CmdEnv.attend), (.kvAppend t .clean, 0x41, fun e c => e.kvToken c false), (.kvFlush t .clean, 0x42, CmdEnv.kvFlush),
        (.kvScatter t .clean, 0x43, fun e c => e.kvToken c true), (.nop t, 0x00, fun e _ => { mem := e.mem })] : List (Instr × Nat × (CmdEnv → Command → CmdOut))),
      c.opcode = x.2.1 → ∃ u, exec x.1 s = .next u ∧ u.mem = (x.2.2 e c).mem ∧ Only [.ev, .tes, .mem] s u ∧ u.tes.slots = s.tes.slots ∧
        (∀ k : Fin 4, k ≠ t → u.tes.te[k] = s.tes.te[k]) ∧ u.tes.te[t].run = some { r with
          ran := r.ran + 1, flags := r.flags ||| (x.2.2 e c).flags, indexRange := r.indexRange + (x.2.2 e c).indexRange, cmdAt := s.tb.now
          status := if (x.2.2 e c).poisoned then .stopped else r.status })
  ∧ (∀ (t : Fin 4) (s : State) r h c e, s.tes.front t s.mem s.kv = some (r, h, c, e) → e.mem = s.mem)
  ∧ (∀ (t : Fin 4) (s : State) r h c e, s.stalled = false → s.tes.front t s.mem s.kv = some (r, h, c, e) →
      ∀ x ∈ ([
        (.copy t .corrected, 0x01, CmdEnv.copy), (.fill t .corrected, 0x02, CmdEnv.fillCmd), (.matmul t .corrected, 0x10, CmdEnv.matmul),
        (.conv t .corrected, 0x11, CmdEnv.conv), (.spconv t .corrected, 0x12, CmdEnv.spconv), (.gather t .corrected, 0x20, CmdEnv.gather),
        (.scatter t .corrected, 0x21, CmdEnv.scatter), (.vunary t .corrected, 0x30, CmdEnv.vunary), (.vbinary t .corrected, 0x31, CmdEnv.vbinary),
        (.vfma t .corrected, 0x32, CmdEnv.vfma), (.reduce t .corrected, 0x33, CmdEnv.reduce), (.softmax t .corrected, 0x34, CmdEnv.softmax),
        (.norm t .corrected, 0x35, CmdEnv.norm), (.attend t .corrected, 0x40, CmdEnv.attend), (.kvAppend t .corrected, 0x41, fun e c => e.kvToken c false),
        (.kvFlush t .corrected, 0x42, CmdEnv.kvFlush), (.kvScatter t .corrected, 0x43, fun e c => e.kvToken c true)] : List (Instr × Nat × (CmdEnv → Command → CmdOut))),
      c.opcode = x.2.1 → s.tes.readsLocal t s.mem s.kv x.2.1 = true → ∃ u, exec x.1 s = .next u ∧ u.mem = (x.2.2 e c).mem ∧ Only [.ev, .tes, .mem] s u ∧
        u.tes.te[t].localCe = bump s.tes.te[t].localCe ∧ u.tes.te[t].run = some { r with
          ran := r.ran + 1, flags := r.flags ||| (x.2.2 e c).flags, indexRange := r.indexRange + (x.2.2 e c).indexRange, cmdAt := s.tb.now
          status := if (x.2.2 e c).poisoned then .stopped else r.status })
  ∧ (∀ (t : Fin 4) (s : State) r h c e, s.stalled = false → s.tes.front t s.mem s.kv = some (r, h, c, e) →
      ∀ x ∈ ([(.copy t .uncorrectable, 0x01), (.matmul t .uncorrectable, 0x10), (.conv t .uncorrectable, 0x11), (.spconv t .uncorrectable, 0x12), (.gather t .uncorrectable, 0x20),
        (.scatter t .uncorrectable, 0x21), (.vunary t .uncorrectable, 0x30), (.vbinary t .uncorrectable, 0x31), (.vfma t .uncorrectable, 0x32), (.reduce t .uncorrectable, 0x33),
        (.softmax t .uncorrectable, 0x34), (.norm t .uncorrectable, 0x35), (.attend t .uncorrectable, 0x40), (.kvAppend t .uncorrectable, 0x41), (.kvFlush t .uncorrectable, 0x42),
        (.kvScatter t .uncorrectable, 0x43), (.digest t .uncorrectable, 0x60)] : List (Instr × Nat)),
      c.opcode = x.2 → s.tes.readsLocal t s.mem s.kv x.2 = true → ∃ u, exec x.1 s = .next u ∧ u.mem = s.mem ∧
        u.ev = (s.ev.raiseAll (match e.clamps c with | n :: _ => [evt .tensorClamp (61 + 6 * t.val) (4 * t.val + r.queue.val) n] | [] => [])).raise
          (evtOpen .teEccUe (61 + 6 * t.val) t.val) ∧ Only [.ev, .tes, .mem] s u ∧ (u.tes.te[t].run.map (·.status)) = some .stopped)
  ∧ (∀ (t : Fin 4) (ecc : EccFind) (s : State) r h c e, s.stalled = false → s.tes.front t s.mem s.kv = some (r, h, c, e) →
      ∀ x ∈ ([(.copy t ecc, 0x01), (.fill t ecc, 0x02), (.matmul t ecc, 0x10), (.conv t ecc, 0x11), (.spconv t ecc, 0x12), (.gather t ecc, 0x20), (.scatter t ecc, 0x21),
        (.vunary t ecc, 0x30), (.vbinary t ecc, 0x31), (.vfma t ecc, 0x32), (.reduce t ecc, 0x33), (.softmax t ecc, 0x34), (.norm t ecc, 0x35), (.attend t ecc, 0x40),
        (.kvAppend t ecc, 0x41), (.kvFlush t ecc, 0x42), (.kvScatter t ecc, 0x43), (.nop t, 0x00)] : List (Instr × Nat)),
      c.opcode ≠ x.2 → ∃ u, exec x.1 s = .next u ∧ u.mem = s.mem ∧ u.tes.te[t].run = s.tes.te[t].run ∧ u.ev = s.ev ∧ Only [.ev, .tes, .mem] s u)
  ∧ (∀ (t : Fin 4) (ecc : EccFind) (s u : State), (∀ (i : Fin 64) x, s.tes.slots[i] = some x → x.space = .cistern ∨ x.space = .dram) →
      ∀ i ∈ [Instr.copy t ecc, .fill t ecc, .matmul t ecc, .conv t ecc, .spconv t ecc, .gather t ecc, .scatter t ecc, .vunary t ecc, .vbinary t ecc, .vfma t ecc, .reduce t ecc,
        .softmax t ecc, .norm t ecc, .attend t ecc, .kvAppend t ecc, .kvFlush t ecc, .kvScatter t ecc, .digest t ecc, .nop t, .signal t, .wait t, .waitTimeout t, .goldenCheck t,
        .listCompletion t], exec i s = .next u → ∀ k : Fin 4, k ≠ t → u.mem.local_[k] = s.mem.local_[k] ∧ u.tes.te[k] = s.tes.te[k])

/-- Outside a Replay stall. With no list in progress, LIST_START starts the next list of the lowest-numbered queue that has one ready: its
chain's next list, or the first list of its oldest launch entry, which leaves the flume; an uncorrectable entry is discarded with
CMD_FLUME_UE. A list that has run out or stopped ends: with a COMPLETION address exactly the 32 bytes of its record are written, its flags
are the queue's, LISTS counts, and its chain goes on only where it ran to its end with a next list and no flush. A flush empties its queue,
ends a chain at its list boundary, queues QUEUE_FLUSH with the number of entries and 65,536 for a chain that no flush has ended yet, and
touches no other queue, engine or byte; with neither an entry nor such a chain it changes nothing. (R187, R280, R281, R282, R284, R323, R473) -/
def Obligations.ListsStartAndEnd : Prop :=
  (∀ (t q : Fin 4) ue (s : State) k, s.stalled = false → s.tes.te[t].run = none → (∀ p : Fin 4, p < q → s.tes.te[t].chain[p] = none ∧ s.tes.te[t].flume[p] = []) → s.tes.te[t].chain[q] = some k → ∃ u r,
      exec (.listStart t ue) s = .next u ∧ u.tes.te[t].run = some r ∧ r.queue = q ∧ r.launch = k.launch ∧ r.addr = k.next.toNat ∧ r.ran = 0 ∧ r.flags = 0 ∧ r.status = .complete ∧
      r.startAt = s.tb.now ∧ u.tes.te[t].flume = s.tes.te[t].flume ∧ u.ev = s.ev ∧ Only [.tes] s u)
  ∧ (∀ (t q : Fin 4) (s : State) l rest, s.stalled = false → s.tes.te[t].run = none → (∀ p : Fin 4, p < q → s.tes.te[t].chain[p] = none ∧ s.tes.te[t].flume[p] = []) → s.tes.te[t].chain[q] = none →
      s.tes.te[t].flume[q] = l :: rest →
      (∃ u r, exec (.listStart t false) s = .next u ∧ u.tes.te[t].run = some r ∧ r.queue = q ∧ r.launch = l ∧ r.addr = l.list.toNat ∧ r.ran = 0 ∧ r.flags = 0 ∧ r.startAt = s.tb.now ∧
        u.tes.te[t].flume = s.tes.te[t].flume.set q rest ∧ (∃ k, u.tes.te[t].chain[q] = some k ∧ k.launch = l ∧ k.ending = false) ∧ Only [.tes] s u) ∧
      exec (.listStart t true) s = .next { s with
        tes := { s.tes with te := s.tes.te.set t { s.tes.te[t] with flume := s.tes.te[t].flume.set q rest } }
        ev := s.ev.raise (evtOpen .cmdFlumeUe (61 + 6 * t.val) (4 * t.val + q.val)) })
  ∧ (∀ (t : Fin 4) (s : State) r h, s.stalled = false → s.tes.te[t].run = some r → h = ListHeader.ofBytes (s.mem.read .cistern r.addr 64) → (r.status ≠ .complete ∨ h.cmdCount ≤ r.ran) → ∃ u,
      exec (.listCompletion t) s = .next u ∧ Only [.ev, .tes, .mem, .seq] s u ∧ u.tes.te[t].run = none ∧ u.tes.te[t].qflags = s.tes.te[t].qflags.set r.queue r.flags ∧
      u.tes.te[t].lists = s.tes.te[t].lists.set r.queue (bump s.tes.te[t].lists[r.queue]) ∧ u.tes.te[t].flume = s.tes.te[t].flume ∧
      (h.completion = 0xFFFFFFFF → u.mem = s.mem) ∧
      (h.completion ≠ 0xFFFFFFFF → (s.mem.wf = true → ∀ i, i < 32 → u.mem.get .cistern (h.completion + i) = (r.record t s.tb.now).getD i 0) ∧
        (∀ a, (a / 8 < h.completion / 8 ∨ (h.completion + 31) / 8 < a / 8) → u.mem.get .cistern a = s.mem.get .cistern a) ∧
        (s.mem.cisternBad = [] → ∀ a, (a < h.completion ∨ h.completion + 32 ≤ a) → u.mem.get .cistern a = s.mem.get .cistern a) ∧
        u.mem.dram = s.mem.dram ∧ u.mem.local_ = s.mem.local_) ∧
      (u.tes.te[t].chain[r.queue].isSome = true ↔ r.status ≠ .stopped ∧ h.next ≠ 0xFFFFFFFF ∧ ∃ k, s.tes.te[t].chain[r.queue] = some k ∧ k.ending = false) ∧
      (∀ q : Fin 4, q ≠ r.queue → u.tes.te[t].chain[q] = s.tes.te[t].chain[q]))
  ∧ (∀ (t q : Fin 4) (s : State), s.stalled = false → (s.tes.te[t].flume[q] ≠ [] ∨ ∃ k, s.tes.te[t].chain[q] = some k ∧ k.ending = false) → ∃ u, exec (.queueFlush t q) s = .next u ∧ Only [.ev, .tes] s u ∧
      u.tes.te[t].flume[q] = [] ∧ u.tes.te[t].flushes = s.tes.te[t].flushes.set q (bump s.tes.te[t].flushes[q]) ∧ u.tes.te[t].run = s.tes.te[t].run ∧
      (∀ p : Fin 4, p ≠ q → u.tes.te[t].flume[p] = s.tes.te[t].flume[p] ∧ u.tes.te[t].chain[p] = s.tes.te[t].chain[p]) ∧ (∀ k : Fin 4, k ≠ t → u.tes.te[k] = s.tes.te[k]) ∧
      (∀ k, u.tes.te[t].chain[q] = some k → k.ending = true) ∧ u.ev = s.ev.raise (evt .queueFlush (61 + 6 * t.val) (4 * t.val + q.val)
        (s.tes.te[t].flume[q].length + match s.tes.te[t].chain[q] with | some k => if k.ending then 0 else 65536 | none => 0)))
  ∧ (∀ (t q : Fin 4) (s : State), s.tes.te[t].flume[q] = [] → (∀ k, s.tes.te[t].chain[q] = some k → k.ending = true) → exec (.queueFlush t q) s = .next s)

/-- Outside a Replay stall. SIGNAL writes the four bytes of (FRAME × 256 + TAG) modulo 2³² at WORD and no other byte. WAIT completes exactly
where its word holds ((FRAME − PREV) × 256 + TAG) and it has waited no longer than TIMEOUT since the command before; else nothing moves.
Where its word is poisoned and it has waited no longer, it stops the list. Otherwise, where it has waited TIMEOUT with no match, or longer,
WAIT_TIMEOUT stops the list and raises SYNC_TIMEOUT with WORD. DIGEST of clean sources in mode 1 writes nothing and makes G the SHA-256 of G
and the source's digest; in mode 0 it keeps G. GOLDEN_CHECK passes where G and the flags are those of the header; else the list's STATUS is
GOLDEN_FAIL and GOLDEN_FAIL carries bit 0 for the digest and bit 1 for the flags. (R187, R318, R320, R321, R322) -/
def Obligations.SyncWordsAndGoldenChecks : Prop :=
  (∀ (t : Fin 4) (s : State) r h c e, s.stalled = false → s.tes.front t s.mem s.kv = some (r, h, c, e) → c.opcode = 0x50 → ∃ u, exec (.signal t) s = .next u ∧ Only [.ev, .tes, .mem] s u ∧
      u.mem.dram = s.mem.dram ∧ u.mem.local_ = s.mem.local_ ∧ u.tes.te[t].run = some { r with ran := r.ran + 1, cmdAt := s.tb.now } ∧
      (s.mem.wf = true → u.mem.readNat .cistern c.word 4 = (r.launch.frame.toNat * 256 + c.tag) % 4294967296) ∧
      (s.mem.cisternBad = [] → ∀ a, (a < c.word ∨ c.word + 4 ≤ a) → u.mem.get .cistern a = s.mem.get .cistern a))
  ∧ (∀ (t : Fin 4) (s : State) r h c e, s.stalled = false → s.tes.front t s.mem s.kv = some (r, h, c, e) → c.opcode = 0x51 → s.mem.poisoned .cistern c.word 4 = false →
      (s.mem.readNat .cistern c.word 4 = ((r.launch.frame - BitVec.ofNat 32 c.prev).toNat * 256 + c.tag) % 4294967296 → elapsed s.tb.now r.cmdAt (c.timeout * 8000 + 1) = false → ∃ u, exec (.wait t) s = .next u ∧ u.mem = s.mem ∧
        Only [.ev, .tes] s u ∧ u.tes.te[t].run = some { r with ran := r.ran + 1, cmdAt := s.tb.now }) ∧
      (s.mem.readNat .cistern c.word 4 ≠ ((r.launch.frame - BitVec.ofNat 32 c.prev).toNat * 256 + c.tag) % 4294967296 ∨ elapsed s.tb.now r.cmdAt (c.timeout * 8000 + 1) = true → exec (.wait t) s = .next s ∧
        (elapsed s.tb.now r.cmdAt (c.timeout * 8000) = true → ∃ u, exec (.waitTimeout t) s = .next u ∧ Only [.ev, .tes] s u ∧
          u.tes.te[t].run = some { r with status := .stopped, cmdAt := s.tb.now } ∧ u.ev = s.ev.raise (evt .syncTimeout (61 + 6 * t.val) (4 * t.val + r.queue.val) c.word))))
  ∧ (∀ (t : Fin 4) (s : State) r h c e, s.stalled = false → s.tes.front t s.mem s.kv = some (r, h, c, e) → c.opcode = 0x51 → s.mem.poisoned .cistern c.word 4 = true →
      elapsed s.tb.now r.cmdAt (c.timeout * 8000 + 1) = false → ∃ u, exec (.wait t) s = .next u ∧ u.mem = s.mem ∧ Only [.ev, .tes] s u ∧
      u.tes.te[t].run = some { r with ran := r.ran + 1, cmdAt := s.tb.now, status := .stopped })
  ∧ (∀ (t : Fin 4) (s : State) r h c e, s.stalled = false → s.tes.front t s.mem s.kv = some (r, h, c, e) → c.opcode = 0x60 → (e.tens c 0).poisoned s.mem = false → ∃ u z, exec (.digest t .clean) s = .next u ∧
      Only [.ev, .tes, .mem] s u ∧ u.tes.te[t].run = some z ∧ z.ran = r.ran + 1 ∧ z.flags = r.flags ∧ z.status = r.status ∧
      (fieldNat (c.param 0) 0 1 = 1 → u.mem = s.mem ∧ z.golden = sha256 (r.golden ++ sha256 ((e.tens c 0).stream s.mem))) ∧ (fieldNat (c.param 0) 0 1 = 0 → z.golden = r.golden))
  ∧ (∀ (t : Fin 4) (s : State) r h c e, s.stalled = false → s.tes.front t s.mem s.kv = some (r, h, c, e) → c.opcode = 0x61 → ∃ u z, exec (.goldenCheck t) s = .next u ∧ Only [.ev, .tes] s u ∧
      u.tes.te[t].run = some z ∧ z.ran = r.ran + 1 ∧ z.golden = r.golden ∧ (r.golden = h.expectDigest → r.flags = h.expectFlags → z.status = r.status ∧ u.ev = s.ev) ∧
      ((r.golden ≠ h.expectDigest ∨ r.flags ≠ h.expectFlags) → z.status = .goldenFail ∧ u.ev = s.ev.raise (evt .goldenFail (61 + 6 * t.val) (4 * t.val + r.queue.val)
        ((if r.golden = h.expectDigest then 0 else 1) + (if r.flags = h.expectFlags then 0 else 2)))))

/-- The set of states in which no command flume of any engine holds more than 16 entries, and every model slot lies in the Cistern or in
LPDDR5X, is left by no command and no step; the reset state is in it. In it no write through a model slot reaches a local buffer. (R276, R281, R291, R478) -/
def Obligations.EnginesStayInTheirBounds : Prop :=
  let inv : State → Prop := fun s => (∀ t q : Fin 4, (s.tes.te[t].flume[q]).length ≤ 16) ∧ (∀ (i : Fin 64) x, s.tes.slots[i] = some x → x.space = .cistern ∨ x.space = .dram)
  inv State.reset ∧ (∀ (c : Instr) (s t : State), inv s → exec c s = .next t → inv t) ∧ Kept inv

/-- Outside a Replay stall. CB_HIT_ENTRY takes the core at the input's head; a hit inside the window with a decided reference pose sets its
cell's LAST_HIT to the later time and no other cell; outside it counts. CB_SEEN_MARKING takes the record at the head and changes no
LAST_HIT; at a SWEEP_END of an ACTIVE POINTS stream it waits while a covered sector's pose answer is missing, then ends the sweep.
GRID_RECENTRE centres the window on the live record; a cell in both windows keeps its times, one that enters holds NEVER. GRID_SCRUB changes
no cell but the next in storage order, whose times of 16,384 ms or more become NEVER. CB_ECC of a cell sets it to NEVER and raises CB_ECC;
elsewhere in Channel B's memory it raises CB_MEM_UE. (R384, R385, R386, R387, R473) -/
def Obligations.GridKeepsHitsAndSeenTimes : Prop :=
  (∀ (s : State) k rest ref, s.stalled = false → s.cb.input = .hit k :: rest → s.cb.installed = true → s.cb.cfg.isHit k = true → s.pau.refFor k.frame = some (some ref) → ∃ t, exec .cbHitEntry s = .next t ∧
      t.cb.input = rest ∧ Only [.cb] s t ∧ ∃ x y n, hitAt k ref = (x, y, n) ∧
      (s.cb.grid.inWindow s.cb.cfg (s.cb.cfg.index x) (s.cb.cfg.index y) = false → t.cb.grid = s.cb.grid ∧ t.cb.out = bump s.cb.out) ∧
      (s.cb.grid.inWindow s.cb.cfg (s.cb.cfg.index x) (s.cb.cfg.index y) = true → t.cb.out = s.cb.out ∧ t.cb.grid.ci = s.cb.grid.ci ∧ t.cb.grid.cj = s.cb.grid.cj ∧ ∀ p,
        gridGet t.cb.grid.cells p = if p = s.cb.cfg.place (s.cb.cfg.index x) (s.cb.cfg.index y)
          then { gridGet s.cb.grid.cells p with hit := laterMs (hitMs k.tov) (gridGet s.cb.grid.cells p).hit } else gridGet s.cb.grid.cells p))
  ∧ (∀ (s : State) r k rest, s.stalled = false → s.cb.input = .mark r k :: rest → ∃ t, exec .cbSeenMarking s = .next t ∧ Only [.ev, .pl, .cb] s t ∧ (t = s ∨ t.cb.input = rest) ∧
      t.cb.grid.ci = s.cb.grid.ci ∧ t.cb.grid.cj = s.cb.grid.cj ∧ (∀ p, (gridGet t.cb.grid.cells p).hit = (gridGet s.cb.grid.cells p).hit) ∧
      (∀ new old y, r.body = .state new old y → t.cb = { s.cb with input := rest, streams := s.cb.streams.set k new }) ∧
      (∀ cov pa no, r.body = .sweepEnd cov pa no → s.cb.streams[k] ≠ .active → t.cb = { s.cb with input := rest, sweep := s.cb.sweep.set k [] }) ∧
      (∀ cov pa no c, r.body = .sweepEnd cov pa no → s.cb.streams[k] = .active → s.cb.installed = true → s.pau.rs[k] = some c → s.isDepth c.geo.hg = false →
        ((∃ a ∈ s.cb.coveredSectors k cov r.tov, s.sectorPose a = none) → t = s) ∧ ((∀ a ∈ s.cb.coveredSectors k cov r.tov, s.sectorPose a ≠ none) →
          t.cb.input = rest ∧ t.cb.sweep = s.cb.sweep.set k [] ∧ t.cb.out = s.cb.out ∧ t.cb.table = s.cb.table)))
  ∧ (∀ (s : State) live, s.stalled = false → s.enrolled = true → s.cb.installed = true → 0 < s.cb.cfg.size → live = s.pl.checked (s.pl.liveAt (BitVec.ofNat 64 (s.tb.now.toNat / 8000000 * 8000000))).1 → live.valid = true →
      ∃ t, exec .gridRecentre s = .next t ∧ Only [.cb] s t ∧ t.cb.grid.ci = s.cb.cfg.index live.x.toInt ∧ t.cb.grid.cj = s.cb.cfg.index live.y.toInt ∧
      ∀ i j, t.cb.grid.inWindow s.cb.cfg i j = true → gridGet t.cb.grid.cells (s.cb.cfg.place i j) =
        if s.cb.grid.inWindow s.cb.cfg i j then gridGet s.cb.grid.cells (s.cb.cfg.place i j) else {})
  ∧ (∀ s : State, s.stalled = false → s.enrolled = true → s.cb.installed = true → (s.cb.grid.cells.map (·.1)).Pairwise (· < ·) → ∃ t, exec .gridScrub s = .next t ∧ Only [.cb] s t ∧
      t.cb.scrubAt = (s.cb.scrubAt + 1) % (s.cb.cfg.size * s.cb.cfg.size) ∧ (∀ p, p ≠ s.cb.scrubAt → gridGet t.cb.grid.cells p = gridGet s.cb.grid.cells p) ∧
      (gridGet t.cb.grid.cells s.cb.scrubAt).hit = (if 131072000000 ≤ ageTicks s.tb.now (gridGet s.cb.grid.cells s.cb.scrubAt).hit then never else (gridGet s.cb.grid.cells s.cb.scrubAt).hit) ∧
      (gridGet t.cb.grid.cells s.cb.scrubAt).seen = (if 131072000000 ≤ ageTicks s.tb.now (gridGet s.cb.grid.cells s.cb.scrubAt).seen then never else (gridGet s.cb.grid.cells s.cb.scrubAt).seen))
  ∧ (∀ (a b : Nat) (s : State), s.stalled = false → s.enrolled = true → a < s.cb.cfg.size → b < s.cb.cfg.size → (s.cb.grid.cells.map (·.1)).Pairwise (· < ·) → ∃ t, exec (.cbEcc (some (a, b))) s = .next t ∧
      Only [.ev, .cb] s t ∧ t.ev = s.ev.raise (evtOpen .cbEcc 125 0) ∧ gridGet t.cb.grid.cells (a * s.cb.cfg.size + b) = {} ∧
      ∀ p, p ≠ a * s.cb.cfg.size + b → gridGet t.cb.grid.cells p = gridGet s.cb.grid.cells p)
  ∧ (∀ s : State, s.stalled = false → s.enrolled = true → exec (.cbEcc none) s = .next { s with ev := s.ev.raise (evtOpen .cbMemUe 125 0) })

/-- Outside a Replay stall. TABLE_START, with none in computation and that of this instant not yet done, begins the table of the latest multiple
of TABLE_PERIOD with one entry for each bin, VALID from S1 on; while an older one is in computation that multiple is skipped, which counts
and raises CB_TABLE_LATE, once. TABLE_SWAP puts the completed table in the Guard's buffer. Either of the two raises CB_TABLE_LATE as well,
once for a table, where more than 150 µs have passed since its instant before its swap. WEIR_TASK of a running launch finishes it and gives
one verdict for its frame, NO_SUMMARY where the summary is not valid, by this rule: CONFLICT sets the hold; it and NO_SUMMARY in S3 raise
their event, lengthen the run of their own verdict and, where the run is C2_COUNT, raise WEIR_DIVERGE; NO_SUMMARY before S3 raises nothing;
MISMATCH raises its event; CLEAR_FRAMES verdicts of AGREE or MISMATCH in a row clear the hold, fewer leave it; CONFLICT and NO_SUMMARY make
the Guard's summary unusable. (R389, R390, R394, R395) -/
def Obligations.TablesAndVerdicts : Prop :=
  (∀ (s : State) T, s.stalled = false → T = BitVec.ofNat 64 (s.tb.now.toNat / 8000 / s.cb.cfg.tablePeriod * s.cb.cfg.tablePeriod * 8000) → s.enrolled = true → s.cb.installed = true →
      s.cb.building = none → (s.cb.table.t ≠ T ∨ s.cb.table.kbins = 0) → ∃ t x, exec .tableStart s = .next t ∧ t.cb = { s.cb with building := some x, sat := t.cb.sat } ∧
      x.t = T ∧ x.kbins = s.cb.cfg.kbins ∧ x.entries.length = s.cb.cfg.kbins ∧ (x.valid = true ↔ s.bcc.stage ≠ 0) ∧ Only [.pl, .cb] s t)
  ∧ (∀ (s : State) x, s.cb.building = some x → s.tableLate = if s.cb.lateAt ≠ some x.t ∧ tLater s.tb.now (x.t + us 150) = true then
      { s with cb := { s.cb with lateAt := some x.t, tableLate := bump s.cb.tableLate }, ev := s.ev.raise (evtOpen .cbTableLate 124 0) } else s)
  ∧ (∀ (s : State) x T u, s.stalled = false → s.enrolled = true → s.cb.installed = true → s.cb.building = some x →
      T = BitVec.ofNat 64 (s.tb.now.toNat / 8000 / s.cb.cfg.tablePeriod * s.cb.cfg.tablePeriod * 8000) → u = s.tableLate → exec .tableStart s = .next (if x.t = T ∨ s.cb.skipAt = some T then u else
        { u with cb := { u.cb with skipAt := some T, tableLate := bump u.cb.tableLate }, ev := u.ev.raise (evtOpen .cbTableLate 124 0) }))
  ∧ (∀ (s : State) x, s.stalled = false → s.cb.building = some x → ∃ t, exec .tableSwap s = .next t ∧ t.cb.building = none ∧ t.cb.table = x ∧ t.cb.grid = s.cb.grid ∧ t.cb.tables = bump s.cb.tables ∧ t.ev = s.tableLate.ev ∧ Only [.ev, .cb, .guard] s t ∧ t.guard.cfg = s.guard.cfg ∧ t.guard.word = s.guard.word)
  ∧ (∀ (s : State) n e j l, s.stalled = false → s.seq.busy[3] = some (n, e, j) → (n, e, j) ∉ s.seq.finished → s.seq.find n e j = some l → l.outcome = .running →
      ∃ t x v d, exec .weirTask s = .next t ∧ Only [.ev, .seq, .weir, .guard] s t ∧ t.seq = { s.seq with finished := s.seq.finished ++ [(n, e, j)] } ∧
      t.weir = (({ s with weir := { s.weir with summary := x } } : State).giveVerdict v n d).weir ∧ t.ev = (s.giveVerdict v n d).ev ∧ (x.valid = false → v = .noSummary))
  ∧ (∀ (s t : State) v n d, t = s.giveVerdict v n d → t.weir.verdict = some v ∧ t.weir.given = some v ∧ t.weir.frame = some n ∧
      ((v = .conflict ∨ v = .noSummary) → t.weir.summary.valid = false ∧ t.weir.clearRun = 0) ∧ (v = .conflict → t.weir.hold = true) ∧ (v = .noSummary → t.weir.hold = s.weir.hold) ∧
      ((v = .agree ∨ v = .mismatch) → t.weir.clearRun.toNat = min 255 (s.weir.clearRun.toNat + 1) ∧ t.weir.conflictRun = 0 ∧ t.weir.summary = s.weir.summary ∧
        (s.weir.hold = false → t.weir.hold = false) ∧ (s.weir.hold = true → (t.weir.hold = false ↔ s.guard.cfg.clearFrames ≤ min 255 (s.weir.clearRun.toNat + 1)))) ∧
      (v = .agree → t.ev = s.ev) ∧ (v = .mismatch → t.ev = s.ev.raise (evt .weirMismatch 128 0 d)) ∧ (v = .noSummary → s.bcc.stage ≠ 3 → t.weir.conflictRun = 0 ∧ t.ev = s.ev) ∧
      ((v = .conflict ∨ (v = .noSummary ∧ s.bcc.stage = 3)) → t.weir.conflictRun.toNat = (if s.weir.verdict = some v then min 255 (s.weir.conflictRun.toNat + 1) else 1) ∧
        t.ev = s.ev.raiseAll ((if v = .conflict then evt .weirConflict 128 0 d else evt .weirNoSummary 128 0 d) ::
          if t.weir.conflictRun.toNat = s.guard.cfg.c2Count then [evt .weirDiverge 128 0 d] else [])))

/-- Outside a Replay stall, from S1 on, GUARD_CYCLE_LATCH gives one word for each Gₖ, with K the whole microseconds of Gₖ, from its inputs, the
stage among them, as they stood at Gₖ. With no memory error V_FWD is at most V_CAP, in S1 REDUCED_CAP, in S2 S2_CAP, and in the C2 state
DEGRADED_CAP for both speeds; without a valid live record, or where its CRC fails, both are 0, without a valid table V_FWD is 0. Under C3
the word is invalid with both 0. A lockstep mismatch or a late word gives the fallback: invalid, K = k, CLASS C3, no speed, no curvature.
Outside Replay, 700 ns after Gₖ both ports send one frame of 40 bytes with SYNC and the CRC-32C of what stands before it: bit j of byte b on
data lane j mod 2 at bit time 4b + j/2 of 5 ns, the lanes low between frames; the forwarded clock runs once the clocks are enrolled, and not
in Replay mode. (R396, R397, R398, R399, R400, R402, R411, R420) -/
def Obligations.GuardWordsPermitNoMoreThanTheCaps : Prop :=
  (∀ (ecc : EccFind) cb (s a : State), s.stalled = false → s.guardRuns = true → s.guard.latched ≠ some s.latestG → ecc ≠ .uncorrectable → a = s.atLatch s.latestG →
      ∃ t w, exec (.guardCycleLatch true ecc cb) s = .next t ∧
      t.guard.word = some w ∧ w.k.toNat = s.tb.now.toNat / 8000 ∧ w.stage = a.bcc.stage ∧ t.guard.latched = some s.latestG ∧ t.guard.fallback = false ∧
      Only [.ev, .tb, .capture, .mem, .guard, .safety, .qnt, .out] s t ∧ (w.valid = true ↔ a.c3 = false) ∧ (a.c3 = true → w.vFwd = 0 ∧ w.vRev = 0 ∧ w.limit = .invalid) ∧
      w.vFwd.toNat ≤ s.guard.cfg.vCap ∧ (a.bcc.stage = 1 → w.vFwd.toNat ≤ s.safety.cfg.reducedCap ∧ w.vRev.toNat ≤ s.safety.cfg.reducedCap) ∧
      (a.bcc.stage = 2 → w.vFwd.toNat ≤ s.guard.cfg.s2Cap ∧ w.vRev.toNat ≤ s.guard.cfg.s2Cap) ∧ w.vRev.toNat ≤ s.guard.cfg.vRevCap ∧
      (a.safety.latchC2 = true → w.vFwd.toNat ≤ s.safety.cfg.degradedCap ∧ w.vRev.toNat ≤ s.safety.cfg.degradedCap) ∧ (cb = true ∨ a.pl.live.valid = false → w.vFwd = 0 ∧ w.vRev = 0) ∧
      (a.cb.table.valid = false → w.vFwd = 0))
  ∧ (∀ (b : Bool) (ecc : EccFind) cb (s : State), s.guard.latched = some s.latestG → exec (.guardCycleLatch b ecc cb) s = .next s)
  ∧ (∀ (ecc : EccFind) cb (s : State), s.stalled = false → s.guardRuns = true → s.guard.latched ≠ some s.latestG → ∃ t w, exec (.guardCycleLatch false ecc cb) s = .next t ∧ t.guard.word = some w ∧
      w.valid = false ∧ w.vFwd = 0 ∧ w.vRev = 0 ∧ w.kappaLo = 0 ∧ w.kappaHi = 0 ∧ w.limit = .invalid ∧ w.cls = 4 ∧ w.k.toNat = s.tb.now.toNat / 8000 ∧ t.guard.fallback = true ∧
      ∃ q : Sluice, t.ev = q.raise (evtOpen .guardLockstep 126 0))
  ∧ (∀ s : State, s.stalled = false → s.guardRuns = true → s.guard.latched ≠ some s.latestG → tReached s.tb.now (s.latestG + 5600) = true → ∃ t w, exec .guardLate s = .next t ∧ t.guard.word = some w ∧
      w.valid = false ∧ w.vFwd = 0 ∧ w.vRev = 0 ∧ w.limit = .invalid ∧ w.cls = 4 ∧ w.k.toNat = s.tb.now.toNat / 8000 ∧ t.guard.fallback = true ∧
      t.ev = s.ev.raise (evtOpen .guardLate 126 0) ∧ Only [.ev, .guard] s t)
  ∧ (∀ (s : State) w, s.stalled = false → s.guard.word = some w → s.guardRuns = true → s.isl.cfg.replay = false → tReached s.tb.now (BitVec.ofNat 64 (w.k.toNat * 8000) + 5600) = true →
      ((s.guard.sent[0] = none ∧ w.valid = true) ∨ ∃ f, s.guard.sent[0] = some f ∧ f.start ≠ BitVec.ofNat 64 (w.k.toNat * 8000) + 5600) → ∃ t, exec .guardPortFrame s = .next t ∧
      Only [.guard] s t ∧ t.guard.word = some w ∧ ∀ p : Fin 2, ∃ b, t.guard.sent[p] = some ⟨BitVec.ofNat 64 (w.k.toNat * 8000) + 5600, b⟩ ∧ b.length = 40 ∧ leNat (b.take 2) = 0x6D2B ∧
        (b.drop 4).take 32 = w.core ∧ b.drop 36 = leBytes 4 (crc32c (b.take 36)))
  ∧ (∀ (s : State) (p lane : Fin 2) t, (s.guard.sent[p] = none → s.guardLane p lane t = false) ∧ ∀ f, s.guard.sent[p] = some f →
      ((t - f.start).toInt < 0 ∨ 6400 ≤ (t - f.start).toInt → s.guardLane p lane t = false) ∧ ∀ b q : Nat, q < 4 → b < 40 → t = f.start + BitVec.ofNat 64 (40 * (4 * b + q)) →
        s.guardLane p lane t = (f.bytes.getD b 0).getLsbD (2 * q + lane.val))
  ∧ (∀ (s : State) (t : T64), s.guardClock t = true ↔ s.enrolled = true ∧ s.isl.cfg.replay = false ∧ 20 ≤ t.toNat % 80 ∧ t.toNat % 80 < 60)

/-- Whatever command runs, other than RESET_ASSERT, a C3 latch that is set stays set, a state SAFE stays SAFE, and a supervisor held in reset
stays held. The C2 latch is cleared by no command but C2_RELEASE, and by that only in DEGRADED with no C2 event in the frame. A step keeps
both C3 latches and SAFE where they stand, unless the command in front is RESET_ASSERT. (R407, R409, R415, R418, R423) -/
def Obligations.SafetyLatchesClearOnlyByReset : Prop :=
  (∀ (c : Instr) (s t : State), c ≠ .resetAssert → exec c s = .next t →
      (s.safety.latchA = true → t.safety.latchA = true) ∧ (s.safety.latchB = true → t.safety.latchB = true) ∧ (s.safety.st = .safe → t.safety.st = .safe) ∧
      (∀ i : Fin 2, s.safety.sup[i].lost = true → t.safety.sup[i].lost = true) ∧
      (s.safety.latchC2 = true → t.safety.latchC2 = true ∨ (c = .c2Release ∧ s.safety.st = .degraded ∧ s.ev.c2InFrame = false)))
  ∧ (∀ (s t : State), (∀ rest, s.pending ≠ .resetAssert :: rest) → s.safety.latchA = true → s.safety.latchB = true → s.safety.st = .safe → step s = .next t →
      t.safety.latchA = true ∧ t.safety.latchB = true ∧ t.safety.st = .safe)

/-- Outside a Replay stall and reset. FAULT_COLLECTION with a C3 line of path A or B asserted by a powered, enrolled island, outside SAFE, sets
the C3 latch of each path whose lines are, and the state SAFE, raises SAFETY_STATE with DATA 2 first, empties every engine queue, leaves no
launch running, frees every unit but the PCU and the Tracker in a task that is not done (whose launch is then aborted, to end at a step
boundary), marks the motion command invalid, and ends a load that goes on; so FAULT_N is low. With a C2 line and no C3 line in NORMAL it
sets the C2 latch and DEGRADED with DATA 1, in each live supervisor's copy too, and changes nothing else but the Guard's copies of its
inputs (R29), unless a release waits for its Gₖ with no C2 event in the frame. In SAFE it only sets the latches of the lines asserted. With
no line it changes nothing. C2_RELEASE returns DEGRADED to NORMAL under R409's conditions and clears the C2 latch, one release counted, with
C2_RELEASE raised, and changes nothing otherwise. SAFE_OK_STUCK of a pin sets both C3 latches and SAFE and raises its event, once for that
pin. (R284, R407, R409, R410, R411, R412, R415, R417) -/
def Obligations.CollectionEntersTheSafetyStates : Prop :=
  (∀ s : State, s.stalled = false → s.tb.running = true → (s.c3Lines = true ∨ s.c3LinesB = true) → s.safety.st ≠ .safe → ∃ t es, exec .faultCollection s = .next t ∧
      t.safety.latchA = (s.safety.latchA || s.c3Lines) ∧ t.safety.latchB = (s.safety.latchB || s.c3LinesB) ∧
      t.safety.st = .safe ∧ t.safety.latchC2 = (s.safety.latchC2 || (s.c2Lines && (!s.safety.releaseDue || s.ev.c2InFrame))) ∧ t.safety.c3At = some s.tb.now ∧ t.faultLow = true ∧
      t.ev = (s.ev.raise (evt .safetyState 143 0 2)).raiseAll es ∧ (∀ e ∈ es, e.kind = .queueFlush) ∧ (∀ (k q : Fin 4), t.tes.te[k].flume[q] = []) ∧
      (∀ l ∈ t.seq.launches, l.outcome ≠ .running) ∧
      (∀ u : Fin 6, (∀ x, s.seq.busy[u] = some x → 2 ≤ u.val ∨ x ∈ s.seq.finished) → t.seq.busy[u] = none) ∧
      (∀ (u : Fin 6) x, u.val < 2 → s.seq.busy[u] = some x → x ∉ s.seq.finished → t.seq.busy[u] = some x ∧ ∀ l ∈ t.seq.launches, (l.frame, l.entry, l.j) = x → l.aborted = true) ∧
      (s.bcc.result = .reading → t.bcc.result = .c3) ∧ (s.bcc.result ≠ .reading → t.bcc = s.bcc) ∧
      t.qsa.cmd.valid = false ∧ Only [.ev, .seq, .tes, .qsa, .guard, .safety, .bcc] s t)
  ∧ (∀ s : State, s.stalled = false → s.tb.running = true → s.c3Lines = false → s.c3LinesB = false → s.c2Lines = true → s.safety.st = .normal → (s.safety.releaseDue = false ∨ s.ev.c2InFrame = true) →
      ∃ t, exec .faultCollection s = .next t ∧ t.safety = { s.safety with sup := t.safety.sup, latchC2 := true, st := .degraded, c2At := some s.tb.now, clear := 0, releaseDue := false } ∧
      (∀ k : Fin 2, t.safety.sup[k] = if s.safety.sup[k].lost then s.safety.sup[k] else { s.safety.sup[k] with st := .degraded }) ∧
      t.ev = s.ev.raise (evt .safetyState 143 0 1) ∧ t.guard = { s.guard with copyAt := t.guard.copyAt, copies := t.guard.copies } ∧ Only [.ev, .guard, .safety] s t)
  ∧ (∀ s : State, s.stalled = false → s.tb.running = true → s.safety.st = .safe → ∃ t, exec .faultCollection s = .next t ∧
      t.safety = { s.safety with latchA := s.safety.latchA || s.c3Lines, latchB := s.safety.latchB || s.c3LinesB, latchC2 := t.safety.latchC2 } ∧ Only [.guard, .safety] s t ∧
      (s.c3Lines = true ∨ s.c3LinesB = true → t.safety.latchC2 = (s.safety.latchC2 || (s.c2Lines && (!s.safety.releaseDue || s.ev.c2InFrame)))) ∧
      (s.c3Lines = false → s.c3LinesB = false → t = s))
  ∧ (∀ s : State, s.c3Lines = false → s.c3LinesB = false → s.c2Lines = false → exec .faultCollection s = .next s)
  ∧ (∀ s : State, s.stalled = false → s.safety.st = .degraded → s.safety.cfg.c2Rearm = true → s.safety.releases.toNat < s.safety.cfg.c2RearmMax → s.safety.cfg.c2Clear ≤ s.safety.clear → s.ev.c2InFrame = false →
      ∃ t, exec .c2Release s = .next t ∧ Only [.ev, .guard, .safety] s t ∧ t.ev = s.ev.raise (evtOpen .c2Release 143 0) ∧
      t.safety = { s.safety with sup := t.safety.sup, st := .normal, latchC2 := false, releases := s.safety.releases + 1, clear := 0, releaseDue := true } ∧
      (∀ k : Fin 2, t.safety.sup[k] = if s.safety.sup[k].lost then s.safety.sup[k] else { s.safety.sup[k] with st := .normal }) ∧
      t.guard = { s.guard with copyAt := t.guard.copyAt, copies := t.guard.copies })
  ∧ (∀ s : State, (s.safety.st ≠ .degraded ∨ s.safety.cfg.c2Rearm = false ∨ s.safety.cfg.c2RearmMax ≤ s.safety.releases.toNat ∨ s.safety.clear < s.safety.cfg.c2Clear ∨ s.ev.c2InFrame = true) →
      exec .c2Release s = .next s)
  ∧ (∀ (p : Bool) (i : Fin 2) (s : State), i.val = p.toNat → s.stalled = false → s.tb.running = true → s.safety.okStuck[i] = false → s.safety.st ≠ .safe → ∃ t es, exec (.safeOkStuck p) s = .next t ∧
      t.safety.latchA = true ∧ t.safety.latchB = true ∧ t.safety.st = .safe ∧ t.safety.okStuck = s.safety.okStuck.set i true ∧ t.faultLow = true ∧
      t.ev = (s.ev.raise (evtOpen .safeOkStuck 143 p.toNat)).raiseAll es ∧ t.qsa.cmd.valid = false ∧ Only [.ev, .seq, .tes, .qsa, .guard, .safety, .bcc] s t ∧
      exec (.safeOkStuck p) t = .next t)
  ∧ (∀ (p : Bool) (i : Fin 2) (s : State), i.val = p.toNat → s.stalled = false → s.tb.running = true → s.safety.okStuck[i] = false → s.safety.st = .safe → ∃ t, exec (.safeOkStuck p) s = .next t ∧
      t.safety = { s.safety with okStuck := s.safety.okStuck.set i true, latchA := true, latchB := true } ∧ t.ev = s.ev.raise (evtOpen .safeOkStuck 143 p.toNat) ∧ Only [.ev, .guard, .safety] s t)

/-- Outside a Replay stall. A heartbeat of a supervisor not lost, 10 µs after its one before and not sooner, records the SEQ processed and its
digest, kicks its watchdog and changes no other supervisor; the second of its heartbeats in a row to differ at equal SEQ makes BOTH
CHECKING. A self-check that one fails loses it with SUPERVISOR_LOST and leaves ONE; one that both pass or fail returns BOTH and raises
SUPERVISOR_DISAGREE from each. In BOTH 30 µs without a heartbeat loses the silent one. A kick absent for 50 µs loses the supervisor; with
none left, both C3 latches are set, the state is SAFE and SUPERVISORS_LOST is raised. Slice n mod 2,048 runs once in frame n: skipped and
counted where its checker's island is unpowered, else passed where the injected fault is reported with the TEST tag, or failed with
SELFTEST_FAIL, the result kept in each live supervisor's copy. (R418, R422, R423, R424, R425) -/
def Obligations.SupervisorsAndSelfTests : Prop :=
  (∀ (i : Fin 2) d (s : State), s.stalled = false → s.enrolled = true → s.safety.sup[i].lost = false → elapsed s.tb.now s.safety.sup[i].beatAt 80000 = true → ∃ t, exec (.supervisorHeartbeat i d) s = .next t ∧ Only [.ev, .safety] s t ∧
      t.safety.sup[i] = { s.safety.sup[i] with beat := some (s.ev.current, d), beatAt := s.tb.now, kickAt := s.tb.now } ∧ (∀ k : Fin 2, k ≠ i → t.safety.sup[k] = s.safety.sup[k]) ∧
      t.safety.st = s.safety.st ∧ t.ev.intake = s.ev.intake ∧
      (s.safety.pair = .both → (t.safety.pair = .checking ↔ 2 ≤ s.safety.differRun i s.ev.current d)) ∧ (s.safety.pair ≠ .both → t.safety.pair = s.safety.pair))
  ∧ (∀ (i : Fin 2) d (s : State), elapsed s.tb.now s.safety.sup[i].beatAt 80000 = false → exec (.supervisorHeartbeat i d) s = .next s)
  ∧ (∀ (i k : Fin 2) q d p e (s : State), k ≠ i → s.safety.sup[k].beat = some (p, e) → s.safety.differRun i q d = if p = q then (if d = e then 0 else s.safety.differ[i] + 1) else s.safety.differ[i])
  ∧ (∀ (a b : Bool) (s : State), s.stalled = false → s.safety.pair = .checking → ∃ t, exec (.supervisorSelfCheck a b) s = .next t ∧ Only [.ev, .safety] s t ∧
      (a = b → t.safety.pair = .both ∧ t.ev = (s.ev.raise (evtOpen .supervisorDisagree 130 0)).raise (evtOpen .supervisorDisagree 131 1)) ∧
      (a ≠ b → t.safety.pair = .one ∧ t.safety.sup[0].lost = (s.safety.sup[0].lost || !a) ∧ t.safety.sup[1].lost = (s.safety.sup[1].lost || !b) ∧
        t.ev = s.ev.raise (if a then evt .supervisorLost 130 1 1 else evt .supervisorLost 131 0 0)))
  ∧ (∀ (i : Fin 2) (s : State), s.stalled = false → s.enrolled = true → s.safety.pair = .both → elapsed s.tb.now s.safety.sup[i].beatAt 240000 = true → ∃ t, exec (.heartbeatAbsent i) s = .next t ∧
      Only [.ev, .safety] s t ∧ t.safety.pair = .one ∧ t.safety.sup[i].lost = true ∧ (∀ k : Fin 2, k ≠ i → t.safety.sup[k] = s.safety.sup[k]) ∧
      t.ev = s.ev.raise (evt .supervisorLost (if i = 0 then 131 else 130) i.val i.val))
  ∧ (∀ (i k : Fin 2) (s : State), s.stalled = false → k ≠ i → s.enrolled = true → s.safety.sup[i].lost = false → elapsed s.tb.now s.safety.sup[i].kickAt 400000 = true →
      ∃ t, exec (.supervisorWatchdogExpiry i) s = .next t ∧ t.safety.sup[i].lost = true ∧ t.safety.pair = .one ∧
      (s.safety.sup[k].lost = false → elapsed s.tb.now s.safety.sup[k].kickAt 400000 = false → t.safety.sup[k] = s.safety.sup[k] ∧ t.safety.st = s.safety.st ∧
        t.ev = s.ev.raise (evt .supervisorLost 143 i.val i.val) ∧ Only [.ev, .safety] s t) ∧
      (s.safety.sup[k].lost = true → t.safety.latchA = true ∧ t.safety.latchB = true ∧ t.safety.st = .safe ∧ t.safety.supsLost = true ∧
        ∃ es, t.ev = ((s.ev.raise (evt .supervisorLost 143 i.val i.val)).raise (evtOpen .supervisorsLost 143 0)).raiseAll es))
  ∧ (∀ (r g : Bool) (s : State) f, s.stalled = false → s.tb.frame = some f → s.enrolled = true → s.safety.supsLost = false → s.safety.sliceFrame ≠ some f.no →
      tReached s.tb.now (f.b + us s.safety.cfg.stOffset) = true → ∃ t, exec (.selfTestSlice r g) s = .next t ∧ Only [.ev, .safety] s t ∧ t.safety.sliceFrame = some f.no ∧
      t.safety.slice.toNat = f.no.toNat % 2048 ∧ ∀ g' c' isl, sliceOf (f.no.toNat % 2048) = (g', c') → isl = checkerIsland g' c' →
      (s.isl.powered[isl] = false → t.safety.skip = bump s.safety.skip ∧ t.ev = s.ev ∧ t.safety.sup = s.safety.sup) ∧
      (s.isl.powered[isl] = true → t.safety.slicePass = (r && g) ∧ ((r && g) = true → t.ev = s.ev ∧ t.safety.selftestFail = s.safety.selftestFail) ∧
        ((r && g) = false → t.safety.selftestFail = bump s.safety.selftestFail ∧ ∃ e, t.ev = s.ev.raise e ∧ e.kind = .selftestFail ∧ e.inst = g' ∧ e.data = Config.checkerNumber g' c' ∧
          e.cls = sliceClass g' isl.val) ∧ ∀ k : Fin 2, s.safety.sup[k].lost = false → t.safety.sup[k].test = some (BitVec.ofNat 11 (f.no.toNat % 2048), r && g)) ∧
      exec (.selfTestSlice r g) t = .next t)

/-- QANAT_LINK_UP opens the next session; the loss of any lane's block lock takes the link down. A cell with a wrong CRC or a reserved type
counts in QNT_CRC_ERR; one of another session than the peer's HELLO of this link-up, or before that HELLO (a HELLO apart, the model's
choice), in STALE_ID; both change nothing else. A passed HELLO or STATUS of one cell is kept; a HELLO left over of the session before the
link loss is not (the model's choice, log entry 127). A message is complete when the cells of its type came in order; a cell that does not
continue its type's message drops that whole. HELLO and STATUS are sent when due as one cell, a guard word once as two, of 64 bytes, the
last four of each the CRC-32C of the rest; behind the cells of the latest message the line carries IDLE cells, counted in IDLE's sequence. (R428, R429, R430, R431, R432) -/
def Obligations.QanatCellsAndMessages : Prop :=
  (∀ s : State, s.twinLive = true → s.qnt.linkUp = false → ∃ t, exec .qanatLinkUp s = .next t ∧ Only [.qnt] s t ∧ t.qnt.linkUp = true ∧ t.qnt.helloSeen = false ∧
      t.qnt.lastCell = s.qnt.lastCell ∧ t.qnt.linkAt = s.tb.now ∧ t.qnt.sent = none ∧ t.qnt.partial_ = [] ∧ t.qnt.reported = none ∧ t.qnt.bothSince = none ∧ t.qnt.pair = s.qnt.pair ∧ t.qnt.role = s.qnt.role ∧ (s.qnt.session = none → t.qnt.session = some 0) ∧
      (∀ x, s.qnt.session = some x → t.qnt.session = some (x + 1)))
  ∧ (∀ (l : Fin 4) (s : State), s.stalled = false → s.qnt.linkUp = true → exec (.laneBlockLockLoss l) s = .next { s with
      qnt := { s.qnt with linkUp := false, helloSeen := false, reported := none, bothSince := none, conflict := false, partial_ := [], linkLosses := bump s.qnt.linkLosses } })
  ∧ (∀ (c : Cell) (s : State), s.twinLive = true → s.qnt.linkUp = true → c.bytes.length = 64 →
      ((leNat (c.bytes.drop 60) ≠ crc32c (c.bytes.take 60) ∨ 6 ≤ fieldOf c.bytes 4 4) → exec (.qanatCellReceived c) s = .next { s with
        qnt := { s.qnt with crcErr := bump s.qnt.crcErr } }) ∧
      (leNat (c.bytes.drop 60) = crc32c (c.bytes.take 60) → fieldOf c.bytes 4 4 < 6 → fieldOf c.bytes 4 4 ≠ 1 →
        (s.qnt.helloSeen = false ∨ s.qnt.peerSession = none ∨ ∃ x, s.qnt.peerSession = some x ∧ x.toNat ≠ fieldOf c.bytes 8 8) →
        exec (.qanatCellReceived c) s = .next { s with qnt := { s.qnt with staleId := bump s.qnt.staleId } }) ∧
      (∀ h, leNat (c.bytes.drop 60) = crc32c (c.bytes.take 60) → fieldOf c.bytes 4 4 = 1 → fieldOf c.bytes 36 4 = 0 → c.hello = some h → ∃ t,
        exec (.qanatCellReceived c) s = .next t ∧ Only [.ev, .qnt, .guard] s t ∧ t.qnt.lastCell = s.tb.now ∧
        (s.qnt.helloSeen = true ∨ fieldOf c.bytes 8 8 = 0 ∨ s.qnt.peerSession.map (·.toNat) ≠ some (fieldOf c.bytes 8 8) →
          t.qnt.hello = some h ∧ t.qnt.helloSeen = true ∧ t.qnt.peerSession.map (·.toNat) = some (fieldOf c.bytes 8 8)) ∧
        (s.qnt.helloSeen = false → fieldOf c.bytes 8 8 ≠ 0 → s.qnt.peerSession.map (·.toNat) = some (fieldOf c.bytes 8 8) →
          t.qnt.hello = s.qnt.hello ∧ t.qnt.helloSeen = false ∧ t.qnt.peerSession = s.qnt.peerSession)) ∧
      (∀ h x, leNat (c.bytes.drop 60) = crc32c (c.bytes.take 60) → fieldOf c.bytes 4 4 = 4 → fieldOf c.bytes 36 4 = 0 → c.status = some h → s.qnt.helloSeen = true → s.qnt.peerSession = some x →
        x.toNat = fieldOf c.bytes 8 8 → ∃ t, exec (.qanatCellReceived c) s = .next t ∧ Only [.ev, .qnt, .guard] s t ∧ t.qnt.peerStatus = some h ∧ t.qnt.lastCell = s.tb.now))
  ∧ (∀ (q : Qanat) type seq parts p, 0 < parts → (q.assemble type seq 0 parts p).2 = none ∧
      (∀ x i, 0 < i → q.partial_.find? (fun (x : Partial) => x.type == type) = some x →
        (x.seq = seq → x.parts = parts → x.next = i → (q.assemble type seq i parts p).2 = if i = parts then some (x.bytes ++ p) else none) ∧
        ((x.seq ≠ seq ∨ x.parts ≠ parts ∨ x.next ≠ i) → (q.assemble type seq i parts p).2 = none ∧ ∀ y ∈ (q.assemble type seq i parts p).1.partial_, y.type ≠ type)) ∧
      (∀ i, 0 < i → (∀ x ∈ q.partial_, x.type ≠ type) → q.assemble type seq i parts p = (q, none)))
  ∧ (∀ (s : State) k p, (s.takeMessage 3 k p ⟨[], none, none⟩).qnt.peerGuard = p.take 80 ∧
      ((s.takeMessage 3 k p ⟨[], none, none⟩).qnt.wordGap = bump s.qnt.wordGap ↔ s.qnt.wordGap = BitVec.allOnes 32 ∨
        ∃ o, s.qnt.peerK = some o ∧ fieldOf p 32 32 + fieldOf p 512 32 * 2 ^ 32 ≠ o + 1))
  ∧ (∀ s : State, s.twinLive = true → s.qnt.linkUp = true →
      ((s.qnt.helloAt = none ∨ ∃ a, s.qnt.helloAt = some a ∧ elapsed s.tb.now a 8000000 = true) → ∃ t l, exec .helloSend s = .next t ∧ Only [.qnt] s t ∧ t.qnt.helloAt = some s.tb.now ∧
        t.qnt.sent = some (.hello ⟨s.twinId, 1, s.bcc.ovyar.1, s.bcc.ovyar.2, s.bcc.imageDigest⟩, l) ∧ l.length = 1 ∧
        t.qnt.seqs = (s.qnt.seqs.set 1 (s.qnt.seqs[1] + 1)).set 0 (s.qnt.seqs[0] + BitVec.ofNat 16 (s.qnt.idles s.tb.now)) ∧
        ∀ b ∈ l, b.length = 64 ∧ b.drop 60 = leBytes 4 (crc32c (b.take 60))) ∧
      ((s.qnt.statusAt = none ∨ ∃ a, s.qnt.statusAt = some a ∧ elapsed s.tb.now a 80000 = true) → ∃ t l, exec .statusSend s = .next t ∧ Only [.qnt] s t ∧ t.qnt.statusAt = some s.tb.now ∧
        t.qnt.sent = some (.status ⟨s.qnt.role, BitVec.ofNat 2 s.safety.st.code, s.pairCode, s.bcc.stage, s.epoch⟩, l) ∧ l.length = 1 ∧ t.qnt.reported = some s.qnt.role ∧
        ∀ b ∈ l, b.length = 64 ∧ b.drop 60 = leBytes 4 (crc32c (b.take 60))) ∧
      (∀ w, s.guard.word = some w → s.qnt.guardSent ≠ some w.k → ∃ t l, exec .guardMessageSend s = .next t ∧ Only [.qnt] s t ∧ t.qnt.sent = some (.guard w.bytes, l) ∧ l.length = 2 ∧
        (∀ b ∈ l, b.length = 64 ∧ b.drop 60 = leBytes 4 (crc32c (b.take 60))) ∧ exec .guardMessageSend t = .next t))
  ∧ (∀ (q : Qanat) (t : T64) m l, q.linkUp = true → q.sent = some (m, l) → 0 ≤ tDiff t q.sentAt →
      (∀ i b, l[i]? = some b → i = (tDiff t q.sentAt).toNat / 65 → q.lineCell t = some b) ∧
      (l.length ≤ (tDiff t q.sentAt).toNat / 65 → ∃ b, q.lineCell t = some b ∧ b.length = 64 ∧ b.head? = some 1 ∧ b.drop 60 = leBytes 4 (crc32c (b.take 60))))

/-- TWIN_ALIVE_TOGGLE toggles once for each whole microsecond, TWIN_SYNC_PULSE raises the line at Bₙ and lowers it 1 µs later, never in Replay
mode. An edge on an input is stamped; the distance of a rising edge of TWIN_SYNC_IN to the nearest own boundary (before the first, 0 or P)
is kept and sampled. The width gives a WITNESS pulse its code; another width counts in WITNESS_BAD and breaks the run; the third valid pulse
in a row with one code other than the role sets the role due at the next Gₖ. WITNESS_TIMEOUT without a valid pulse raises WITNESS_LOST once.
Both PRIMARY for 1 ms with the link up raises ROLE_CONFLICT once and changes nothing else. No command but GUARD_CYCLE_LATCH and RESET_ASSERT
changes a role, and the former only to the code that is due. (R433, R435, R436) -/
def Obligations.TwinLinesAndRole : Prop :=
  (∀ s : State, s.stalled = false → s.enrolled = true → s.replaying = false → s.qnt.aliveAt ≠ some (us (s.tb.now.toNat / 8000)) → ∃ t, t = { s with
      qnt := { s.qnt with aliveOut := !s.qnt.aliveOut, aliveAt := some (us (s.tb.now.toNat / 8000)) } } ∧ exec .twinAliveToggle s = .next t ∧ exec .twinAliveToggle t = .next t)
  ∧ (∀ (s : State) f, s.stalled = false → s.tb.frame = some f → s.enrolled = true → s.replaying = false →
      (s.qnt.syncAt ≠ some f.b → exec .twinSyncPulse s = .next { s with qnt := { s.qnt with syncOut := !(elapsed s.tb.now f.b 8000), syncAt := some f.b } }) ∧
      (s.qnt.syncAt = some f.b → s.qnt.syncOut = true → elapsed s.tb.now f.b 8000 = true → exec .twinSyncPulse s = .next { s with qnt := { s.qnt with syncOut := false } }))
  ∧ (∀ s : State, s.replaying = true → exec .twinAliveToggle s = .next s ∧ exec .twinSyncPulse s = .next s)
  ∧ (∀ (x : T64) (s : State) f, s.twinLive = true → s.tb.frame = some f → ∃ t, exec (.twinSyncInEdge true x) s = .next t ∧ Only [.qnt, .grt] s t ∧ t.qnt.syncIn = some x ∧ t.qnt.syncEdge = some x ∧
      (∃ b ∈ f.next :: f.b :: s.tb.past.map (·.b), t.qnt.syncResidual = tDiff x b) ∧
      (∀ b ∈ f.next :: f.b :: s.tb.past.map (·.b), t.qnt.syncResidual.natAbs ≤ (tDiff x b).natAbs) ∧
      (t.grt.samples = s.grt.samples ∨ t.grt.samples = s.grt.samples ++ [⟨7, 0, satInt 32 t.qnt.syncResidual⟩]))
  ∧ (∀ (x : T64) (s : State), s.twinLive = true → s.tb.frame = none → ∃ t, exec (.twinSyncInEdge true x) s = .next t ∧ Only [.qnt, .grt] s t ∧ t.qnt.syncIn = some x ∧ t.qnt.syncEdge = some x ∧
      (t.qnt.syncResidual = tDiff x 0 ∨ t.qnt.syncResidual = tDiff x (tick s.tb.cfg.period)) ∧
      t.qnt.syncResidual.natAbs ≤ (tDiff x 0).natAbs ∧ t.qnt.syncResidual.natAbs ≤ (tDiff x (tick s.tb.cfg.period)).natAbs)
  ∧ (∀ (x : T64) (s : State), s.twinLive = true → exec (.twinSyncInEdge false x) s = .next { s with qnt := { s.qnt with syncEdge := some x } })
  ∧ (∀ (x : T64) (s : State), s.twinLive = true → exec (.twinAliveInEdge x) s = .next { s with qnt := { s.qnt with aliveIn := some x } })
  ∧ (∀ w : Int, (witnessCode w = some .primary ↔ 720000 ≤ w ∧ w ≤ 880000) ∧ (witnessCode w = some .secondary ↔ 2320000 ≤ w ∧ w ≤ 2480000) ∧
      (witnessCode w = some .none ↔ 3920000 ≤ w ∧ w ≤ 4080000))
  ∧ (∀ (a b : T64) (s : State), s.twinLive = true → ∃ t, exec (.witnessPulse a b) s = .next t ∧ Only [.qnt] s t ∧ t.qnt.role = s.qnt.role ∧
      (witnessCode (tDiff b a) = none → t.qnt.witnessBad = bump s.qnt.witnessBad ∧ t.qnt.run = none ∧ t.qnt.roleNext = s.qnt.roleNext) ∧
      (∀ r, witnessCode (tDiff b a) = some r → t.qnt.witnessBad = s.qnt.witnessBad ∧ t.qnt.lastValid = b ∧ t.qnt.witnessLost = false ∧
        (∀ n, s.qnt.run = some (r, n) → 2 ≤ n → t.qnt.run = some (r, 3) ∧ (r ≠ s.qnt.role → t.qnt.roleNext = some r)) ∧
        (s.qnt.run = none → t.qnt.run = some (r, 1) ∧ t.qnt.roleNext = s.qnt.roleNext) ∧
        (∀ x n, s.qnt.run = some (x, n) → x ≠ r → t.qnt.run = some (r, 1) ∧ t.qnt.roleNext = s.qnt.roleNext)))
  ∧ (∀ s : State, s.twinLive = true → s.qnt.installed = true → s.qnt.witnessLost = false → elapsed s.tb.now s.qnt.lastValid (s.qnt.cfg.witnessTimeout * 8000000) = true → ∃ t,
      t = ({ s with qnt := { s.qnt with witnessLost := true }, ev := s.ev.raise (evtOpen .witnessLost 136 0) } : State) ∧ exec .witnessLost s = .next t ∧ exec .witnessLost t = .next t)
  ∧ (∀ (s : State), s.qnt.linkUp = false → exec .roleConflict s = .next s)
  ∧ (∀ (s : State) a, s.twinLive = true → s.qnt.linkUp = true → s.qnt.bothSince = some a → s.qnt.conflict = false → elapsed s.tb.now a 8000000 = true → ∃ t,
      t = ({ s with qnt := { s.qnt with conflict := true }, ev := s.ev.raise (evtOpen .roleConflict 136 0) } : State) ∧ exec .roleConflict s = .next t ∧ exec .roleConflict t = .next t)
  ∧ (∀ (c : Instr) (s t : State), c ≠ .resetAssert → exec c s = .next t → t.qnt.role = s.qnt.role ∨ ((∃ b e p, c = .guardCycleLatch b e p) ∧ s.qnt.roleNext = some t.qnt.role))

/-- In a linked state, LINK_TIMEOUT without a passed cell leads to LINK_LOST_PEER_ALIVE or, with the alive not seen, PEER_UNKNOWN, with the
event; a link that has been up as long goes down with it (the model's choice, log entry 128); ALIVE_TIMEOUT leads from the former to the
latter. An evaluation moves the pair state only along R438's rows. PEER_SAFE ends only through a loss, and in Replay mode no command but an
installed section or a reset changes the pair state. XCHECK_SEND keeps frame n's record and sends it as 7 cells. XCHECK_COMPARE compares the
oldest pair, marks both records used and counts; the failing parts are GRID, STOP and TRACKS by R443's bounds. XC_WAIT_EXPIRY marks a record
whose wait is over; it counts as neither compared nor failed. (R437, R438, R440, R441, R443) -/
def Obligations.PairStatesAndCrossCheck : Prop :=
  (∀ s : State, s.twinLive = true → s.qnt.pair.linked = true → elapsed s.tb.now s.qnt.lastCell (s.qnt.cfg.linkTimeout * 8000) = true → ∃ t, exec .linkLoss s = .next t ∧ Only [.ev, .qnt, .guard] s t ∧
      (elapsed s.tb.now s.qnt.linkAt (s.qnt.cfg.linkTimeout * 8000) = true → t.qnt.linkUp = false) ∧
      (elapsed s.tb.now s.qnt.linkAt (s.qnt.cfg.linkTimeout * 8000) = false → t.qnt.linkUp = s.qnt.linkUp) ∧ t.qnt.role = s.qnt.role ∧ (s.qnt.aliveSeen s.tb.now = true → t.qnt.pair = .lostAlive ∧ t.ev = s.ev.raise (evtOpen .twinLinkLost 136 0)) ∧
      (s.qnt.aliveSeen s.tb.now = false → t.qnt.pair = .unknown ∧ t.ev = s.ev.raise (evtOpen .twinPeerUnknown 136 0)))
  ∧ (∀ s : State, s.twinLive = true → s.qnt.pair = .lostAlive → s.qnt.aliveSeen s.tb.now = false → ∃ t, exec .aliveTimeout s = .next t ∧ Only [.ev, .qnt, .guard] s t ∧
      t.qnt = { s.qnt with pair := .unknown } ∧ t.ev = s.ev.raise (evtOpen .twinPeerUnknown 136 0))
  ∧ (∀ s : State, s.evalPair = s ∨ (s.qnt.pair, s.evalPair.qnt.pair) ∈ ([(.seeking, .joining), (.lostAlive, .rejoining), (.unknown, .rejoining), (.joining, .peerSafe),
      (.rejoining, .peerSafe), (.crossChecked, .peerSafe), (.disagree, .peerSafe), (.unmatched, .peerSafe), (.joining, .unmatched), (.rejoining, .unmatched),
      (.joining, .crossChecked), (.rejoining, .crossChecked), (.disagree, .crossChecked), (.crossChecked, .disagree), (.crossChecked, .rejoining),
      (.disagree, .rejoining)] : List (PairSt × PairSt)))
  ∧ (∀ (c : Instr) (s t : State), c ≠ .resetAssert → (∀ b, c ≠ .sectionRead b) → exec c s = .next t →
      (s.replaying = true → t.qnt.pair = s.qnt.pair) ∧ (s.qnt.pair = .peerSafe → c ≠ .linkLoss → t.qnt.pair = .peerSafe) ∧
      (t.qnt.pair ≠ s.qnt.pair → Only [.ev, .qnt, .guard] s t ∨ ((∃ x r o g, c = .timeTransferExchange x r o g) ∧ Only [.ev, .tb, .qnt, .guard] s t)))
  ∧ (∀ (s : State) n f, s.out.published = some n → s.tb.frameNo n = some f → s.twinLive = true → s.qnt.installed = true → s.qnt.cfg.twin = true →
      (∀ x l, s.qnt.own = x :: l → x.r.bn ≠ f.b) → ∃ t r, exec .xcheckSend s = .next t ∧ Only [.qnt] s t ∧ t.qnt.pair = s.qnt.pair ∧
      t.qnt.own = (⟨r, s.tb.now, false, s.tb.peerValid⟩ :: s.qnt.own).take 16 ∧ r.bn = f.b ∧ r.frame = f.no.setWidth 32 ∧ r.tracks.length ≤ 16 ∧
      (r.tracksValid = true → s.out.assembled = true ∧ 2 ≤ s.bcc.stage.toNat ∧ s.c2 = false ∧ s.c3 = false) ∧ (r.tracksValid = false → r.tracks = []) ∧
      (s.qnt.linkUp = true → ∃ l, t.qnt.sent = some (.xcheck r.bytes, l) ∧ l.length = 7) ∧ (s.qnt.linkUp = false → t.qnt.sent = s.qnt.sent))
  ∧ (∀ (s : State) o p, s.twinLive = true → s.qnt.own = [o] → o.used = false → s.xPair o = some p → ∃ t bad, exec .xcheckCompare s = .next t ∧ Only [.ev, .qnt, .guard] s t ∧
      bad = failingParts s.qnt.cfg o.r p.r ∧ t.qnt.own = [{ o with used := true }] ∧ t.qnt.compared = bump s.qnt.compared ∧
      t.qnt.failed = (if bad = 0 then s.qnt.failed else bump s.qnt.failed) ∧
      (t.qnt.pair = s.qnt.pair → t.qnt.results = (bad :: s.qnt.results).take 2 ∧ t.qnt.missRun = 0 ∧ t.qnt.failRun = if bad = 0 then 0 else s.qnt.failRun + 1))
  ∧ (∀ (c : QanatCfg) a b, ((failingParts c a b).getLsbD 0 = false ↔ onesOf (a.grid ^^^ b.grid) ≤ c.xcGridBits) ∧
      ((failingParts c a b).getLsbD 1 = false ↔ (a.tableValid = false ∧ b.tableValid = false) ∨ (a.tableValid = true ∧ b.tableValid = true ∧ stopsAgree c.xcFreeMm a.stop b.stop = true)) ∧
      ((failingParts c a b).getLsbD 2 = false ↔ c.xcTracks = false ∨ a.tracksValid = false ∨ b.tracksValid = false ∨ tracksAgree c a.tracks b.tracks = true))
  ∧ (∀ (s : State) o, s.twinLive = true → s.qnt.own = [o] → o.used = false → s.xPair o = none → tLater s.tb.now (o.at_ + tick (s.qnt.cfg.xcWait * s.tb.cfg.period)) = true →
      ∃ t, exec .xcWaitExpiry s = .next t ∧ Only [.ev, .qnt, .guard] s t ∧ t.qnt.own = [{ o with used := true }] ∧ t.qnt.compared = s.qnt.compared ∧ t.qnt.failed = s.qnt.failed ∧
      (t.qnt.pair = s.qnt.pair → t.qnt.missRun = s.qnt.missRun + 1 ∧ t.qnt.results = s.qnt.results))

/-- Outside a Replay stall. PUBLICATION of frame n emits FRAME with frame n's number and digest, ASSEMBLED only after output assembly, VALID
only outside SAFE; without assembly or in S1 neither TRACKS nor POINTS. A disabled stream emits nothing. GUARD_STREAM_MESSAGE emits the
guard word every GUARD_DIV cycles, once. The datagrams of a message are 96 bytes of header each and hold its body between them. A copy is
queued whole, or dropped and counted, without touching the other port. FRAGMENT_TRANSMIT sends the head of the highest queue that can start,
younger than TX_MAX_AGE, with VALID 0 in C3, and keeps its transmit stamp with ASYM_OUT added, the port busy until the 12-byte gap behind
it; an answer waiting in PTP_QUEUE goes before the queue's messages, a Pdelay answer with its Follow_Up behind it (the model's choice, log
entry 139); a queue whose gate never opens cannot start. A fragment older than TX_MAX_AGE goes with the rest of its message. A lost link of
P6 or P7 empties that port's queues. (R445, R446, R447, R448, R451, R453, R454, R455, R466) -/
def Obligations.MessagesArePublishedAndLeave : Prop :=
  (∀ (s : State) f a, s.stalled = false → s.enrolled = true → s.bcc.stage ≠ 0 → s.nextPublished = some f → s.publishes f = some a → ∃ t, exec .publication s = .next t ∧ Only [.ev, .seq, .trk, .out, .grt] s t ∧
      t.out.published = some f.no ∧ t.out.assembled = a ∧
      (s.out.installed = true → s.out.cfg.stream[0].en = true → ∃ m, t.out.last[0] = some m ∧ m.frame = f.no.setWidth 32 ∧ m.bn = f.b ∧ m.assembled = a ∧ m.too = s.tb.now ∧
        m.valid = (s.safety.st != .safe && !s.c3) ∧ m.seq = s.out.seq[0] ∧ t.out.seq[0] = s.out.seq[0] + 1 ∧ m.digest = s.frameDigest f.no) ∧
      (∀ k : Fin 6, (s.out.installed = false ∨ s.out.cfg.stream[k].en = false ∨ k = 4 ∨ k = 5 ∨ ((k = 2 ∨ k = 3) ∧ (a = false ∨ s.bcc.stage = 1))) →
        t.out.last[k] = s.out.last[k] ∧ t.out.seq[k] = s.out.seq[k] ∧ t.out.ring[k] = s.out.ring[k]) ∧
      (s.out.installed = true → a = true → s.bcc.stage ≠ 1 → s.out.cfg.stream[2].en = true → ∃ m, t.out.last[2] = some m ∧ m.valid = (s.safety.st == .normal && s.tracksOf f.no && !s.c3)))
  ∧ (∀ s : State, (s.nextPublished = none ∨ ∃ f, s.nextPublished = some f ∧ s.publishes f = none) → exec .publication s = .next s)
  ∧ (∀ (s : State) w, s.stalled = false → s.guard.word = some w → s.guardRuns = true → s.out.installed = true → s.out.cfg.stream[5].en = true → w.k.toNat % s.out.cfg.guardDiv = 0 →
      (∀ m, s.out.last[5] = some m → m.tov ≠ us w.k.toNat) → ∃ t m, exec .guardStreamMessage s = .next t ∧ Only [.ev, .out] s t ∧ t.out.last[5] = some m ∧ m.body = w.bytes ∧
      m.tov = us w.k.toNat ∧ m.valid = (w.valid && !s.c3) ∧ m.digest = w.digest ∧ (w.digest = List.replicate 16 0 → m.frame = 0 ∧ m.bn = 0) ∧ exec .guardStreamMessage t = .next t)
  ∧ (∀ (m : OutMsg) n tag, 0 < n → (m.fragments n tag).flatMap (fun f => (f.bytes n).drop 96) = m.body ∧ (∀ f ∈ m.fragments n tag, (f.bytes n).length ≤ 96 + n ∧ 96 ≤ (f.bytes n).length))
  ∧ (∀ (s : State) (p k : Fin 2) q fs, k ≠ p → (s.queueCopy p q fs).out.port[k] = s.out.port[k] ∧
      ((s.queueCopy p q fs).out.port[p].queues = s.out.port[p].queues ∨ (s.queueCopy p q fs).out.port[p].queues = s.out.port[p].queues.set q (s.out.port[p].queues[q] ++ fs)) ∧
      (s.vehicleLink p = false → s.queueCopy p q fs = { s with out := { s.out with
        port := s.out.port.set p { s.out.port[p] with linkDownDrop := bump s.out.port[p].linkDownDrop } } }) ∧
      (s.vehicleLink p = true → s.out.cfg.qBytes[q] < queueBytes s.out.port[p].queues[q] + queueBytes fs →
        (s.queueCopy p q fs).out.port[p] = { s.out.port[p] with txDrop := bump s.out.port[p].txDrop } ∧ (s.queueCopy p q fs).ev = s.ev.raise (evtOpen .outTxDrop (14 + p.val) p.val)))
  ∧ (∀ (p : Fin 2) (q : Fin 8) tx (s : State) f rest, s.out.port[p].queues[q] = f :: rest → s.vehicleLink p = true → s.replaying = false → tReached s.tb.now s.out.port[p].busyUntil = true →
      s.canStart p q = true → (∀ k : Fin 8, q < k → s.canStart p k = false) → s.controlHead p q = none → elapsed s.tb.now f.msg.too (s.txMaxAge f.msg.stream) = false → ∃ g, (s.c3 = false → g = f) ∧
      (s.c3 = true → g = { f with msg := { f.msg with valid := false } }) ∧ exec (.fragmentTransmit p q tx) s = .next { s with out := { s.out with port := s.out.port.set p { s.out.port[p] with
        queues := s.out.port[p].queues.set q rest, sent := some (g, s.tb.now), wire := some (s.txFrame p g), txStamp := tx + BitVec.ofInt 64 (s.tb.cfg.asymOut[6 + p.val]!)
        protectedFrames := if s.out.cfg.macsec[p].en then s.out.port[p].protectedFrames + 1 else s.out.port[p].protectedFrames
        busyUntil := s.tb.now + tick (s.portTicks p (s.wireBytes p f + 12)), txFrames := bump s.out.port[p].txFrames } } })
  ∧ (∀ (p : Fin 2) (q : Fin 8) tx (s : State) c l, s.vehicleLink p = true → s.replaying = false → tReached s.tb.now s.out.port[p].busyUntil = true → s.canStart p q = true →
      (∀ k : Fin 8, q < k → s.canStart p k = false) → q = s.out.cfg.ptpQueue → s.out.port[p].control = c :: l → ∃ t, exec (.fragmentTransmit p q tx) s = .next t ∧ Only [.ports, .out] s t ∧
      t.out.port[p].queues = s.out.port[p].queues ∧ t.out.port[p].controlSent = some c ∧ t.out.port[p].txStamp = tx + BitVec.ofInt 64 (s.tb.cfg.asymOut[6 + p.val]!) ∧
      (∀ x, c = .pdelayResp x → t.out.port[p].control = .pdelayFollowUp x t.out.port[p].txStamp :: l) ∧ ((∀ x, c ≠ .pdelayResp x) → t.out.port[p].control = l))
  ∧ (∀ (s : State) (p : Fin 2) (q : Fin 8), ((s.out.port[p].queues[q] = [] ∧ (q ≠ s.out.cfg.ptpQueue ∨ s.out.port[p].control = [])) ∨ ∀ e ∈ s.out.cfg.gates[p], e.gates.getLsbD q.val = false) → s.canStart p q = false ∧ ∀ tx, exec (.fragmentTransmit p q tx) s = .next s)
  ∧ (∀ (p k : Fin 2) (q : Fin 8) (s : State) f rest, s.stalled = false → k ≠ p → s.out.port[p].queues[q] = f :: rest → elapsed s.tb.now f.msg.too (s.txMaxAge f.msg.stream) = true → ∃ t,
      exec (.txMaxAgeExpiry p q) s = .next t ∧ Only [.ev, .out] s t ∧ t.ev = s.ev.raise (evtOpen .outTxStale (14 + p.val) p.val) ∧ t.out.port[k] = s.out.port[k] ∧
      t.out.port[p] = { s.out.port[p] with queues := s.out.port[p].queues.set q (rest.filter fun x => x.msg != f.msg), txStale := bump s.out.port[p].txStale })
  ∧ (∀ (p : Fin 8) (up : Bool) v (s : State), s.portUp ⟨8 + p.val, by omega⟩ = true → ∃ t, exec (.ethernetLinkChange p up v) s = .next t ∧ Only [.ports, .out] s t ∧ t.ports.eth[p].link = up ∧
      t.ports.eth[p].speed = v ∧ (∀ k : Fin 8, k ≠ p → t.ports.eth[k] = s.ports.eth[k]) ∧ ((p < 6 ∨ up = true) → t.out = s.out) ∧
      (∀ k : Fin 2, p.val = 6 + k.val → up = false → (∀ q : Fin 8, t.out.port[k].queues[q] = []) ∧ ∀ j : Fin 2, j ≠ k → t.out.port[j] = s.out.port[j]))

/-- Outside a Replay stall. A message is 32 bytes: type and counter at bits 4 and 8, the last four bytes the CRC-32C over DATA_ID and the rest.
SM0_BUILD queues one on each channel not bus-off where none was built yet, at once where the safety state or SAFE_OK changed, on another
change once MIN_GAP is over (kept until then, even where it is undone), and after STATE_PERIOD; else nothing. SM1_BUILD does so once for
each GUARD_PERIOD once a guard word exists. A copy older than MAX_AGE is counted in STALE and built anew. A completed copy that is no older
leaves its buffer under its identifier; an SM1 neither before the SM0 due after a recovery nor before an SM0 that waited when it began.
BUS_OFF of a CAN-S channel discards both copies and raises BUS_OFF; recovery clears the error counters, raises BUS_OFF_RECOVERED and queues
an SM0 with FRESH set. A sensor channel raises nothing. (R142, R144, R458, R459, R460, R461) -/
def Obligations.CanSafetyMessages : Prop :=
  (∀ (s : State) m n fresh cause, (s.canPayload m n fresh cause).length = 32 ∧ fieldOf (s.canPayload m n fresh cause) 4 4 = m.val ∧ fieldOf (s.canPayload m n fresh cause) 8 8 = n.toNat ∧
      fieldOf (s.canPayload m n fresh cause) 31 1 = fresh.toNat ∧
      (s.canPayload m n fresh cause).drop 28 = leBytes 4 (crc32c (leBytes 4 (s.safetyDataId m).toNat ++ (s.canPayload m n fresh cause).take 28)))
  ∧ (∀ s : State, s.stalled = false → s.canSafeOn = true → (s.out.sm0 = none ∨ ∃ o a, s.out.sm0 = some (o, a) ∧ (o.safety ≠ s.sm0Now.safety ∨ o.safeOk ≠ s.sm0Now.safeOk ∨
        ((s.out.sm0Seen ≠ s.sm0Now ∨ s.out.sm0Due ≠ none) ∧ elapsed s.tb.now a (s.out.can.minGap * 8000000) = true) ∨
        (s.out.sm0Seen = s.sm0Now ∧ s.out.sm0Due = none ∧ elapsed s.tb.now a (s.out.can.statePeriod * 8000000) = true))) → ∃ t cause,
      exec .sm0Build s = .next t ∧ Only [.out] s t ∧ t.out.sm0 = some (s.sm0Now, s.tb.now) ∧ t.out.sm0Seen = s.sm0Now ∧ t.out.sm0Due = none ∧ t.out.port = s.out.port ∧ ∀ c : Fin 2,
        (s.ports.can[2 + c.val].st = .busOff → t.out.chan[c] = s.out.chan[c]) ∧
        (s.ports.can[2 + c.val].st ≠ .busOff → t.out.chan[c] = { s.out.chan[c] with
          counter := s.out.chan[c].counter.set 0 (s.out.chan[c].counter[0] + 1),
          buf := s.out.chan[c].buf.set 0 (some (s.canPayload 0 s.out.chan[c].counter[0] s.out.chan[c].freshDue cause, s.tb.now)) }))
  ∧ (∀ (s : State) o a, s.stalled = false → s.canSafeOn = true → s.out.sm0 = some (o, a) → o.safety = s.sm0Now.safety → o.safeOk = s.sm0Now.safeOk → (s.out.sm0Seen ≠ s.sm0Now ∨ s.out.sm0Due ≠ none) →
      elapsed s.tb.now a (s.out.can.minGap * 8000000) = false → ∃ w, exec .sm0Build s = .next { s with out := { s.out with sm0Seen := s.sm0Now, sm0Due := some w } })
  ∧ (∀ (s : State) a, s.out.sm0 = some (s.sm0Now, a) → s.out.sm0Seen = s.sm0Now → s.out.sm0Due = none → elapsed s.tb.now a (s.out.can.statePeriod * 8000000) = false → exec .sm0Build s = .next s)
  ∧ (∀ s : State, s.stalled = false → s.canSafeOn = true → s.guard.word ≠ none → s.out.sm1 ≠ some (s.tb.now.toNat / (max 1 s.out.can.guardPeriod * 8000000)) → ∃ t, exec .sm1Build s = .next t ∧ Only [.out] s t ∧
      t.out.sm0 = s.out.sm0 ∧ exec .sm1Build t = .next t ∧ ∀ c : Fin 2, (s.ports.can[2 + c.val].st = .busOff → t.out.chan[c] = s.out.chan[c]) ∧
        (s.ports.can[2 + c.val].st ≠ .busOff → t.out.chan[c].buf = s.out.chan[c].buf.set 1 (some (s.canPayload 1 s.out.chan[c].counter[1] false 0, s.tb.now))))
  ∧ (∀ (c k m : Fin 2) (s : State) b a, s.stalled = false → k ≠ c → s.out.chan[c].buf[m] = some (b, a) → s.canSafeOn = true → elapsed s.tb.now a (s.out.can.maxAge * 8000000) = true → ∃ t,
      exec (.canMaxAgeExpiry c m) s = .next t ∧ Only [.out] s t ∧ t.out.chan[c].stale = bump s.out.chan[c].stale ∧ t.out.chan[k] = s.out.chan[k] ∧
      (s.ports.can[2 + c.val].st = .busOff → t.out.chan[c].buf[m] = none) ∧ (s.ports.can[2 + c.val].st ≠ .busOff → ∃ d, t.out.chan[c].buf[m] = some (d, s.tb.now)))
  ∧ (∀ (c m : Fin 2) (s : State) b a, s.stalled = false → s.out.chan[c].buf[m] = some (b, a) → s.canSafeOn = true → s.ports.can[2 + c.val].st ≠ .busOff →
      elapsed s.tb.now a (s.out.can.maxAge * 8000000) = false →
      (m = 0 ∨ (s.out.chan[c].freshDue = false ∧ (s.out.chan[c].buf[0] = none ∨ ∃ x, s.out.chan[c].buf[0] = some x ∧ elapsed s.tb.now x.2 (Config.canFrameTicks b) = false))) →
      exec (.canTransmitComplete c m) s = .next { s with
      out := { s.out with chan := s.out.chan.set c { s.out.chan[c] with
        buf := s.out.chan[c].buf.set m none, last := some b, lastId := some (s.safetyId m), lastXl := s.out.can.xl, sent := modAt s.out.chan[c].sent m bump, freshDue := m != 0 && s.out.chan[c].freshDue } } })
  ∧ (∀ (c : Fin 2) (s : State) b a, s.out.chan[c].buf[1] = some (b, a) → (s.out.chan[c].freshDue = true ∨ ∃ x, s.out.chan[c].buf[0] = some x ∧ elapsed s.tb.now x.2 (Config.canFrameTicks b) = true) →
      exec (.canTransmitComplete c 1) s = .next s)
  ∧ (∀ (c : Fin 4) (s : State) k, s.ports.can[c].cfg = some k → k.active = true → s.portUp ⟨28 + c.val, by omega⟩ = true → s.ports.can[c].st ≠ .busOff → ∃ t, exec (.busOff c) s = .next t ∧
      Only [.ev, .ports, .out] s t ∧ t.ports.can[c] = { s.ports.can[c] with st := .busOff, busOffs := bump s.ports.can[c].busOffs } ∧ (∀ j : Fin 4, j ≠ c → t.ports.can[j] = s.ports.can[j]) ∧
      (c < 2 → t.ev = s.ev ∧ t.out = s.out) ∧
      (∀ j : Fin 2, c.val = 2 + j.val → t.ev = s.ev.raise (evt .busOff (28 + c.val) j.val j.val) ∧ t.out.chan[j].buf[0] = none ∧ t.out.chan[j].buf[1] = none))
  ∧ (∀ (c : Fin 4) (s : State), s.stalled = false → s.ports.can[c].st = .busOff → ∃ t, exec (.busOffRecovered c) s = .next t ∧ Only [.ev, .ports, .out] s t ∧
      t.ports.can[c] = { s.ports.can[c] with st := .active, tec := 0, rec_ := 0 } ∧ (c < 2 → t.ev = s.ev ∧ t.out = s.out) ∧
      (∀ j : Fin 2, c.val = 2 + j.val → t.ev = s.ev.raise (evtOpen .busOffRecovered (28 + c.val) j.val) ∧ t.out.chan[j].freshDue = true ∧
        (s.canSafeOn = true → ∃ b, t.out.chan[j].buf[0] = some (b, s.tb.now) ∧ fieldOf b 4 4 = 0 ∧ fieldOf b 31 1 = 1)))

/-- Outside a Replay stall. An address of 134,217,728 or more faults. Of the requests that fit, the first port after the one served last is
served; in Replay mode the observation port only where no other requests. A write stores exactly its bytes: every other byte keeps its value
(in a word that was poisoned and written, only the written bytes are told). A read stores nothing and returns what memory holds; a
correction raises CISTERN_CE with the byte offset, an uncorrectable word read is poisoned with CISTERN_UE. PATROL_SCRUB passes to its next
line 4,096 bank cycles on and stores nothing; in no region it raises CISTERN_UE_FREE. Training zeroes each GENERAL and SLOTS region but for
the model slots installed there (the model's choice, log entry 173), or counts a failure, three at most. DRAM_SCRUB passes over 64 bytes,
poisons an uncorrectable word and reports it by region. (R467, R468, R470, R471, R472, R474, R476) -/
def Obligations.MemoriesServeScrubAndTrain : Prop :=
  (∀ (b : Fin 64) rs e w (s : State), s.stalled = false → (∃ r ∈ rs, 134217728 ≤ r.addr) → ∃ a, 134217728 ≤ a ∧ exec (.cisternAccess b rs e w) s = .fault (.noSuchAddress a))
  ∧ (∀ rs : List CisternReq, competing false rs = rs ∧ ∀ x, x ∈ competing true rs ↔ x ∈ rs ∧ (x.port ≠ obsPort ∨ ∀ y ∈ rs, y.port = obsPort))
  ∧ (∀ (m : Memory) (b : Fin 64) rs, (rs = [] ↔ m.arbitrate b rs = none) ∧ ∀ r, m.arbitrate b rs = some r → r ∈ rs ∧
      ∀ x ∈ rs, (r.port.val + 11 - m.served[b].val) % 12 ≤ (x.port.val + 11 - m.served[b].val) % 12)
  ∧ (∀ (b : Fin 64) rs e w (s : State) r d, s.stalled = false → (∀ x ∈ rs, x.addr < 134217728) → s.isl.enrolled[80 + b.val / 2]! = true →
      s.mem.arbitrate b (competing s.replaying (rs.filter fun x => x.fits b.val)) = some r → r.data = some d → ∃ t, exec (.cisternAccess b rs e w) s = .next t ∧ Only [.mem] s t ∧ t.mem.served[b] = r.port ∧
      (s.mem.wf = true → ∀ i, i < d.length → t.mem.get .cistern (r.addr + i) = d.getD i 0) ∧ (∀ a, (a < r.addr ∨ r.addr + d.length ≤ a) → s.mem.cisternBad.contains (a / 8) = false →
        t.mem.get .cistern a = s.mem.get .cistern a) ∧ (∀ a, (a / 8 < r.addr / 8 ∨ (r.addr + d.length - 1) / 8 < a / 8) → t.mem.get .cistern a = s.mem.get .cistern a) ∧
      (∀ k a, t.mem.get (.loc k) a = s.mem.get (.loc k) a) ∧ ∀ a, t.mem.get .dram a = s.mem.get .dram a)
  ∧ (∀ (b : Fin 64) rs e w (s : State) r, s.stalled = false → (∀ x ∈ rs, x.addr < 134217728) → s.isl.enrolled[80 + b.val / 2]! = true →
      s.mem.arbitrate b (competing s.replaying (rs.filter fun x => x.fits b.val)) = some r → r.data = none → ∃ t, exec (.cisternAccess b rs e w) s = .next t ∧ Only [.ev, .mem] s t ∧ t.mem.served[b] = r.port ∧
      t.mem.cistern = s.mem.cistern ∧ t.mem.dram = s.mem.dram ∧ t.mem.local_ = s.mem.local_ ∧ t.mem.dramBad = s.mem.dramBad ∧
      t.mem.readData[r.port] = t.mem.readFor r.port r.addr r.len ∧ (e ≠ .uncorrectable → t.mem.cisternBad = s.mem.cisternBad) ∧
      (s.mem.cisternBad = [] → r.addr / 64 * 64 + 8 * w.val < r.addr + r.len → r.addr < r.addr / 64 * 64 + 8 * w.val + 8 →
        (e = .clean → t.ev = s.ev) ∧ (e = .corrected → t.ev = s.ev.raise (evt .cisternCe (80 + b.val / 2) b.val (r.addr / 64 * 64 + 8 * w.val))) ∧
        (e = .uncorrectable → t.mem.cisternBad = [(r.addr / 64 * 64 + 8 * w.val) / 8] ∧ t.ev = s.ev.raise (evtOpen .cisternUe (80 + b.val / 2) b.val))))
  ∧ (∀ (b : Fin 64) e (w : Fin 8) (s : State) a, s.stalled = false → s.isl.enrolled[80 + b.val / 2]! = true → elapsed s.tb.now s.mem.scrubAt[b] 32768 = true →
      a = b.val * 2097152 + 64 * s.mem.scrubLine[b].toNat + 8 * w.val → ∃ t, exec (.patrolScrub b e w) s = .next t ∧ Only [.ev, .mem] s t ∧ exec (.patrolScrub b e w) t = .next t ∧
      t.mem.scrubLine = s.mem.scrubLine.set b (s.mem.scrubLine[b] + 1) ∧ t.mem.cistern = s.mem.cistern ∧ t.mem.dram = s.mem.dram ∧ t.mem.local_ = s.mem.local_ ∧
      (e = .clean → t.ev = s.ev ∧ t.mem.cisternBad = s.mem.cisternBad) ∧ (e = .corrected → t.ev = s.ev.raise (evt .cisternCe (80 + b.val / 2) b.val a) ∧ t.mem.cisternBad = s.mem.cisternBad) ∧
      (e = .uncorrectable → s.mem.inRegion a = false → t.ev = s.ev.raise (evtOpen .cisternUeFree (80 + b.val / 2) b.val) ∧ t.mem.cisternBad = s.mem.cisternBad) ∧
      (e = .uncorrectable → s.mem.inRegion a = true → t.ev = s.ev.raise (evtOpen .cisternUe (80 + b.val / 2) b.val) ∧ t.mem.cisternBad.contains (a / 8) = true))
  ∧ (∀ s : State, s.stalled = false → s.bcc.stage = 1 → s.isl.enrolled[139]! = true → s.mem.trained = false → s.mem.trainFails < 3 →
      (∃ t, exec (.lpddr5xTraining true) s = .next t ∧ Only [.bcc, .mem] s t ∧ t.bcc = { s.bcc with condAt := s.tb.now } ∧ t.mem.trained = true ∧ t.mem.cistern = s.mem.cistern ∧
        (s.mem.wf = true → ∀ l i, s.bcc.installed = l ++ [i] → i.content = .modelSlot → (slotPlace i.entry.dest).space = .dram →
          ∀ j, j < i.bytes.length → t.mem.get .dram ((slotPlace i.entry.dest).addr + j) = i.bytes.getD j 0) ∧
        ((∀ i ∈ s.bcc.installed, i.content = .modelSlot → (slotPlace i.entry.dest).space ≠ .dram) →
        (∀ r ∈ s.mem.cfg.regions, r.kind ≠ .capture → ∀ a, r.base ≤ a → a < r.base + r.bytes → t.mem.get .dram a = 0) ∧
        (∀ a, (∀ r ∈ s.mem.cfg.regions, r.kind ≠ .capture → (a / 8 < r.base / 8 ∨ (r.base + r.bytes - 1) / 8 < a / 8)) → t.mem.get .dram a = s.mem.get .dram a))) ∧
      exec (.lpddr5xTraining false) s = .next { s with mem := { s.mem with trainFails := s.mem.trainFails + 1 }, ev := s.ev.raise (evtOpen .memTrainFail 139 0) })
  ∧ (∀ (x : Bool) (s : State), (s.bcc.stage ≠ 1 ∨ s.mem.trained = true ∨ 3 ≤ s.mem.trainFails) → exec (.lpddr5xTraining x) s = .next s)
  ∧ (∀ e (w : Fin 8) (s : State) a, s.stalled = false → s.mem.trained = true → elapsed s.tb.now s.mem.dramScrubAt s.mem.cfg.scrubStep = true → a = s.mem.dramScrub + 8 * w.val → ∃ t,
      exec (.dramScrub e w) s = .next t ∧ Only [.ev, .mem] s t ∧ t.mem.dramScrubAt = s.tb.now ∧ t.mem.dram = s.mem.dram ∧ t.mem.cistern = s.mem.cistern ∧ t.mem.cisternBad = s.mem.cisternBad ∧
      t.mem.dramScrub = (if s.mem.cfg.dramBytes ≤ s.mem.dramScrub + 64 then 0 else s.mem.dramScrub + 64) ∧ (e ≠ .uncorrectable → t.mem.dramBad = s.mem.dramBad) ∧
      (e = .clean → t.ev = s.ev) ∧ (e = .corrected → t.mem.dramCe = bump s.mem.dramCe ∧ t.ev = s.ev.raise (evtOpen .dramCe (s.mem.cfg.dramIsland a) 0)) ∧
      (e = .uncorrectable → (∀ k, s.mem.cfg.kindAt a = some k → t.mem.dramBad.contains (a / 8) = true ∧ (k = .capture → t.ev = s.ev) ∧
          (k ≠ .capture → t.ev = s.ev.raise (evt .dramUe (s.mem.cfg.dramIsland a) 0 (a / 64)))) ∧
        (s.mem.cfg.kindAt a = none → t.mem.dramBad = s.mem.dramBad ∧ t.ev = s.ev.raise (evtOpen .cisternUeFree (s.mem.cfg.dramIsland a) 0))))

/-- Outside a Replay stall, GROTTO_SAMPLE takes the oldest sample. A monitor that does not take it is unchanged; frozen (within 100 ms of a
freeze's start) or full, it counts one in DROPPED; else SAMPLES rises by one, the sample's bin by one and no other bin, SUM by the value
within its 64-bit bounds, MIN and MAX keep the extremes with their stamps, an equal value leaving the earlier. A 1 written to FREEZE
freezes, a freeze in force going on from its start; a 0 ends it; FREEZE_EXPIRY ends it at 100 ms and sets EXPIRED. The cursor takes 6 bits.
Nothing outside the Grotto changes. (R489, R490, R491, R493, R494, R495) -/
def Obligations.GrottoRecords : Prop :=
  (∀ (s : State) e rest, s.stalled = false → s.grt.samples = e :: rest → ∃ t, exec .grottoSample s = .next t ∧ Only [.grt] s t ∧ t.grt.samples = rest ∧ t.grt.freeze = s.grt.freeze ∧ t.grt.cursor = s.grt.cursor ∧
      t.grt.cfg = s.grt.cfg ∧ ∀ i : Fin 64,
      (s.grt.cfg[i].takes e = false → t.grt.mon[i] = s.grt.mon[i]) ∧
      (s.grt.cfg[i].takes e = true → (s.grt.frozen s.tb.now = true ∨ s.grt.cfg[i].maxSamples ≤ s.grt.mon[i].samples.toNat) → t.grt.mon[i] = { s.grt.mon[i] with dropped := bump s.grt.mon[i].dropped }) ∧
      (s.grt.cfg[i].takes e = true → s.grt.frozen s.tb.now = false → s.grt.mon[i].samples.toNat < s.grt.cfg[i].maxSamples →
        t.grt.mon[i].samples = s.grt.mon[i].samples + 1 ∧ t.grt.mon[i].dropped = s.grt.mon[i].dropped ∧ t.grt.mon[i].lastToo = s.tb.now ∧
        (∀ k : Fin 64, t.grt.mon[i].bins[k] = s.grt.mon[i].bins[k] + if k = s.grt.cfg[i].bin e.value then 1 else 0) ∧
        t.grt.mon[i].sum.toInt = max (-9223372036854775808) (min 9223372036854775807 (s.grt.mon[i].sum.toInt + e.value)) ∧
        (-2147483648 ≤ e.value → e.value ≤ 2147483647 → t.grt.mon[i].min.toInt = min s.grt.mon[i].min.toInt e.value ∧ t.grt.mon[i].max.toInt = max s.grt.mon[i].max.toInt e.value) ∧
        (s.grt.mon[i].min.toInt ≤ e.value → t.grt.mon[i].minSeq = s.grt.mon[i].minSeq ∧ t.grt.mon[i].minToo = s.grt.mon[i].minToo) ∧
        (e.value < s.grt.mon[i].min.toInt → t.grt.mon[i].minSeq = s.ev.current ∧ t.grt.mon[i].minToo = s.tb.now)))
  ∧ (∀ (g : Grotto) now, g.frozen now = true ↔ ∃ a, g.freeze = some a ∧ elapsed now a 800000000 = false)
  ∧ (∀ s : State, s.grt.samples = [] → exec .grottoSample s = .next s)
  ∧ (∀ (v : Word) (s : State), (v.getLsbD 0 = true → ∃ t, exec (.grtCtrlFreezeWrite v) s = .next t ∧ Only [.grt] s t ∧ t.grt.mon = s.grt.mon ∧ t.grt.expired = false ∧
        (s.grt.freeze = none → t.grt.freeze = some s.tb.now) ∧ (∀ a, s.grt.freeze = some a → elapsed s.tb.now a 800000000 = false → t.grt.freeze = some a) ∧
        (∀ a, s.grt.freeze = some a → elapsed s.tb.now a 800000000 = true → t.grt.freeze = some s.tb.now)) ∧
      (v.getLsbD 0 = false → exec (.grtCtrlFreezeWrite v) s = .next { s with grt := { s.grt with freeze := none } }))
  ∧ (∀ (s : State) a, s.stalled = false → s.grt.freeze = some a → (elapsed s.tb.now a 800000000 = true → exec .freezeExpiry s = .next { s with grt := { s.grt with freeze := none, expired := true } }) ∧
      (elapsed s.tb.now a 800000000 = false → exec .freezeExpiry s = .next s))
  ∧ (∀ (v : Word) (s : State), ∃ t, exec (.grtCursorWrite v) s = .next t ∧ t.grt = { s.grt with cursor := t.grt.cursor } ∧ t.grt.cursor.val = v.toNat % 64 ∧ Only [.grt] s t)

/-- A recorded sample v raises the count of bin i of its monitor by one and of no other bin. Where v is below LO, i is 0, and no other value has
bin 0. With a linear scale of width W, i is the smaller of 63 and 1 plus (v − LO) / W rounded down. With a logarithmic scale, i is the
smaller of 63 and the largest j of 1 or more with LO·2^(j−1) at most v. So bin 63 counts every value beyond the last bin that the mode
gives. (R488) -/
def Obligations.SamplesFallInTheBinOfTheRule : Prop :=
  (∀ (x : Monitor) (c : MonCfg) (v : Int) seq now (k : Fin 64), (x.record c v seq now).bins[k] = x.bins[k] + if k = c.bin v then 1 else 0)
  ∧ (∀ (c : MonCfg) (v : Int), (c.bin v = 0 ↔ v < c.lo))
  ∧ (∀ (c : MonCfg) (v : Int), c.lo ≤ v → c.log2 = false → 0 < c.width → ((c.bin v).val : Int) = min 63 (1 + (v - c.lo) / c.width))
  ∧ (∀ (c : MonCfg) (v : Int) (i : Nat), c.lo ≤ v → c.log2 = true → 0 < c.lo → 1 ≤ i → c.lo * 2 ^ (i - 1) ≤ v → (∀ j : Nat, i < j → v < c.lo * 2 ^ (j - 1)) → (c.bin v).val = min 63 i)

/-- Two writes acknowledge events: the low word is staged, the high word sets the 48-bit acknowledge; IRQ_N is low exactly while a matching
event has a SEQ later than it. OBP_CAP_WIN takes 7 bits. An MSI-X write sets one word and sends a waiting message once unmasked. A read of
BAR0 changes only its data and captures: the lowest word of a record captures the record, and later words answer from that capture whatever
has happened since; a read past the end or of no byte changes nothing. A write to BAR0 that is not one whole writable word, and one to BAR2
outside the replay window, only counts. None changes time, memory, events, outputs or any computing block. (R2, R72, R78, R465, R498, R501, R503, R508, R517) -/
def Obligations.ObserverReadsAndWrites : Prop :=
  (∀ v (s : State), exec (.sluiceIrqAckLowWrite v) s = .next { s with ev := { s.ev with ackLow := v } })
  ∧ (∀ v (s : State), ∃ t, exec (.sluiceIrqAckHighWrite v) s = .next t ∧ t.ev = { s.ev with ack := t.ev.ack } ∧
      t.ev.ack.toNat = v.toNat % 65536 * 4294967296 + s.ev.ackLow.toNat ∧ Only [.ev, .obp] s t)
  ∧ (∀ (q : Sluice) x, (q.irqSeq = some x → (q.irqLow = true ↔ 0 < (x - q.ack).toInt)) ∧ (q.irqSeq = none → q.irqLow = false) ∧ (q.irqSeq = some x → q.ack = x → q.irqLow = false))
  ∧ (∀ (v : Word) (s : State), ∃ t, exec (.obpCapWinWrite v) s = .next t ∧ t.obp = { s.obp with capWin := t.obp.capWin } ∧ t.obp.capWin.toNat = v.toNat % 128 ∧ Only [.obp] s t)
  ∧ (∀ (w : Fin 4) (v : Word) (s : State), ∃ t, exec (.msiXTableWrite w v) s = .next t ∧ Only [.obp] s t ∧ t.obp.msix = s.obp.msix.set w v ∧ t.obp.readData = s.obp.readData ∧
      (s.obp.msixPending = false → t.obp = { s.obp with msix := s.obp.msix.set w v }) ∧ (t.obp.msix[3].getLsbD 0 = true → t.obp.msixPending = s.obp.msixPending ∧ t.obp.msixSent = s.obp.msixSent) ∧
      (s.obp.msixPending = true → t.obp.msix[3].getLsbD 0 = false → t.obp.msixPending = false ∧ t.obp.msixSent = some (t.obp.msix[1] ++ t.obp.msix[0], t.obp.msix[2])))
  ∧ (∀ a n (s : State), ∃ t, exec (.recordRegisterRead a n) s = .next t ∧ Only [.obp] s t ∧
      t.obp = { s.obp with latches := t.obp.latches, readData := t.obp.readData } ∧ ((n = 0 ∨ 0x200000 < a + n) → t = s))
  ∧ (∀ (s t : State) base off (bs : Bytes), s.readWord base = (t, bs) →
      (s.spans (base / 0x10000) (base % 0x10000)).find? (fun x => decide (x.off ≤ base % 0x10000) && decide (base % 0x10000 < x.off + x.bytes.length)) = some ⟨base % 0x10000, off, true⟩ →
      (t.obp.latches.find? fun l => l.addr == base) = some ⟨base, off⟩ ∧ bs = padTo 4 (off.take 4))
  ∧ (∀ (s : State) a x l, (s.spans (a / 0x10000) (a % 0x10000)).find? (fun x => decide (x.off ≤ a % 0x10000) && decide (a % 0x10000 < x.off + x.bytes.length)) = some x → x.record = true →
      x.off < a % 0x10000 → (s.obp.latches.find? fun l => l.addr == a - (a % 0x10000 - x.off)) = some l → s.readWord a = (s, padTo 4 (slice l.bytes (a % 0x10000 - x.off) 4)))
  ∧ (∀ a n (s : State), 0 < n → a + n ≤ 0x200000 → ¬ (n = 4 ∧ observerWord a = true) → exec (.bar0WriteDiscard a n) s = .next { s with obp := { s.obp with bar0Drop := bump s.obp.bar0Drop } })
  ∧ (∀ a n (s : State), (s.replaying = false ∨ a < 0x400000 ∨ 0x400000 + windowBytes < a + n) → exec (.bar2WriteDiscard a n) s = .next { s with obp := { s.obp with writeDrop := bump s.obp.writeDrop } })

/-- For every command and state: where the command answers a next state, the parts of the device that partsOf does not list for it (of the 27
blocks of State, the queue among them) are the same after it as before. So a Grotto, observer or link command changes no product, no clock
or port command writes a memory, and no command changes another's block unnamed. (95_what_each_step_holds, R21, R440) -/
def Obligations.CommandsChangeOnlyTheirParts : Prop :=
  ∀ (c : Instr) (s t : State), exec c s = .next t → Only (partsOf c) s t
end

