-- ==== Sys2Proof/Laws/Frame.lean ====
section
/-! SUPPORT. What `Only` says, and the parts that each shared operation on the whole state may change. -/

namespace Sys2Proof.Machine

open Sys2Proof

theorem Only.of_or {m : List Part} {s t : State} (h : ∀ p : Part, p ∈ m ∨ p.same s t) : Only m s t :=
  fun p hp => (h p).resolve_left hp

theorem Part.same_refl (p : Part) (s : State) : p.same s s := by cases p <;> rfl

theorem Part.same_trans {p : Part} {s t u : State} (h : p.same s t) (k : p.same t u) : p.same s u := by
  cases p <;> exact Eq.trans k h

theorem Only.refl (m : List Part) (s : State) : Only m s s := fun p _ => p.same_refl s

theorem Only.trans {m : List Part} {s t u : State} (h : Only m s t) (k : Only m t u) : Only m s u :=
  fun p hp => Part.same_trans (h p hp) (k p hp)

theorem Only.mono {m n : List Part} {s t : State} (h : Only m s t) (k : ∀ p : Part, p ∈ m → p ∈ n) : Only n s t :=
  fun p hp => h p (fun q => hp (k p q))

/-- A change after a run of changes within the same parts. -/
theorem Only.foldl {α : Type} (m : List Part) (f : State → α → State) (h : ∀ s x, Only m s (f s x)) :
    ∀ (l : List α) (s : State), Only m s (l.foldl f s)
  | [], s => Only.refl m s
  | x :: l, s => (h s x).trans (Only.foldl m f h l (f s x))

theorem State.raise_only (s : State) (es : List Ev) : Only [.ev] s (s.raise es) :=
  Only.of_or fun p => by cases p <;> first | exact .inl (by decide) | exact .inr rfl

/-- A gated command changes what its own effect changes: in a stall nothing (R90). -/
theorem State.gate_only {m : List Part} {s t : State} {o : Host.Outcome State Fault Refusal} (h : ∀ u, o = .next u → Only m s u)
    (k : s.gate o = .next t) : Only m s t := by
  unfold State.gate at k; split at k
  · cases k; exact Only.refl _ _
  · exact h t k

theorem State.keepCopies_only (s : State) : Only [.guard] s s.keepCopies := by
  unfold State.keepCopies; split
  · exact Only.refl _ _
  · exact Only.of_or fun p => by cases p <;> first | exact .inl (by decide) | exact .inr rfl

theorem State.present_only (s : State) (h : Fin 64) (it : Item) (t : T64) (b : Bytes) : Only [.capture, .hgs] s (s.present h it t b) := by
  unfold State.present; split
  · exact Only.refl _ _
  · exact Only.of_or fun p => by cases p <;> first | exact .inl (by decide) | exact .inr rfl

theorem State.presentOpt_only (s : State) (o : Option (Fin 64 × T64 × Item × Bytes)) : Only [.capture, .hgs] s (s.presentOpt o) := by
  unfold State.presentOpt; split
  · exact State.present_only _ _ _ _ _
  · exact Only.refl _ _

theorem State.sample_only (s : State) (a b : Nat) (v : Int) : Only [.grt] s (s.sample a b v) := by
  unfold State.sample; dsimp only; split
  · exact Only.of_or fun p => by cases p <;> first | exact .inl (by decide) | exact .inr rfl
  · exact Only.refl _ _

theorem State.keepLive_only (s : State) : Only [.guard] s s.keepLive := by
  unfold State.keepLive; split
  · split
    · exact Only.refl _ _
    · exact Only.of_or fun p => by cases p <;> first | exact .inl (by decide) | exact .inr rfl
  · exact Only.of_or fun p => by cases p <;> first | exact .inl (by decide) | exact .inr rfl

theorem State.countQueryAt_only (s : State) (t α i : T64) : Only [.ev, .pl] s (s.countQueryAt t α i) := by
  unfold State.countQueryAt; split
  · exact Only.refl _ _
  · exact Only.of_or fun p => by cases p <;> first | exact .inl (by decide) | exact .inr rfl

theorem State.countQuery_only (s : State) (t α : T64) : Only [.ev, .pl] s (s.countQuery t α) := s.countQueryAt_only t α s.tb.now

theorem State.maskStreams_only (s : State) (l : List (Fin 64)) (r : BitVec 8) : Only [.ev, .hgs] s (s.maskStreams l r) :=
  Only.of_or fun p => by cases p <;> first | exact .inl (by decide) | exact .inr rfl

theorem State.setHg_only (s : State) (h : Fin 64) (r : Headgate × List Ev) : Only [.ev, .hgs] s (s.setHg h r) :=
  Only.of_or fun p => by cases p <;> first | exact .inl (by decide) | exact .inr rfl

theorem State.putChunk_only (s : State) (a b : Nat) (c d : T64) (e : Bytes) : Only [.ev, .capture, .mem] s (s.putChunk a b c d e) := by
  unfold State.putChunk; dsimp only; split
  · exact Only.refl _ _
  · split <;> exact Only.of_or fun p => by cases p <;> first | exact .inl (by decide) | exact .inr rfl

theorem State.writeItem_only (s : State) (x : CapItem) (l : List CapItem) : Only [.ev, .capture, .mem] s (s.writeItem x l) := by
  unfold State.writeItem
  refine Only.trans ?_ (State.putChunk_only _ _ _ _ _ _)
  exact Only.of_or fun p => by cases p <;> first | exact .inl (by decide) | exact .inr rfl

/-- All that writing the waiting records can change (R92). -/
theorem State.flushItems_only (s : State) : Only [.ev, .capture, .mem] s s.flushItems := by
  unfold State.flushItems
  exact Only.foldl _ _ (fun s x => s.writeItem_only x _) _ _

theorem State.installMap_only (s : State) : Only [.ev, .tb, .capture, .mem] s s.installMap := by
  unfold State.installMap; split
  · split
    · refine Only.trans (Only.trans (t := { s with tb := s.tb.installMap }) ?_ ((State.flushItems_only _).mono (by decide)))
        ((State.putChunk_only _ _ _ _ _ _).mono (by decide))
      exact Only.of_or fun p => by cases p <;> first | exact .inl (by decide) | exact .inr rfl
    · exact Only.refl _ _
  · exact Only.refl _ _

theorem State.plMismatch_only (s : State) : Only [.ev, .pl] s s.plMismatch :=
  Only.of_or fun p => by cases p <;> first | exact .inl (by decide) | exact .inr rfl

theorem State.poseLost_only (s : State) (t : T64) : Only [.ev, .pl] s (s.poseLost t) :=
  Only.of_or fun p => by cases p <;> first | exact .inl (by decide) | exact .inr rfl

theorem State.chargeDrops_only (s : State) (l o : List (BitVec 64)) : Only [.seq] s (s.chargeDrops l o) := by
  unfold State.chargeDrops; split
  · exact Only.refl _ _
  · exact Only.of_or fun p => by cases p <;> first | exact .inl (by decide) | exact .inr rfl

theorem State.handCore_only (s : State) (c : RsCfg) (k : Core) : Only [.cb, .pau, .seq] s (s.handCore c k) := by
  unfold State.handCore; dsimp only; split
  · exact Only.of_or fun p => by cases p <;> first | exact .inl (by decide) | exact .inr rfl
  · split
    · exact Only.trans (t := { s with cb := { s.cb with input := s.cb.input ++ [.hit k] }, pau := { s.pau with decorOverrun := bump s.pau.decorOverrun } })
        (by exact Only.of_or fun p => by cases p <;> first | exact .inl (by decide) | exact .inr rfl) ((State.chargeDrops_only _ _ _).mono (by decide))
    · exact Only.of_or fun p => by cases p <;> first | exact .inl (by decide) | exact .inr rfl

theorem State.forwardMarks_only (s : State) (p : Fin 4) : Only [.pau, .cb] s (s.forwardMarks p) :=
  Only.of_or fun p => by cases p <;> first | exact .inl (by decide) | exact .inr rfl

theorem State.compensateHead_only (s : State) (i : Fin 4) (w c : Bool) : Only [.ev, .seq, .pl, .pau, .cb] s (s.compensateHead i w c) := by
  unfold State.compensateHead; split
  · exact Only.refl _ _
  · split
    · exact Only.refl _ _
    · split
      · refine Only.trans ?_ ((State.forwardMarks_only _ _).mono (by decide))
        exact Only.of_or fun p => by cases p <;> first | exact .inl (by decide) | exact .inr rfl
      · dsimp only
        split
        · split
          · exact Only.refl _ _
          · exact Only.of_or fun p => by cases p <;> first | exact .inl (by decide) | exact .inr rfl
        · refine Only.trans ?_ ((State.forwardMarks_only _ _).mono (by decide))
          generalize hx : State.countQuery _ _ _ = x
          have h : Only [.ev, .seq, .pl, .pau, .cb] s x := hx ▸ Only.trans (by exact Only.of_or fun p => by cases p <;> first | exact .inl (by decide) | exact .inr rfl) ((State.countQuery_only _ _ _).mono (by decide))
          exact h.trans (Only.of_or fun p => by cases p <;> first | exact .inl (by decide) | exact .inr rfl)
        · refine Only.trans (Only.trans ?_ ((State.handCore_only _ _ _).mono (by decide))) ((State.forwardMarks_only _ _).mono (by decide))
          generalize hx : State.countQuery _ _ _ = x
          have h : Only [.ev, .seq, .pl, .pau, .cb] s x := hx ▸ Only.trans (by exact Only.of_or fun p => by cases p <;> first | exact .inl (by decide) | exact .inr rfl) ((State.countQuery_only _ _ _).mono (by decide))
          exact h.trans (Only.of_or fun p => by cases p <;> first | exact .inl (by decide) | exact .inr rfl)

/-- A timing miss changes the supervisors' copies, SEQ_ENTRY, the counters and the events (R419). -/
theorem State.miss_only (s : State) (n : BitVec 64) (e : Fin 256) : Only [.ev, .seq, .safety] s (s.miss n e) := by
  unfold State.miss; dsimp only; split
  · exact Only.refl _ _
  · exact Only.of_or fun p => by cases p <;> first | exact .inl (by decide) | exact .inr rfl

theorem State.timingFault_only (s : State) (n : BitVec 64) (e : Fin 256) (j : Nat) (k : EvKind) : Only [.ev, .seq, .safety] s (s.timingFault n e j k) := by
  unfold State.timingFault; split
  · exact Only.refl _ _
  · split
    · exact Only.refl _ _
    · split
      · exact Only.of_or fun p => by cases p <;> first | exact .inl (by decide) | exact .inr rfl
      · dsimp only
        split
        · exact Only.of_or fun p => by cases p <;> first | exact .inl (by decide) | exact .inr rfl
        · refine Only.trans ?_ ((State.miss_only _ _ _).mono (by decide))
          exact Only.of_or fun p => by cases p <;> first | exact .inl (by decide) | exact .inr rfl

theorem State.giveVerdict_only (s : State) (v : Verdict) (n : BitVec 64) (d : Nat) : Only [.ev, .weir, .guard] s (s.giveVerdict v n d) :=
  Only.trans ((State.keepCopies_only s).mono (by decide)) (Only.of_or fun p => by cases p <;> first | exact .inl (by decide) | exact .inr rfl)

theorem State.unitFailed_only (s : State) (x : BitVec 8) (n : BitVec 64) : Only [.ev, .pau, .weir, .guard] s (s.unitFailed x n) := by
  unfold State.unitFailed; split
  · exact (State.giveVerdict_only _ _ _ _).mono (by decide)
  · split
    · split
      · exact Only.of_or fun p => by cases p <;> first | exact .inl (by decide) | exact .inr rfl
      · exact Only.refl _ _
    · exact Only.refl _ _

theorem State.unitAborted_only (s : State) (x : BitVec 8) (n : BitVec 64) (f : Bool) : Only [.ev, .pau, .trk, .weir, .guard] s (s.unitAborted x n f) := by
  unfold State.unitAborted; split
  · exact Only.of_or fun p => by cases p <;> first | exact .inl (by decide) | exact .inr rfl
  · split
    · exact Only.refl _ _
    · exact (State.unitFailed_only _ _ _).mono (by decide)

theorem State.abortBatch_only (s : State) : Only [.qsa, .mem] s s.abortBatch :=
  Only.of_or fun p => by cases p <;> first | exact .inl (by decide) | exact .inr rfl

theorem State.abortAlign_only (s : State) : Only [.qsa, .mem] s s.abortAlign :=
  Only.of_or fun p => by cases p <;> first | exact .inl (by decide) | exact .inr rfl

theorem State.skipEntry_only (s : State) (n : BitVec 64) (e : Nat) : Only [.ev, .seq, .pau, .weir, .guard] s (s.skipEntry n e) := by
  unfold State.skipEntry; split
  · exact Only.refl _ _
  · dsimp only; split
    · exact Only.refl _ _
    · refine Only.trans ?_ ((State.unitFailed_only _ _ _).mono (by decide))
      exact Only.of_or fun p => by cases p <;> first | exact .inl (by decide) | exact .inr rfl

theorem State.skipSuccessors_only (s : State) (n : BitVec 64) (e : Nat) : Only [.ev, .seq, .pau, .weir, .guard] s (s.skipSuccessors n e) := by
  unfold State.skipSuccessors
  apply Only.foldl
  intro s k; split
  · exact State.skipEntry_only _ _ _
  · exact Only.refl _ _

theorem State.abort_only (s : State) (x : SchedEntry) (n : BitVec 64) (e j : Nat) (f : Bool) :
    Only [.ev, .seq, .pau, .tes, .trk, .qsa, .mem, .weir, .guard] s (s.abort x n e j f) := by
  unfold State.abort; split
  · exact Only.of_or fun p => by cases p <;> first | exact .inl (by decide) | exact .inr rfl
  · split
    · exact Only.refl _ _
    · dsimp only
      generalize hx : ({ s with seq := s.seq.freeUnit n e j } : State) = y
      have h : Only [.ev, .seq, .pau, .tes, .trk, .qsa, .mem, .weir, .guard] s y := hx ▸ (by exact Only.of_or fun p => by cases p <;> first | exact .inl (by decide) | exact .inr rfl)
      split
      · exact h.trans ((State.unitAborted_only _ _ _ _).mono (by decide))
      · split
        · exact h.trans ((State.abortBatch_only _).mono (by decide))
        · split
          · exact (h.trans ((State.abortAlign_only _).mono (by decide))).trans ((State.unitAborted_only _ _ _ _).mono (by decide))
          · exact h.trans ((State.unitAborted_only _ _ _ _).mono (by decide))

theorem State.startTask_only (s : State) (x : SchedEntry) (n : BitVec 64) (e : Fin 256) (j : Nat) : Only [.ev, .seq, .tes, .grt] s (s.startTask x n e j) := by
  unfold State.startTask; split
  · exact Only.of_or fun p => by cases p <;> first | exact .inl (by decide) | exact .inr rfl
  · refine Only.trans ?_ ((State.sample_only _ _ _ _).mono (by decide))
    exact Only.of_or fun p => by cases p <;> first | exact .inl (by decide) | exact .inr rfl

theorem State.countClear_only (s : State) : Only [.ev, .weir, .safety] s s.countClear :=
  Only.of_or fun p => by cases p <;> first | exact .inl (by decide) | exact .inr rfl

theorem State.readRecord_only (s : State) (h : Fin 64) (r : Rec) : Only [.pl, .pau, .cb] s (s.readRecord h r) := by
  unfold State.readRecord; split
  · dsimp only; split
    · refine Only.trans ?_ ((State.forwardMarks_only _ _).mono (by decide))
      exact Only.of_or fun p => by cases p <;> first | exact .inl (by decide) | exact .inr rfl
    · exact Only.of_or fun p => by cases p <;> first | exact .inl (by decide) | exact .inr rfl
  · exact Only.of_or fun p => by cases p <;> first | exact .inl (by decide) | exact .inr rfl
  · split
    · exact Only.of_or fun p => by cases p <;> first | exact .inl (by decide) | exact .inr rfl
    · exact Only.refl _ _

theorem State.skipRecord_only (s : State) (r : Rec) : Only [.pau] s (s.skipRecord r) := by
  unfold State.skipRecord; split <;> first | exact Only.refl _ _ | exact Only.of_or fun p => by cases p <;> first | exact .inl (by decide) | exact .inr rfl

theorem State.flumeUe_only (s : State) (h : Fin 64) (g : Headgate) : Only [.ev, .hgs] s (s.flumeUe h g) :=
  Only.of_or fun p => by cases p <;> first | exact .inl (by decide) | exact .inr rfl

theorem State.setBus_only (s : State) (m : Fin 2) (r : BusPort × List (Fin 64) × List Ev) : Only [.ev, .ports, .hgs] s (s.setBus m r) :=
  Only.of_or fun p => by cases p <;> first | exact .inl (by decide) | exact .inr rfl

theorem State.deliver_only (s : State) (h : Fin 64) (c : HgCfg) (t : T64) (b : Bytes) : Only [.capture, .ports, .hgs] s (s.deliver h c t b) := by
  unfold State.deliver; split
  · dsimp only; split
    · refine Only.trans ?_ ((State.present_only _ _ _ _ _).mono (by decide))
      exact Only.of_or fun p => by cases p <;> first | exact .inl (by decide) | exact .inr rfl
    · exact Only.of_or fun p => by cases p <;> first | exact .inl (by decide) | exact .inr rfl
  · split
    · dsimp only; split <;> first | exact Only.refl _ _ | exact (State.present_only _ _ _ _ _).mono (by decide)
    · exact (State.present_only _ _ _ _ _).mono (by decide)

theorem State.keepDigest_only (s : State) (n : BitVec 64) : Only [.out] s (s.keepDigest n) := by
  unfold State.keepDigest; split
  · exact Only.refl _ _
  · exact Only.of_or fun p => by cases p <;> first | exact .inl (by decide) | exact .inr rfl

theorem State.queueCopy_only (s : State) (p : Fin 2) (q : Fin 8) (f : List Fragment) : Only [.ev, .out] s (s.queueCopy p q f) := by
  unfold State.queueCopy; dsimp only; split
  · exact Only.of_or fun p => by cases p <;> first | exact .inl (by decide) | exact .inr rfl
  · split <;> exact Only.of_or fun p => by cases p <;> first | exact .inl (by decide) | exact .inr rfl

theorem State.emit_only (s : State) (k : Fin 6) (e : Emission) : Only [.ev, .out] s (s.emit k e) := by
  unfold State.emit; dsimp only; split
  · exact Only.refl _ _
  · split
    · exact Only.of_or fun p => by cases p <;> first | exact .inl (by decide) | exact .inr rfl
    · split
      · refine Only.trans ?_ (State.queueCopy_only _ _ _ _)
        split
        · refine Only.trans ?_ (State.queueCopy_only _ _ _ _)
          exact Only.of_or fun p => by cases p <;> first | exact .inl (by decide) | exact .inr rfl
        · exact Only.of_or fun p => by cases p <;> first | exact .inl (by decide) | exact .inr rfl
      · split
        · refine Only.trans ?_ (State.queueCopy_only _ _ _ _)
          exact Only.of_or fun p => by cases p <;> first | exact .inl (by decide) | exact .inr rfl
        · exact Only.of_or fun p => by cases p <;> first | exact .inl (by decide) | exact .inr rfl

theorem State.publish_only (s : State) (f : Frame) (a : Bool) : Only [.ev, .seq, .trk, .out, .grt] s (s.publish f a) := by
  unfold State.publish; dsimp only
  have e : ∀ (s : State) k x, Only [.ev, .seq, .trk, .out, .grt] s (s.emit k x) := fun s k x => (s.emit_only k x).mono (by decide)
  refine Only.trans ?_ ((State.sample_only _ _ _ _).mono (by decide))
  generalize hd : State.keepDigest _ _ = s0
  have h : Only [.ev, .seq, .trk, .out, .grt] s s0 := hd ▸ (State.keepDigest_only _ _).mono (by decide)
  generalize h1 : State.emit _ 0 _ = s2
  have h2 : Only [.ev, .seq, .trk, .out, .grt] s s2 := by
    refine h1 ▸ Only.trans ?_ (e _ _ _)
    exact h.trans (Only.of_or fun p => by cases p <;> first | exact .inl (by decide) | exact .inr rfl)
  generalize h3 : State.emit _ 1 _ = s3
  have h4 : Only [.ev, .seq, .trk, .out, .grt] s s3 := h3 ▸ h2.trans (e _ _ _)
  split
  · generalize h5 : State.emit _ 3 _ = s5
    have h : Only [.ev, .seq, .trk, .out, .grt] s s5 := h5 ▸ (h4.trans (e _ _ _)).trans (e _ _ _)
    exact h.trans (Only.of_or fun p => by cases p <;> first | exact .inl (by decide) | exact .inr rfl)
  · have h := h4
    exact h.trans (Only.of_or fun p => by cases p <;> first | exact .inl (by decide) | exact .inr rfl)

theorem State.queueCan_only (s : State) (c m : Fin 2) (w : Word) : Only [.out] s (s.queueCan c m w) := by
  unfold State.queueCan; split
  · exact Only.refl _ _
  · exact Only.of_or fun p => by cases p <;> first | exact .inl (by decide) | exact .inr rfl

theorem State.buildCan_only (s : State) (m : Fin 2) (w : Word) : Only [.out] s (s.buildCan m w) :=
  (State.queueCan_only _ _ _ _).trans (State.queueCan_only _ _ _ _)

theorem State.writeCommand_only (s : State) (c : MotionCmd) (f : Option Frame) : Only [.ev, .qsa, .guard, .out] s (s.writeCommand c f) := by
  unfold State.writeCommand; dsimp only
  refine Only.trans ?_ ((State.emit_only _ _ _).mono (by decide))
  refine Only.trans ((State.keepCopies_only s).mono (by decide)) ?_
  exact Only.of_or fun p => by cases p <;> first | exact .inl (by decide) | exact .inr rfl

theorem State.runLanes_only (s : State) (r : Nat) (p : PoseRec) : Only [.ev, .qsa, .mem] s (s.runLanes r p).1 :=
  Only.of_or fun p => by cases p <;> first | exact .inl (by decide) | exact .inr rfl

theorem State.keepFeed_only (s : State) (f : Option Frame) : Only [.out] s (s.keepFeed f) := by
  unfold State.keepFeed; split
  · exact State.keepDigest_only _ _
  · exact Only.refl _ _

theorem State.batch_only (s : State) (p : PoseRec) (f : Feed) (l : T64) : Only [.ev, .qsa, .mem, .guard, .out] s (s.batch p f l) := by
  unfold State.batch; dsimp only
  have w : ∀ (s : State) c f, Only [.ev, .qsa, .mem, .guard, .out] s (s.writeCommand c f) := fun s c f => (s.writeCommand_only c f).mono (by decide)
  generalize hx : State.keepFeed _ _ = x
  have h : Only [.ev, .qsa, .mem, .guard, .out] s x :=
    hx ▸ Only.trans (Only.of_or fun p => by cases p <;> first | exact .inl (by decide) | exact .inr rfl) ((State.keepFeed_only _ _).mono (by decide))
  split
  · refine Only.trans ?_ (w _ _ _)
    exact h.trans (Only.of_or fun p => by cases p <;> first | exact .inl (by decide) | exact .inr rfl)
  · split
    · generalize hr : State.runLanes _ _ _ = r
      have h : Only [.ev, .qsa, .mem, .guard, .out] s r.1 := hr ▸ h.trans ((State.runLanes_only _ _ _).mono (by decide))
      split
      · refine Only.trans ?_ (w _ _ _)
        exact h.trans (Only.of_or fun p => by cases p <;> first | exact .inl (by decide) | exact .inr rfl)
      · refine Only.trans ?_ (w _ _ _)
        exact h.trans (Only.of_or fun p => by cases p <;> first | exact .inl (by decide) | exact .inr rfl)
    · refine Only.trans ?_ (w _ _ _)
      exact h.trans (Only.of_or fun p => by cases p <;> first | exact .inl (by decide) | exact .inr rfl)

theorem State.cisternEcc_only (s : State) (b : Fin 64) (a : Nat) (e : EccFind) : Only [.ev, .mem] s (s.cisternEcc b a e) := by
  unfold State.cisternEcc; split
  · exact Only.of_or fun p => by cases p <;> first | exact .inl (by decide) | exact .inr rfl
  · split
    · exact Only.of_or fun p => by cases p <;> first | exact .inl (by decide) | exact .inr rfl
    · exact Only.refl _ _

theorem State.flushAll_only (s : State) : Only [.ev, .tes] s s.flushAll := by
  unfold State.flushAll
  refine Only.foldl _ _ (fun s t => ?_) _ _
  refine Only.foldl _ _ (fun s q => ?_) _ _
  exact Only.of_or fun p => by cases p <;> first | exact .inl (by decide) | exact .inr rfl

theorem State.enterSafe_only (s : State) (a b : Bool) : Only [.ev, .seq, .tes, .qsa, .guard, .safety, .bcc] s (s.enterSafe a b) := by
  unfold State.enterSafe; dsimp only
  refine Only.trans ((State.keepCopies_only s).mono (by decide)) ?_
  split
  · exact Only.of_or fun p => by cases p <;> first | exact .inl (by decide) | exact .inr rfl
  · generalize hx : State.flushAll _ = x
    have h : Only [.ev, .seq, .tes, .qsa, .guard, .safety, .bcc] s.keepCopies x :=
      hx ▸ Only.trans (by exact Only.of_or fun p => by cases p <;> first | exact .inl (by decide) | exact .inr rfl) ((State.flushAll_only _).mono (by decide))
    exact h.trans (Only.of_or fun p => by cases p <;> first | exact .inl (by decide) | exact .inr rfl)

theorem State.enterDegraded_only (s : State) : Only [.ev, .guard, .safety] s s.enterDegraded :=
  Only.trans ((State.keepCopies_only s).mono (by decide)) <| Only.of_or fun p => by cases p <;> first | exact .inl (by decide) | exact .inr rfl

theorem State.toPair_only (s : State) (p : PairSt) (e : Ev) : Only [.ev, .guard, .qnt] s (s.toPair p e) :=
  Only.trans ((State.keepCopies_only s).mono (by decide)) <| Only.of_or fun p => by cases p <;> first | exact .inl (by decide) | exact .inr rfl

theorem State.evalPair_only (s : State) : Only [.ev, .guard, .qnt] s s.evalPair := by
  unfold State.evalPair; dsimp only
  repeat' split
  all_goals first | exact Only.refl _ _ | exact State.toPair_only _ _ _

theorem State.takeMessage_only (s : State) (t : Nat) (i : BitVec 8) (p : Bytes) (c : Cell) : Only [.qnt] s (s.takeMessage t i p c) := by
  unfold State.takeMessage; dsimp only
  repeat' split
  all_goals first | exact Only.refl _ _ | exact Only.of_or fun p => by cases p <;> first | exact .inl (by decide) | exact .inr rfl

theorem State.withTes_only (s : State) (r : Tes × Memory × List Ev) : Only [.ev, .tes, .mem] s (s.withTes r) :=
  Only.of_or fun p => by cases p <;> first | exact .inl (by decide) | exact .inr rfl

theorem State.taskEnd_only (s : State) (e : TaskEnd) : Only [.ev, .seq] s (s.taskEnd e) := by
  unfold State.taskEnd
  repeat' split
  all_goals first | exact Only.refl _ _ | exact Only.of_or fun p => by cases p <;> first | exact .inl (by decide) | exact .inr rfl

theorem State.atG_only (s : State) : Only [.ev, .tb, .capture, .mem, .safety, .qnt] s s.atG := by
  unfold State.atG; dsimp only
  have h := (State.installMap_only s).mono (n := [.ev, .tb, .capture, .mem, .safety, .qnt]) (by decide)
  repeat' split
  all_goals first | exact h | exact h.trans (Only.of_or fun p => by cases p <;> first | exact .inl (by decide) | exact .inr rfl)

theorem State.fillSlot_only (s : State) (i : Installed) : Only [.tes, .mem] s (s.fillSlot i) := by
  unfold State.fillSlot; dsimp only; split <;> exact Only.of_or fun p => by cases p <;> first | exact .inl (by decide) | exact .inr rfl

set_option maxRecDepth 4000 in
theorem State.apply_only (s : State) (i : Installed) :
    Only [.ev, .tb, .isl, .ports, .hgs, .pl, .pau, .tes, .kv, .trk, .qsa, .mem, .cb, .guard, .safety, .qnt, .out, .grt, .obp] s (s.apply i) := by
  unfold State.apply; dsimp only
  split <;> (try split)
  all_goals first
    | refine Only.trans ?_ (Only.mono (State.fillSlot_only _ i) (by decide))
      exact Only.of_or fun p => by cases p <;> first | exact .inl (by decide) | exact .inr rfl
    | exact Only.of_or fun p => by cases p <;> first | exact .inl (by decide) | exact .inr rfl

set_option maxRecDepth 4000 in
theorem State.releaseS1_only (s : State) :
    Only [.ev, .tb, .isl, .ports, .hgs, .pl, .pau, .tes, .kv, .trk, .qsa, .mem, .cb, .guard, .safety, .qnt, .bcc, .out, .grt, .obp] s s.releaseS1 := by
  unfold State.releaseS1; dsimp only
  generalize hx : List.foldl State.apply _ _ = x
  have h : Only [.ev, .tb, .isl, .ports, .hgs, .pl, .pau, .tes, .kv, .trk, .qsa, .mem, .cb, .guard, .safety, .qnt, .bcc, .out, .grt, .obp] s x :=
    hx ▸ Only.foldl _ _ (fun s i => (State.apply_only s i).mono (by decide)) _ _
  exact h.trans (Only.of_or fun p => by cases p <;> first | exact .inl (by decide) | exact .inr rfl)

set_option maxRecDepth 4000 in
theorem State.installLater_only (s : State) (i : Installed) :
    Only [.ev, .tb, .isl, .ports, .hgs, .pl, .pau, .tes, .kv, .trk, .qsa, .mem, .cb, .guard, .safety, .qnt, .out, .grt, .obp] s (s.installLater i) := by
  unfold State.installLater; dsimp only
  generalize hx : s.apply i = x
  have h : Only [.ev, .tb, .isl, .ports, .hgs, .pl, .pau, .tes, .kv, .trk, .qsa, .mem, .cb, .guard, .safety, .qnt, .out, .grt, .obp] s x := hx ▸ State.apply_only s i
  split
  · exact h.trans (Only.of_or fun p => by cases p <;> first | exact .inl (by decide) | exact .inr rfl)
  · exact h

theorem State.enterContent_only (s : State) (i : Installed) : Only [.seq, .pcu, .tes, .mem] s (s.enterContent i) := by
  unfold State.enterContent; dsimp only
  split <;> (try split) <;> first | exact Only.refl _ _ | exact Only.of_or fun p => by cases p <;> first | exact .inl (by decide) | exact .inr rfl

theorem State.enterStage_only (s : State) (n : Nat) : Only [.ev, .seq, .pcu, .tes, .mem, .guard, .bcc] s (s.enterStage n) := by
  unfold State.enterStage; dsimp only
  generalize hx : List.foldl State.enterContent _ _ = x
  have h : Only [.ev, .seq, .pcu, .tes, .mem, .guard, .bcc] s x :=
    hx ▸ Only.trans ((State.keepCopies_only s).mono (by decide)) (Only.foldl _ _ (fun s i => (State.enterContent_only s i).mono (by decide)) _ _)
  exact h.trans (Only.of_or fun p => by cases p <;> first | exact .inl (by decide) | exact .inr rfl)

theorem State.commitSvn_only (s : State) : Only [.ev, .bcc] s s.commitSvn := by
  unfold State.commitSvn; split
  · exact Only.of_or fun p => by cases p <;> first | exact .inl (by decide) | exact .inr rfl
  · exact Only.refl _ _

theorem State.readWord_only (s : State) (a : Nat) : Only [.obp] s (s.readWord a).1 := by
  unfold State.readWord; dsimp only
  repeat' split
  all_goals first | exact Only.refl _ _ | exact Only.of_or fun p => by cases p <;> first | exact .inl (by decide) | exact .inr rfl

theorem State.readWords_only (s : State) (a n : Nat) : Only [.obp] s (s.readWords a n).1 := by
  induction n generalizing s a with
  | zero => exact Only.refl _ _
  | succ n ih => exact (State.readWord_only s a).trans (ih _ _)

theorem State.resetWith_only (s : State) : s.resetWith.pending = s.pending := rfl

end Sys2Proof.Machine
end

