-- ==== Sys2Proof/Laws/Memory.lean ====
section
/-! SUPPORT. The addressed memories: the canonical form is kept by every operation, a read after a write gives the value written, and a write
leaves every other byte alone. -/

namespace Sys2Proof.Machine

open Sys2Proof

/-! ### Lists of cells -/

theorem cellsWf_cons (k : Nat) (b : Byte) (r : List Host.Cell) :
    cellsWf ((k, b) :: r) = true ↔ b ≠ 0 ∧ (∀ c ∈ r, k < c.1) ∧ cellsWf r = true := by
  induction r generalizing k b with
  | nil => simp [cellsWf]
  | cons c r ih =>
    obtain ⟨j, x⟩ := c
    simp only [cellsWf, Bool.and_eq_true, bne_iff_ne, decide_eq_true_eq, List.mem_cons, forall_eq_or_imp]
    constructor
    · rintro ⟨⟨hb, hk⟩, hr⟩
      refine ⟨hb, ⟨hk, fun c hc => ?_⟩, hr⟩
      exact Nat.lt_trans hk (((ih j x).1 hr).2.1 c hc)
    · rintro ⟨hb, ⟨hk, -⟩, hr⟩
      exact ⟨⟨hb, hk⟩, hr⟩

theorem cellsGet_above {r : List Host.Cell} {a : Nat} (h : ∀ c ∈ r, a < c.1) : cellsGet r a = 0 := by
  induction r with
  | nil => rfl
  | cons c r ih =>
    obtain ⟨k, b⟩ := c
    have hk : a < k := h (k, b) (List.mem_cons_self ..)
    rw [cellsGet, if_neg (by omega)]
    exact ih fun c hc => h c (List.mem_cons_of_mem _ hc)

theorem mem_cellsSet {m : List Host.Cell} {a : Nat} {v : Byte} {c : Host.Cell} (h : c ∈ cellsSet m a v) : c ∈ m ∨ c = (a, v) := by
  induction m with
  | nil => simp only [cellsSet] at h; split at h <;> simp_all
  | cons d r ih =>
    obtain ⟨k, b⟩ := d
    simp only [cellsSet] at h
    split at h
    · rcases List.mem_cons.1 h with h | h
      · exact .inl (by rw [h]; exact List.mem_cons_self ..)
      · rcases ih h with h | h
        · exact .inl (List.mem_cons_of_mem _ h)
        · exact .inr h
    · split at h
      · split at h
        · exact .inl (List.mem_cons_of_mem _ h)
        · rcases List.mem_cons.1 h with h | h
          · exact .inr h
          · exact .inl (List.mem_cons_of_mem _ h)
      · split at h
        · exact .inl h
        · rcases List.mem_cons.1 h with h | h
          · exact .inr h
          · exact .inl h

theorem cellsSet_wf {m : List Host.Cell} (a : Nat) (v : Byte) (h : cellsWf m = true) : cellsWf (cellsSet m a v) = true := by
  induction m with
  | nil => simp only [cellsSet]; split <;> simp_all [cellsWf]
  | cons d r ih =>
    obtain ⟨k, b⟩ := d
    obtain ⟨hb, ha, hr⟩ := (cellsWf_cons k b r).1 h
    simp only [cellsSet]
    split
    · rename_i hk
      refine (cellsWf_cons ..).2 ⟨hb, fun c hc => ?_, ih hr⟩
      rcases mem_cellsSet hc with hc | hc
      · exact ha c hc
      · rw [hc]; exact hk
    · split
      · rename_i hk
        split
        · exact hr
        · rename_i hv
          exact (cellsWf_cons ..).2 ⟨hv, fun c hc => by have := ha c hc; omega, hr⟩
      · split
        · exact h
        · rename_i hv
          refine (cellsWf_cons ..).2 ⟨hv, fun c hc => ?_, h⟩
          rcases List.mem_cons.1 hc with hc | hc
          · rw [hc]; simp only; omega
          · have := ha c hc; omega

theorem cellsGet_cellsSet {m : List Host.Cell} (a : Nat) (v : Byte) (x : Nat) (h : cellsWf m = true) :
    cellsGet (cellsSet m a v) x = if x = a then v else cellsGet m x := by
  induction m with
  | nil =>
    simp only [cellsSet]
    split
    · rename_i hv
      by_cases hx : x = a <;> simp [cellsGet, hx, hv]
    · by_cases hx : x = a
      · simp [cellsGet, hx]
      · have : ¬ a = x := fun e => hx e.symm
        simp [cellsGet, hx, this]
  | cons d r ih =>
    obtain ⟨k, b⟩ := d
    obtain ⟨hb, ha, hr⟩ := (cellsWf_cons k b r).1 h
    have ih := ih hr
    simp only [cellsSet]
    split
    · rename_i hk
      rw [cellsGet, cellsGet, ih]
      by_cases hx : x = a
      · simp [hx, show ¬ k = a by omega]
      · simp only [if_neg hx]
    · split
      · rename_i hk
        split
        · rename_i hv
          by_cases hx : x = a
          · rw [if_pos hx, hv]
            exact cellsGet_above fun c hc => by have := ha c hc; omega
          · rw [if_neg hx, cellsGet, if_neg (by omega)]
        · by_cases hx : x = a
          · rw [if_pos hx, cellsGet, if_pos hx.symm]
          · rw [if_neg hx, cellsGet, cellsGet, if_neg (fun e => hx e.symm), if_neg (by omega)]
      · split
        · rename_i hv
          by_cases hx : x = a
          · rw [if_pos hx, hv]
            refine cellsGet_above fun c hc => ?_
            rcases List.mem_cons.1 hc with hc | hc
            · rw [hc]; simp only; omega
            · have := ha c hc; omega
          · rw [if_neg hx]
        · by_cases hx : x = a
          · rw [if_pos hx, cellsGet, if_pos hx.symm]
          · rw [if_neg hx, cellsGet, if_neg (fun e => hx e.symm)]

theorem cellsPut_wf {m : List Host.Cell} (a : Nat) (bs : Bytes) (h : cellsWf m = true) : cellsWf (cellsPut m a bs) = true := by
  induction bs generalizing m a with
  | nil => exact h
  | cons b bs ih => exact ih _ (cellsSet_wf a b h)

theorem cellsGet_cellsPut {m : List Host.Cell} (a : Nat) (bs : Bytes) (x : Nat) (h : cellsWf m = true) :
    cellsGet (cellsPut m a bs) x = if a ≤ x ∧ x < a + bs.length then bs.getD (x - a) 0 else cellsGet m x := by
  induction bs generalizing m a with
  | nil => rw [if_neg (by simp only [List.length_nil]; omega)]; rfl
  | cons b bs ih =>
    rw [cellsPut, ih _ (cellsSet_wf a b h), cellsGet_cellsSet _ _ _ h]
    simp only [List.length_cons]
    by_cases h1 : x = a
    · subst h1
      rw [if_neg (by omega), if_pos rfl, if_pos (by omega), Nat.sub_self]; rfl
    · by_cases h2 : a ≤ x ∧ x < a + (bs.length + 1)
      · rw [if_pos (by omega), if_pos h2]
        have : x - a = (x - (a + 1)) + 1 := by omega
        rw [this]; rfl
      · rw [if_neg (by omega), if_neg h1, if_neg h2]

theorem cellsWf_filter {m : List Host.Cell} (p : Host.Cell → Bool) (h : cellsWf m = true) : cellsWf (m.filter p) = true := by
  induction m with
  | nil => exact h
  | cons d r ih =>
    obtain ⟨k, b⟩ := d
    obtain ⟨hb, ha, hr⟩ := (cellsWf_cons k b r).1 h
    rw [List.filter_cons]
    split
    · exact (cellsWf_cons ..).2 ⟨hb, fun c hc => ha c (List.mem_filter.1 hc).1, ih hr⟩
    · exact ih hr

theorem cellsZero_wf {m : List Host.Cell} (a n : Nat) (h : cellsWf m = true) : cellsWf (cellsZero m a n) = true := cellsWf_filter _ h

theorem cellsGet_cellsZero (m : List Host.Cell) (a n x : Nat) :
    cellsGet (cellsZero m a n) x = if a ≤ x ∧ x < a + n then 0 else cellsGet m x := by
  induction m with
  | nil => simp [cellsZero, cellsGet]
  | cons d r ih =>
    obtain ⟨k, b⟩ := d
    simp only [cellsZero, List.filter_cons] at ih ⊢
    split
    · rename_i hk
      simp only [Bool.not_eq_true', Bool.and_eq_false_iff, decide_eq_false_iff_not] at hk
      rw [cellsGet, ih, cellsGet]
      by_cases hx : k = x
      · rw [if_pos hx, if_pos hx, if_neg (by omega)]
      · rw [if_neg hx, if_neg hx]
    · rename_i hk
      simp only [Bool.not_eq_true', Bool.and_eq_false_iff, decide_eq_false_iff_not, not_or, Decidable.not_not] at hk
      rw [ih, cellsGet]
      by_cases hx : k = x
      · rw [if_pos (by omega), if_pos (by omega)]
      · rw [if_neg hx]

@[simp] theorem cellsRead_length (m : List Host.Cell) (a n : Nat) : (cellsRead m a n).length = n := by
  induction n generalizing a with
  | zero => rfl
  | succ n ih => simp [cellsRead, ih]

theorem cellsRead_getD (m : List Host.Cell) (a n i : Nat) (h : i < n) : (cellsRead m a n).getD i 0 = cellsGet m (a + i) := by
  induction n generalizing a i with
  | zero => omega
  | succ n ih =>
    cases i with
    | zero => rfl
    | succ i =>
      have := ih (a + 1) i (by omega)
      rw [show a + (i + 1) = a + 1 + i by omega, ← this]; rfl

/-! ### Spaces -/

theorem Memory.wf_iff (m : Memory) :
    m.wf = true ↔ cellsWf m.cistern = true ∧ (∀ t : Fin 4, cellsWf m.local_[t] = true) ∧ cellsWf m.dram = true := by
  unfold Memory.wf
  rw [Bool.and_eq_true, Bool.and_eq_true, List.all_eq_true]
  constructor
  · rintro ⟨⟨a, b⟩, c⟩
    exact ⟨a, fun t => b _ (by simp), c⟩
  · rintro ⟨a, b, c⟩
    refine ⟨⟨a, fun x hx => ?_⟩, c⟩
    obtain ⟨i, hi, rfl⟩ := List.getElem_of_mem hx
    have hi' : i < 4 := by simpa using hi
    simpa using b ⟨i, hi'⟩

theorem Memory.wf_cells {m : Memory} (h : m.wf = true) (sp : Space) : cellsWf (m.cells sp) = true := by
  obtain ⟨a, b, c⟩ := (Memory.wf_iff m).1 h
  cases sp with
  | cistern => exact a
  | loc t => exact b t
  | dram => exact c

/-- Replacing a space's cells by canonical ones keeps the form. -/
theorem Memory.withSpace_wf {m : Memory} (sp : Space) {c : List Host.Cell} (b : List Nat) (h : m.wf = true) (hc : cellsWf c = true) :
    (m.withSpace sp c b).wf = true := by
  obtain ⟨x, y, z⟩ := (Memory.wf_iff m).1 h
  refine (Memory.wf_iff _).2 ?_
  cases sp with
  | cistern => exact ⟨hc, y, z⟩
  | loc t =>
    refine ⟨x, fun k => ?_, z⟩
    simp only [Memory.withSpace]
    by_cases e : t = k
    · subst e; simpa using hc
    · have : t.val ≠ k.val := fun q => e (Fin.ext q)
      simpa [Vector.getElem_set, this] using y k
  | dram => exact ⟨x, y, hc⟩

/-- Every operation on memory keeps the canonical form. -/
theorem Memory.write_wf {m : Memory} (sp : Space) (a : Nat) (bs : Bytes) (h : m.wf = true) : (m.write sp a bs).wf = true := by
  unfold Memory.write; split
  · exact h
  · exact Memory.withSpace_wf sp _ h (cellsPut_wf a bs (Memory.wf_cells h sp))

theorem Memory.writeAt_wf {m : Memory} (p : Place) (off : Nat) (bs : Bytes) (h : m.wf = true) : (m.writeAt p off bs).wf = true :=
  Memory.write_wf _ _ _ h

theorem Memory.zero_wf {m : Memory} (sp : Space) (a n : Nat) (h : m.wf = true) : (m.zero sp a n).wf = true := by
  unfold Memory.zero; split
  · exact h
  · exact Memory.withSpace_wf sp _ h (cellsZero_wf a n (Memory.wf_cells h sp))

theorem Memory.poison_wf {m : Memory} (sp : Space) (w : Nat) (h : m.wf = true) : (m.poison sp w).wf = true :=
  Memory.withSpace_wf sp _ h (Memory.wf_cells h sp)

/-- Another space is not touched. -/
theorem Memory.withSpace_other (m : Memory) {sp so : Space} (c : List Host.Cell) (b : List Nat) (h : so ≠ sp) :
    (m.withSpace sp c b).cells so = m.cells so ∧ (m.withSpace sp c b).bad so = m.bad so := by
  cases sp <;> cases so <;> first | exact absurd rfl h | exact ⟨rfl, rfl⟩ | skip
  rename_i t k
  have : t.val ≠ k.val := fun q => h (by rw [Fin.ext q])
  refine ⟨?_, rfl⟩
  simp [Memory.withSpace, Memory.cells, this]

@[simp] theorem Memory.withSpace_cells (m : Memory) (sp : Space) (c : List Host.Cell) (b : List Nat) : (m.withSpace sp c b).cells sp = c := by
  cases sp <;> simp [Memory.withSpace, Memory.cells]

theorem Memory.get_other (m : Memory) {sp so : Space} (c : List Host.Cell) (b : List Nat) (a : Nat) (h : so ≠ sp) :
    (m.withSpace sp c b).get so a = m.get so a := by
  unfold Memory.get
  rw [(m.withSpace_other c b h).1, (m.withSpace_other c b h).2]

theorem Memory.write_other (m : Memory) {sp so : Space} (a : Nat) (bs : Bytes) (x : Nat) (h : so ≠ sp) : (m.write sp a bs).get so x = m.get so x := by
  unfold Memory.write; split
  · rfl
  · exact m.get_other _ _ _ h

/-- Words of a space that are poisoned after a write: those that were and that it does not touch. -/
theorem mem_badDel {l : List Nat} {a n w : Nat} : w ∈ badDel l a n ↔ w ∈ l ∧ (w < a / 8 ∨ (a + n - 1) / 8 < w) := by
  unfold badDel
  simp only [List.mem_filter, Bool.not_eq_true', Bool.and_eq_false_iff, decide_eq_false_iff_not]
  constructor <;> rintro ⟨h, k⟩ <;> exact ⟨h, by omega⟩

theorem Memory.write_bad (m : Memory) (sp : Space) (a : Nat) (bs : Bytes) (w : Nat) (hb : bs ≠ []) :
    w ∈ (m.write sp a bs).bad sp ↔ w ∈ m.bad sp ∧ (w < a / 8 ∨ (a + bs.length - 1) / 8 < w) := by
  have he : bs.isEmpty = false := by cases bs <;> simp_all
  unfold Memory.write
  rw [he]
  cases sp <;> simp [Memory.withSpace, Memory.bad, mem_badDel]

/-- A byte written reads back, whatever it was before. -/
theorem Memory.get_write {m : Memory} (sp : Space) (a : Nat) (bs : Bytes) (i : Nat) (h : m.wf = true) (hi : i < bs.length) :
    (m.write sp a bs).get sp (a + i) = bs.getD i 0 := by
  have hb : bs ≠ [] := by intro e; rw [e] at hi; simp at hi
  have hn : ((m.write sp a bs).bad sp).contains ((a + i) / 8) = false := by
    rw [Bool.eq_false_iff]
    intro c
    have := (m.write_bad sp a bs _ hb).1 (List.contains_iff_mem.1 c)
    omega
  have he : bs.isEmpty = false := by cases bs <;> simp_all
  unfold Memory.get
  rw [hn]
  unfold Memory.write
  rw [he]
  simp only [Bool.false_eq_true, if_false, Memory.withSpace_cells]
  rw [cellsGet_cellsPut _ _ _ (Memory.wf_cells h sp), if_pos (by omega), Nat.add_sub_cancel_left]

/-- A byte in a word that a write does not touch keeps its value. -/
theorem Memory.get_write_out {m : Memory} (sp : Space) (a : Nat) (bs : Bytes) (x : Nat) (h : m.wf = true)
    (hx : x / 8 < a / 8 ∨ (a + bs.length - 1) / 8 < x / 8) : (m.write sp a bs).get sp x = m.get sp x := by
  cases hb : bs.isEmpty with
  | true => unfold Memory.write; rw [hb]; rfl
  | false =>
    have hne : bs ≠ [] := by intro e; rw [e] at hb; exact absurd hb (by decide)
    have hl : 0 < bs.length := List.length_pos_iff.2 hne
    have hc : ((m.write sp a bs).bad sp).contains (x / 8) = (m.bad sp).contains (x / 8) := by
      rw [Bool.eq_iff_iff, List.contains_iff_mem, List.contains_iff_mem, m.write_bad sp a bs _ hne]
      exact ⟨fun q => q.1, fun q => ⟨q, hx⟩⟩
    have hg : cellsGet ((m.write sp a bs).cells sp) x = cellsGet (m.cells sp) x := by
      unfold Memory.write
      rw [hb]
      simp only [Bool.false_eq_true, if_false, Memory.withSpace_cells]
      rw [cellsGet_cellsPut _ _ _ (Memory.wf_cells h sp), if_neg (by omega)]
    unfold Memory.get
    rw [hc, hg]

end Sys2Proof.Machine
end

