-- ==== Sys2Proof/Laws/PerInstr.lean ====
section
/-! SUPPORT. What the table of parts says of each command as written: no command names the queue, none names a part twice. -/

namespace Sys2Proof.Laws.Parts

open Sys2Proof Sys2Proof.Machine

/-- No part stands twice in a list. -/
def namedOnce : List Part → Bool
  | [] => true
  | p :: l => !l.contains p && namedOnce l

/-- The parts that a command may change: never the queue, and each named once. -/
def Statement (i : Instr) : Prop := namedOnce (.pending :: partsOf i) = true

theorem resetAssert : Statement .resetAssert := rfl
theorem resetNShortPulse : Statement .resetNShortPulse := rfl
theorem powerOnReset (inRange : Bool) : Statement (.powerOnReset inRange) := rfl
theorem resetRelease (straps : Straps) : Statement (.resetRelease straps) := rfl
theorem phaseEnrolmentMarker (missing : Option (Fin 144 × Fin 144)) : Statement (.phaseEnrolmentMarker missing) := rfl
theorem islandReenrol (island : Fin 144) (lines : BitVec 3) : Statement (.islandReenrol island lines) := rfl
theorem supplyFail (monitor : Fin 16) : Statement (.supplyFail monitor) := rfl
theorem temperatureReading (readings : Vector Int 8) (supplies : Vector Nat 16) : Statement (.temperatureReading readings supplies) := rfl
theorem clockFail (island : Fin 144) : Statement (.clockFail island) := rfl
theorem sfdpRead (slot : Fin 2) (capacity : Nat) : Statement (.sfdpRead slot capacity) := rfl
theorem noDeviceTimeout (slot : Fin 2) : Statement (.noDeviceTimeout slot) := rfl
theorem headerCheck (slot : Fin 2) (header : Bytes) (table : Bytes) : Statement (.headerCheck slot header table) := rfl
theorem sectionRead (stored : Bytes) : Statement (.sectionRead stored) := rfl
theorem stageEntryS1 : Statement .stageEntryS1 := rfl
theorem stageEntryS2 : Statement .stageEntryS2 := rfl
theorem stageEntryS3 : Statement .stageEntryS3 := rfl
theorem stageLate : Statement .stageLate := rfl
theorem timeBusIncrement (periods : Nat) : Statement (.timeBusIncrement periods) := rfl
theorem ptpSyncReceived (port : Fin 2) (domain : BitVec 7) (rx : T64) (originNs : Nat) (correction : Int) (logInterval : Int) : Statement (.ptpSyncReceived port domain rx originNs correction logInterval) := rfl
theorem ptpAnnounceReceived (port : Fin 2) (domain : BitVec 7) (attrs : GmAttrs) (logInterval : Int) : Statement (.ptpAnnounceReceived port domain attrs logInterval) := rfl
theorem pdelayMeasurement (port : Fin 2) (seqId : BitVec 16) (t2 : Int) (t3 : Int) (rx : T64) : Statement (.pdelayMeasurement port seqId t2 t3 rx) := rfl
theorem syncTimeoutExpiry (source : Src) : Statement (.syncTimeoutExpiry source) := rfl
theorem announceTimeoutExpiry (source : Src) : Statement (.announceTimeoutExpiry source) := rfl
theorem mapGuardExpiry : Statement .mapGuardExpiry := rfl
theorem holdLimitExpiry : Statement .holdLimitExpiry := rfl
theorem ref10mEdge (stamp : T64) : Statement (.ref10mEdge stamp) := rfl
theorem ref10mLost : Statement .ref10mLost := rfl
theorem ppsInEdge (stamp : T64) : Statement (.ppsInEdge stamp) := rfl
theorem frameBoundary : Statement .frameBoundary := rfl
theorem triggerEdge (output : Fin 16) (pulse : Fin 8) (leading : Bool) (stamp : T64) : Statement (.triggerEdge output pulse leading stamp) := rfl
theorem ppsOutEdge : Statement .ppsOutEdge := rfl
theorem timeTransferExchange (tx : T64) (reply : Option (T64 × T64 × T64)) (peerMapOffset : Nat) (peerGm : GmAttrs) : Statement (.timeTransferExchange tx reply peerMapOffset peerGm) := rfl
theorem sluiceIntake : Statement .sluiceIntake := rfl
theorem eventsLost (island : Fin 144) : Statement (.eventsLost island) := rfl
theorem sluiceIrqAckLowWrite (value : Word) : Statement (.sluiceIrqAckLowWrite value) := rfl
theorem sluiceIrqAckHighWrite (value : Word) : Statement (.sluiceIrqAckHighWrite value) := rfl
theorem scheduleLaunch (frame : BitVec 64) (entry : Fin 256) (j : Fin 16) (ue : Bool) : Statement (.scheduleLaunch frame entry j ue) := rfl
theorem startMiss (frame : BitVec 64) (entry : Fin 256) (j : Fin 16) : Statement (.startMiss frame entry j) := rfl
theorem runLong (frame : BitVec 64) (entry : Fin 256) (j : Fin 16) : Statement (.runLong frame entry j) := rfl
theorem deadlineMiss (frame : BitVec 64) (entry : Fin 256) (j : Fin 16) : Statement (.deadlineMiss frame entry j) := rfl
theorem taskCompletion (frame : BitVec 64) (entry : Fin 256) (j : Fin 16) : Statement (.taskCompletion frame entry j) := rfl
theorem frameClose : Statement .frameClose := rfl
theorem islReplayWrWrite (value : Word) : Statement (.islReplayWrWrite value) := rfl
theorem replayChunkHeaderRead : Statement .replayChunkHeaderRead := rfl
theorem replayStartChunk : Statement .replayStartChunk := rfl
theorem replayMapChunk : Statement .replayMapChunk := rfl
theorem replayRecordDeliver : Statement .replayRecordDeliver := rfl
theorem replayStall : Statement .replayStall := rfl
theorem replayStallEnd : Statement .replayStallEnd := rfl
theorem captureStart : Statement .captureStart := rfl
theorem captureWatermark (stream : Fin 64) : Statement (.captureWatermark stream) := rfl
theorem captureRecordWrite (stream : Fin 64) : Statement (.captureRecordWrite stream) := rfl
theorem csi2PacketReceived (port : Fin 8) (packet : CsiPacket) : Statement (.csi2PacketReceived port packet) := rfl
theorem ethernetFrameReceived (port : Fin 8) (bytes : Bytes) (stamp : T64) : Statement (.ethernetFrameReceived port bytes stamp) := rfl
theorem ptpMasterSend (port : Fin 6) (kind : PtpKind) (tx : T64) : Statement (.ptpMasterSend port kind tx) := rfl
theorem spiInit (k : Fin 4) (reads : List Bytes) : Statement (.spiInit k reads) := rfl
theorem spiDrdyEdge (k : Fin 4) (stamp : T64) : Statement (.spiDrdyEdge k stamp) := rfl
theorem spiBurstComplete (k : Fin 4) (bytes : Bytes) : Statement (.spiBurstComplete k bytes) := rfl
theorem spiPoll (k : Fin 4) : Statement (.spiPoll k) := rfl
theorem encoderEdge (e : Fin 8) (line : BitVec 2) (level : Bool) (stamp : T64) : Statement (.encoderEdge e line level stamp) := rfl
theorem encoderCodeIssue (e : Fin 8) : Statement (.encoderCodeIssue e) := rfl
theorem canFrameReceived (c : Fin 4) (frame : CanFrame) (stamp : T64) : Statement (.canFrameReceived c frame stamp) := rfl
theorem canErrorFrame (c : Fin 4) (tec : BitVec 8) (rec_ : BitVec 8) : Statement (.canErrorFrame c tec rec_) := rfl
theorem scriptStep (m : Fin 2) (result : StepResult) : Statement (.scriptStep m result) := rfl
theorem busRecovery (m : Fin 2) (lowNs : Nat) (sda : Vector Bool 16) : Statement (.busRecovery m lowNs sda) := rfl
theorem busStuckRetry (m : Fin 2) : Statement (.busStuckRetry m) := rfl
theorem headgateItem (h : Fin 64) : Statement (.headgateItem h) := rfl
theorem externalMaskRelease (h : Fin 64) (reason : BitVec 8) : Statement (.externalMaskRelease h reason) := rfl
theorem pktGapExpiry (h : Fin 64) : Statement (.pktGapExpiry h) := rfl
theorem streamTimeout (h : Fin 64) : Statement (.streamTimeout h) := rfl
theorem streamAbsent (h : Fin 64) : Statement (.streamAbsent h) := rfl
theorem dataFlumeWriteCycle (h : Fin 64) : Statement (.dataFlumeWriteCycle h) := rfl
theorem flumeRead (h : Fin 64) (ue : Bool) : Statement (.flumeRead h ue) := rfl
theorem flumeDrop (h : Fin 64) : Statement (.flumeDrop h) := rfl
theorem plInputRecord : Statement .plInputRecord := rfl
theorem rungWrite (lockstepOk : Bool) : Statement (.rungWrite lockstepOk) := rfl
theorem poseMaskRelease (isImu : Bool) (entry : Fin 8) : Statement (.poseMaskRelease isImu entry) := rfl
theorem coastMaxExpiry : Statement .coastMaxExpiry := rfl
theorem imuOnlyMaxExpiry : Statement .imuOnlyMaxExpiry := rfl
theorem poseQuery (port : Fin 8) (t : T64) (alpha : T64) (lockstepOk : Bool) : Statement (.poseQuery port t alpha lockstepOk) := rfl
theorem liveRecord (lockstepOk : Bool) : Statement (.liveRecord lockstepOk) := rfl
theorem pointCompensate (pipe : Fin 4) (crcBad : Bool) : Statement (.pointCompensate pipe crcBad) := rfl
theorem pointPoseWait (pipe : Fin 4) (crcBad : Bool) : Statement (.pointPoseWait pipe crcBad) := rfl
theorem pointProject (point : Nat) : Statement (.pointProject point) := rfl
theorem pauClosePass : Statement .pauClosePass := rfl
theorem alignStepApply : Statement .alignStepApply := rfl
theorem misHoldExpiry (sensor : Fin 24) : Statement (.misHoldExpiry sensor) := rfl
theorem pcuTask (abortAfter : Fin 9) : Statement (.pcuTask abortAfter) := rfl
theorem listStart (t : Fin 4) (ue : Bool) : Statement (.listStart t ue) := rfl
theorem queueFlush (t : Fin 4) (q : Fin 4) : Statement (.queueFlush t q) := rfl
theorem nop (t : Fin 4) : Statement (.nop t) := rfl
theorem copy (t : Fin 4) (ecc : EccFind) : Statement (.copy t ecc) := rfl
theorem fill (t : Fin 4) (ecc : EccFind) : Statement (.fill t ecc) := rfl
theorem matmul (t : Fin 4) (ecc : EccFind) : Statement (.matmul t ecc) := rfl
theorem conv (t : Fin 4) (ecc : EccFind) : Statement (.conv t ecc) := rfl
theorem spconv (t : Fin 4) (ecc : EccFind) : Statement (.spconv t ecc) := rfl
theorem gather (t : Fin 4) (ecc : EccFind) : Statement (.gather t ecc) := rfl
theorem scatter (t : Fin 4) (ecc : EccFind) : Statement (.scatter t ecc) := rfl
theorem vunary (t : Fin 4) (ecc : EccFind) : Statement (.vunary t ecc) := rfl
theorem vbinary (t : Fin 4) (ecc : EccFind) : Statement (.vbinary t ecc) := rfl
theorem vfma (t : Fin 4) (ecc : EccFind) : Statement (.vfma t ecc) := rfl
theorem reduce (t : Fin 4) (ecc : EccFind) : Statement (.reduce t ecc) := rfl
theorem softmax (t : Fin 4) (ecc : EccFind) : Statement (.softmax t ecc) := rfl
theorem norm (t : Fin 4) (ecc : EccFind) : Statement (.norm t ecc) := rfl
theorem attend (t : Fin 4) (ecc : EccFind) : Statement (.attend t ecc) := rfl
theorem kvAppend (t : Fin 4) (ecc : EccFind) : Statement (.kvAppend t ecc) := rfl
theorem kvFlush (t : Fin 4) (ecc : EccFind) : Statement (.kvFlush t ecc) := rfl
theorem kvScatter (t : Fin 4) (ecc : EccFind) : Statement (.kvScatter t ecc) := rfl
theorem signal (t : Fin 4) : Statement (.signal t) := rfl
theorem wait (t : Fin 4) : Statement (.wait t) := rfl
theorem waitTimeout (t : Fin 4) : Statement (.waitTimeout t) := rfl
theorem digest (t : Fin 4) (ecc : EccFind) : Statement (.digest t ecc) := rfl
theorem goldenCheck (t : Fin 4) : Statement (.goldenCheck t) := rfl
theorem listCompletion (t : Fin 4) : Statement (.listCompletion t) := rfl
theorem trackerTask : Statement .trackerTask := rfl
theorem mpcBatch : Statement .mpcBatch := rfl
theorem alignSolve : Statement .alignSolve := rfl
theorem cbHitEntry : Statement .cbHitEntry := rfl
theorem cbSeenMarking : Statement .cbSeenMarking := rfl
theorem gridRecentre : Statement .gridRecentre := rfl
theorem gridScrub : Statement .gridScrub := rfl
theorem cbEcc (cell : Option (Nat × Nat)) : Statement (.cbEcc cell) := rfl
theorem tableStart : Statement .tableStart := rfl
theorem tableSwap : Statement .tableSwap := rfl
theorem weirTask : Statement .weirTask := rfl
theorem guardCycleLatch (lockstepOk : Bool) (ecc : EccFind) (poseCrcBad : Bool) : Statement (.guardCycleLatch lockstepOk ecc poseCrcBad) := rfl
theorem guardLate : Statement .guardLate := rfl
theorem guardPortFrame : Statement .guardPortFrame := rfl
theorem plRungLate : Statement .plRungLate := rfl
theorem faultCollection : Statement .faultCollection := rfl
theorem c2Release : Statement .c2Release := rfl
theorem safeOkStuck (path : Bool) : Statement (.safeOkStuck path) := rfl
theorem supervisorWatchdogExpiry (sup : Fin 2) : Statement (.supervisorWatchdogExpiry sup) := rfl
theorem supervisorHeartbeat (sup : Fin 2) (digest : Word) : Statement (.supervisorHeartbeat sup digest) := rfl
theorem heartbeatAbsent (sup : Fin 2) : Statement (.heartbeatAbsent sup) := rfl
theorem supervisorSelfCheck (passA : Bool) (passB : Bool) : Statement (.supervisorSelfCheck passA passB) := rfl
theorem selfTestSlice (reported : Bool) (tagged : Bool) : Statement (.selfTestSlice reported tagged) := rfl
theorem qanatLinkUp : Statement .qanatLinkUp := rfl
theorem qanatCellReceived (cell : Cell) : Statement (.qanatCellReceived cell) := rfl
theorem helloSend : Statement .helloSend := rfl
theorem statusSend : Statement .statusSend := rfl
theorem guardMessageSend : Statement .guardMessageSend := rfl
theorem linkLoss : Statement .linkLoss := rfl
theorem aliveTimeout : Statement .aliveTimeout := rfl
theorem twinAliveToggle : Statement .twinAliveToggle := rfl
theorem twinSyncPulse : Statement .twinSyncPulse := rfl
theorem twinSyncInEdge (rising : Bool) (stamp : T64) : Statement (.twinSyncInEdge rising stamp) := rfl
theorem witnessPulse (rise : T64) (fall : T64) : Statement (.witnessPulse rise fall) := rfl
theorem witnessLost : Statement .witnessLost := rfl
theorem roleConflict : Statement .roleConflict := rfl
theorem xcheckSend : Statement .xcheckSend := rfl
theorem xcheckCompare : Statement .xcheckCompare := rfl
theorem publication : Statement .publication := rfl
theorem guardStreamMessage : Statement .guardStreamMessage := rfl
theorem fragmentTransmit (port : Fin 2) (queue : Fin 8) (tx : T64) : Statement (.fragmentTransmit port queue tx) := rfl
theorem txMaxAgeExpiry (port : Fin 2) (queue : Fin 8) : Statement (.txMaxAgeExpiry port queue) := rfl
theorem sm0Build : Statement .sm0Build := rfl
theorem sm1Build : Statement .sm1Build := rfl
theorem canMaxAgeExpiry (c : Fin 2) (m : Fin 2) : Statement (.canMaxAgeExpiry c m) := rfl
theorem canTransmitComplete (c : Fin 2) (m : Fin 2) : Statement (.canTransmitComplete c m) := rfl
theorem busOff (c : Fin 4) : Statement (.busOff c) := rfl
theorem busOffRecovered (c : Fin 4) : Statement (.busOffRecovered c) := rfl
theorem cisternAccess (bank : Fin 64) (reqs : List CisternReq) (ecc : EccFind) (word : Fin 8) : Statement (.cisternAccess bank reqs ecc word) := rfl
theorem patrolScrub (bank : Fin 64) (ecc : EccFind) (word : Fin 8) : Statement (.patrolScrub bank ecc word) := rfl
theorem lpddr5xTraining (ok : Bool) : Statement (.lpddr5xTraining ok) := rfl
theorem dramScrub (ecc : EccFind) (word : Fin 8) : Statement (.dramScrub ecc word) := rfl
theorem grottoSample : Statement .grottoSample := rfl
theorem grtCtrlFreezeWrite (value : Word) : Statement (.grtCtrlFreezeWrite value) := rfl
theorem freezeExpiry : Statement .freezeExpiry := rfl
theorem grtCursorWrite (value : Word) : Statement (.grtCursorWrite value) := rfl
theorem obpCapWinWrite (value : Word) : Statement (.obpCapWinWrite value) := rfl
theorem msiXTableWrite (w : Fin 4) (value : Word) : Statement (.msiXTableWrite w value) := rfl
theorem recordRegisterRead (addr : Nat) (len : Nat) : Statement (.recordRegisterRead addr len) := rfl
theorem bar0WriteDiscard (addr : Nat) (len : Nat) : Statement (.bar0WriteDiscard addr len) := rfl
theorem bar2WriteDiscard (offset : Nat) (len : Nat) : Statement (.bar2WriteDiscard offset len) := rfl
theorem replayWindowWrite (offset : Nat) (data : Bytes) : Statement (.replayWindowWrite offset data) := rfl
theorem twinAliveInEdge (stamp : T64) : Statement (.twinAliveInEdge stamp) := rfl
theorem laneBlockLockLoss (lane : Fin 4) : Statement (.laneBlockLockLoss lane) := rfl
theorem xcWaitExpiry : Statement .xcWaitExpiry := rfl
theorem extest (certificate : Bool) (on : Bool) : Statement (.extest certificate on) := rfl
theorem inBandInterrupt (m : Fin 2) : Statement (.inBandInterrupt m) := rfl
theorem ethernetLinkChange (port : Fin 8) (up : Bool) (speed : Nat) : Statement (.ethernetLinkChange port up speed) := rfl
theorem pdelayReqSend (port : Fin 2) (tx : T64) : Statement (.pdelayReqSend port tx) := rfl

end Sys2Proof.Laws.Parts
end

