-- ==== Sys2Proof/Laws/State.lean ====
section
/-! SUPPORT. Every field of the state under each named update, and every field of the Sluice under a raise. -/

namespace Sys2Proof.Machine

open Sys2Proof

@[simp] theorem State.raise_pending (s : State) (es : List Ev) : (s.raise es).pending = s.pending := rfl
@[simp] theorem State.raise_tb (s : State) (es : List Ev) : (s.raise es).tb = s.tb := rfl
@[simp] theorem State.raise_isl (s : State) (es : List Ev) : (s.raise es).isl = s.isl := rfl
@[simp] theorem State.raise_replay (s : State) (es : List Ev) : (s.raise es).replay = s.replay := rfl
@[simp] theorem State.raise_capture (s : State) (es : List Ev) : (s.raise es).capture = s.capture := rfl
@[simp] theorem State.raise_seq (s : State) (es : List Ev) : (s.raise es).seq = s.seq := rfl
@[simp] theorem State.raise_ports (s : State) (es : List Ev) : (s.raise es).ports = s.ports := rfl
@[simp] theorem State.raise_hgs (s : State) (es : List Ev) : (s.raise es).hgs = s.hgs := rfl
@[simp] theorem State.raise_pl (s : State) (es : List Ev) : (s.raise es).pl = s.pl := rfl
@[simp] theorem State.raise_pau (s : State) (es : List Ev) : (s.raise es).pau = s.pau := rfl
@[simp] theorem State.raise_pcu (s : State) (es : List Ev) : (s.raise es).pcu = s.pcu := rfl
@[simp] theorem State.raise_tes (s : State) (es : List Ev) : (s.raise es).tes = s.tes := rfl
@[simp] theorem State.raise_kv (s : State) (es : List Ev) : (s.raise es).kv = s.kv := rfl
@[simp] theorem State.raise_trk (s : State) (es : List Ev) : (s.raise es).trk = s.trk := rfl
@[simp] theorem State.raise_qsa (s : State) (es : List Ev) : (s.raise es).qsa = s.qsa := rfl
@[simp] theorem State.raise_mem (s : State) (es : List Ev) : (s.raise es).mem = s.mem := rfl
@[simp] theorem State.raise_cb (s : State) (es : List Ev) : (s.raise es).cb = s.cb := rfl
@[simp] theorem State.raise_weir (s : State) (es : List Ev) : (s.raise es).weir = s.weir := rfl
@[simp] theorem State.raise_guard (s : State) (es : List Ev) : (s.raise es).guard = s.guard := rfl
@[simp] theorem State.raise_safety (s : State) (es : List Ev) : (s.raise es).safety = s.safety := rfl
@[simp] theorem State.raise_qnt (s : State) (es : List Ev) : (s.raise es).qnt = s.qnt := rfl
@[simp] theorem State.raise_bcc (s : State) (es : List Ev) : (s.raise es).bcc = s.bcc := rfl
@[simp] theorem State.raise_out (s : State) (es : List Ev) : (s.raise es).out = s.out := rfl
@[simp] theorem State.raise_grt (s : State) (es : List Ev) : (s.raise es).grt = s.grt := rfl
@[simp] theorem State.raise_obp (s : State) (es : List Ev) : (s.raise es).obp = s.obp := rfl
@[simp] theorem State.raise_pwr (s : State) (es : List Ev) : (s.raise es).pwr = s.pwr := rfl

@[simp] theorem State.raise_ev (s : State) (es : List Ev) : (s.raise es).ev = s.ev.raiseAll es := rfl

@[simp] theorem State.sample_pending (s : State) (a b : Nat) (v : Int) : (s.sample a b v).pending = s.pending := by unfold State.sample; dsimp only; split <;> rfl
@[simp] theorem State.sample_ev (s : State) (a b : Nat) (v : Int) : (s.sample a b v).ev = s.ev := by unfold State.sample; dsimp only; split <;> rfl
@[simp] theorem State.sample_tb (s : State) (a b : Nat) (v : Int) : (s.sample a b v).tb = s.tb := by unfold State.sample; dsimp only; split <;> rfl
@[simp] theorem State.sample_isl (s : State) (a b : Nat) (v : Int) : (s.sample a b v).isl = s.isl := by unfold State.sample; dsimp only; split <;> rfl
@[simp] theorem State.sample_replay (s : State) (a b : Nat) (v : Int) : (s.sample a b v).replay = s.replay := by unfold State.sample; dsimp only; split <;> rfl
@[simp] theorem State.sample_capture (s : State) (a b : Nat) (v : Int) : (s.sample a b v).capture = s.capture := by unfold State.sample; dsimp only; split <;> rfl
@[simp] theorem State.sample_seq (s : State) (a b : Nat) (v : Int) : (s.sample a b v).seq = s.seq := by unfold State.sample; dsimp only; split <;> rfl
@[simp] theorem State.sample_ports (s : State) (a b : Nat) (v : Int) : (s.sample a b v).ports = s.ports := by unfold State.sample; dsimp only; split <;> rfl
@[simp] theorem State.sample_hgs (s : State) (a b : Nat) (v : Int) : (s.sample a b v).hgs = s.hgs := by unfold State.sample; dsimp only; split <;> rfl
@[simp] theorem State.sample_pl (s : State) (a b : Nat) (v : Int) : (s.sample a b v).pl = s.pl := by unfold State.sample; dsimp only; split <;> rfl
@[simp] theorem State.sample_pau (s : State) (a b : Nat) (v : Int) : (s.sample a b v).pau = s.pau := by unfold State.sample; dsimp only; split <;> rfl
@[simp] theorem State.sample_pcu (s : State) (a b : Nat) (v : Int) : (s.sample a b v).pcu = s.pcu := by unfold State.sample; dsimp only; split <;> rfl
@[simp] theorem State.sample_tes (s : State) (a b : Nat) (v : Int) : (s.sample a b v).tes = s.tes := by unfold State.sample; dsimp only; split <;> rfl
@[simp] theorem State.sample_kv (s : State) (a b : Nat) (v : Int) : (s.sample a b v).kv = s.kv := by unfold State.sample; dsimp only; split <;> rfl
@[simp] theorem State.sample_trk (s : State) (a b : Nat) (v : Int) : (s.sample a b v).trk = s.trk := by unfold State.sample; dsimp only; split <;> rfl
@[simp] theorem State.sample_qsa (s : State) (a b : Nat) (v : Int) : (s.sample a b v).qsa = s.qsa := by unfold State.sample; dsimp only; split <;> rfl
@[simp] theorem State.sample_mem (s : State) (a b : Nat) (v : Int) : (s.sample a b v).mem = s.mem := by unfold State.sample; dsimp only; split <;> rfl
@[simp] theorem State.sample_cb (s : State) (a b : Nat) (v : Int) : (s.sample a b v).cb = s.cb := by unfold State.sample; dsimp only; split <;> rfl
@[simp] theorem State.sample_weir (s : State) (a b : Nat) (v : Int) : (s.sample a b v).weir = s.weir := by unfold State.sample; dsimp only; split <;> rfl
@[simp] theorem State.sample_guard (s : State) (a b : Nat) (v : Int) : (s.sample a b v).guard = s.guard := by unfold State.sample; dsimp only; split <;> rfl
@[simp] theorem State.sample_safety (s : State) (a b : Nat) (v : Int) : (s.sample a b v).safety = s.safety := by unfold State.sample; dsimp only; split <;> rfl
@[simp] theorem State.sample_qnt (s : State) (a b : Nat) (v : Int) : (s.sample a b v).qnt = s.qnt := by unfold State.sample; dsimp only; split <;> rfl
@[simp] theorem State.sample_bcc (s : State) (a b : Nat) (v : Int) : (s.sample a b v).bcc = s.bcc := by unfold State.sample; dsimp only; split <;> rfl
@[simp] theorem State.sample_out (s : State) (a b : Nat) (v : Int) : (s.sample a b v).out = s.out := by unfold State.sample; dsimp only; split <;> rfl
@[simp] theorem State.sample_obp (s : State) (a b : Nat) (v : Int) : (s.sample a b v).obp = s.obp := by unfold State.sample; dsimp only; split <;> rfl
@[simp] theorem State.sample_pwr (s : State) (a b : Nat) (v : Int) : (s.sample a b v).pwr = s.pwr := by unfold State.sample; dsimp only; split <;> rfl

@[simp] theorem State.setHg_pending (s : State) (h : Fin 64) (r : Headgate × List Ev) : (s.setHg h r).pending = s.pending := rfl
@[simp] theorem State.setHg_tb (s : State) (h : Fin 64) (r : Headgate × List Ev) : (s.setHg h r).tb = s.tb := rfl
@[simp] theorem State.setHg_isl (s : State) (h : Fin 64) (r : Headgate × List Ev) : (s.setHg h r).isl = s.isl := rfl
@[simp] theorem State.setHg_replay (s : State) (h : Fin 64) (r : Headgate × List Ev) : (s.setHg h r).replay = s.replay := rfl
@[simp] theorem State.setHg_capture (s : State) (h : Fin 64) (r : Headgate × List Ev) : (s.setHg h r).capture = s.capture := rfl
@[simp] theorem State.setHg_seq (s : State) (h : Fin 64) (r : Headgate × List Ev) : (s.setHg h r).seq = s.seq := rfl
@[simp] theorem State.setHg_ports (s : State) (h : Fin 64) (r : Headgate × List Ev) : (s.setHg h r).ports = s.ports := rfl
@[simp] theorem State.setHg_pl (s : State) (h : Fin 64) (r : Headgate × List Ev) : (s.setHg h r).pl = s.pl := rfl
@[simp] theorem State.setHg_pau (s : State) (h : Fin 64) (r : Headgate × List Ev) : (s.setHg h r).pau = s.pau := rfl
@[simp] theorem State.setHg_pcu (s : State) (h : Fin 64) (r : Headgate × List Ev) : (s.setHg h r).pcu = s.pcu := rfl
@[simp] theorem State.setHg_tes (s : State) (h : Fin 64) (r : Headgate × List Ev) : (s.setHg h r).tes = s.tes := rfl
@[simp] theorem State.setHg_kv (s : State) (h : Fin 64) (r : Headgate × List Ev) : (s.setHg h r).kv = s.kv := rfl
@[simp] theorem State.setHg_trk (s : State) (h : Fin 64) (r : Headgate × List Ev) : (s.setHg h r).trk = s.trk := rfl
@[simp] theorem State.setHg_qsa (s : State) (h : Fin 64) (r : Headgate × List Ev) : (s.setHg h r).qsa = s.qsa := rfl
@[simp] theorem State.setHg_mem (s : State) (h : Fin 64) (r : Headgate × List Ev) : (s.setHg h r).mem = s.mem := rfl
@[simp] theorem State.setHg_cb (s : State) (h : Fin 64) (r : Headgate × List Ev) : (s.setHg h r).cb = s.cb := rfl
@[simp] theorem State.setHg_weir (s : State) (h : Fin 64) (r : Headgate × List Ev) : (s.setHg h r).weir = s.weir := rfl
@[simp] theorem State.setHg_guard (s : State) (h : Fin 64) (r : Headgate × List Ev) : (s.setHg h r).guard = s.guard := rfl
@[simp] theorem State.setHg_safety (s : State) (h : Fin 64) (r : Headgate × List Ev) : (s.setHg h r).safety = s.safety := rfl
@[simp] theorem State.setHg_qnt (s : State) (h : Fin 64) (r : Headgate × List Ev) : (s.setHg h r).qnt = s.qnt := rfl
@[simp] theorem State.setHg_bcc (s : State) (h : Fin 64) (r : Headgate × List Ev) : (s.setHg h r).bcc = s.bcc := rfl
@[simp] theorem State.setHg_out (s : State) (h : Fin 64) (r : Headgate × List Ev) : (s.setHg h r).out = s.out := rfl
@[simp] theorem State.setHg_grt (s : State) (h : Fin 64) (r : Headgate × List Ev) : (s.setHg h r).grt = s.grt := rfl
@[simp] theorem State.setHg_obp (s : State) (h : Fin 64) (r : Headgate × List Ev) : (s.setHg h r).obp = s.obp := rfl
@[simp] theorem State.setHg_pwr (s : State) (h : Fin 64) (r : Headgate × List Ev) : (s.setHg h r).pwr = s.pwr := rfl

@[simp] theorem State.setHg_ev (s : State) (h : Fin 64) (r : Headgate × List Ev) : (s.setHg h r).ev = s.ev.raiseAll r.2 := rfl
@[simp] theorem State.setHg_hgs (s : State) (h : Fin 64) (r : Headgate × List Ev) : (s.setHg h r).hgs = s.hgs.set h r.1 := rfl

@[simp] theorem State.maskStreams_pending (s : State) (l : List (Fin 64)) (r : BitVec 8) : (s.maskStreams l r).pending = s.pending := rfl
@[simp] theorem State.maskStreams_tb (s : State) (l : List (Fin 64)) (r : BitVec 8) : (s.maskStreams l r).tb = s.tb := rfl
@[simp] theorem State.maskStreams_isl (s : State) (l : List (Fin 64)) (r : BitVec 8) : (s.maskStreams l r).isl = s.isl := rfl
@[simp] theorem State.maskStreams_replay (s : State) (l : List (Fin 64)) (r : BitVec 8) : (s.maskStreams l r).replay = s.replay := rfl
@[simp] theorem State.maskStreams_capture (s : State) (l : List (Fin 64)) (r : BitVec 8) : (s.maskStreams l r).capture = s.capture := rfl
@[simp] theorem State.maskStreams_seq (s : State) (l : List (Fin 64)) (r : BitVec 8) : (s.maskStreams l r).seq = s.seq := rfl
@[simp] theorem State.maskStreams_ports (s : State) (l : List (Fin 64)) (r : BitVec 8) : (s.maskStreams l r).ports = s.ports := rfl
@[simp] theorem State.maskStreams_pl (s : State) (l : List (Fin 64)) (r : BitVec 8) : (s.maskStreams l r).pl = s.pl := rfl
@[simp] theorem State.maskStreams_pau (s : State) (l : List (Fin 64)) (r : BitVec 8) : (s.maskStreams l r).pau = s.pau := rfl
@[simp] theorem State.maskStreams_pcu (s : State) (l : List (Fin 64)) (r : BitVec 8) : (s.maskStreams l r).pcu = s.pcu := rfl
@[simp] theorem State.maskStreams_tes (s : State) (l : List (Fin 64)) (r : BitVec 8) : (s.maskStreams l r).tes = s.tes := rfl
@[simp] theorem State.maskStreams_kv (s : State) (l : List (Fin 64)) (r : BitVec 8) : (s.maskStreams l r).kv = s.kv := rfl
@[simp] theorem State.maskStreams_trk (s : State) (l : List (Fin 64)) (r : BitVec 8) : (s.maskStreams l r).trk = s.trk := rfl
@[simp] theorem State.maskStreams_qsa (s : State) (l : List (Fin 64)) (r : BitVec 8) : (s.maskStreams l r).qsa = s.qsa := rfl
@[simp] theorem State.maskStreams_mem (s : State) (l : List (Fin 64)) (r : BitVec 8) : (s.maskStreams l r).mem = s.mem := rfl
@[simp] theorem State.maskStreams_cb (s : State) (l : List (Fin 64)) (r : BitVec 8) : (s.maskStreams l r).cb = s.cb := rfl
@[simp] theorem State.maskStreams_weir (s : State) (l : List (Fin 64)) (r : BitVec 8) : (s.maskStreams l r).weir = s.weir := rfl
@[simp] theorem State.maskStreams_guard (s : State) (l : List (Fin 64)) (r : BitVec 8) : (s.maskStreams l r).guard = s.guard := rfl
@[simp] theorem State.maskStreams_safety (s : State) (l : List (Fin 64)) (r : BitVec 8) : (s.maskStreams l r).safety = s.safety := rfl
@[simp] theorem State.maskStreams_qnt (s : State) (l : List (Fin 64)) (r : BitVec 8) : (s.maskStreams l r).qnt = s.qnt := rfl
@[simp] theorem State.maskStreams_bcc (s : State) (l : List (Fin 64)) (r : BitVec 8) : (s.maskStreams l r).bcc = s.bcc := rfl
@[simp] theorem State.maskStreams_out (s : State) (l : List (Fin 64)) (r : BitVec 8) : (s.maskStreams l r).out = s.out := rfl
@[simp] theorem State.maskStreams_grt (s : State) (l : List (Fin 64)) (r : BitVec 8) : (s.maskStreams l r).grt = s.grt := rfl
@[simp] theorem State.maskStreams_obp (s : State) (l : List (Fin 64)) (r : BitVec 8) : (s.maskStreams l r).obp = s.obp := rfl
@[simp] theorem State.maskStreams_pwr (s : State) (l : List (Fin 64)) (r : BitVec 8) : (s.maskStreams l r).pwr = s.pwr := rfl

@[simp] theorem State.withTes_pending (s : State) (r : Tes × Memory × List Ev) : (s.withTes r).pending = s.pending := rfl
@[simp] theorem State.withTes_tb (s : State) (r : Tes × Memory × List Ev) : (s.withTes r).tb = s.tb := rfl
@[simp] theorem State.withTes_isl (s : State) (r : Tes × Memory × List Ev) : (s.withTes r).isl = s.isl := rfl
@[simp] theorem State.withTes_replay (s : State) (r : Tes × Memory × List Ev) : (s.withTes r).replay = s.replay := rfl
@[simp] theorem State.withTes_capture (s : State) (r : Tes × Memory × List Ev) : (s.withTes r).capture = s.capture := rfl
@[simp] theorem State.withTes_seq (s : State) (r : Tes × Memory × List Ev) : (s.withTes r).seq = s.seq := rfl
@[simp] theorem State.withTes_ports (s : State) (r : Tes × Memory × List Ev) : (s.withTes r).ports = s.ports := rfl
@[simp] theorem State.withTes_hgs (s : State) (r : Tes × Memory × List Ev) : (s.withTes r).hgs = s.hgs := rfl
@[simp] theorem State.withTes_pl (s : State) (r : Tes × Memory × List Ev) : (s.withTes r).pl = s.pl := rfl
@[simp] theorem State.withTes_pau (s : State) (r : Tes × Memory × List Ev) : (s.withTes r).pau = s.pau := rfl
@[simp] theorem State.withTes_pcu (s : State) (r : Tes × Memory × List Ev) : (s.withTes r).pcu = s.pcu := rfl
@[simp] theorem State.withTes_kv (s : State) (r : Tes × Memory × List Ev) : (s.withTes r).kv = s.kv := rfl
@[simp] theorem State.withTes_trk (s : State) (r : Tes × Memory × List Ev) : (s.withTes r).trk = s.trk := rfl
@[simp] theorem State.withTes_qsa (s : State) (r : Tes × Memory × List Ev) : (s.withTes r).qsa = s.qsa := rfl
@[simp] theorem State.withTes_cb (s : State) (r : Tes × Memory × List Ev) : (s.withTes r).cb = s.cb := rfl
@[simp] theorem State.withTes_weir (s : State) (r : Tes × Memory × List Ev) : (s.withTes r).weir = s.weir := rfl
@[simp] theorem State.withTes_guard (s : State) (r : Tes × Memory × List Ev) : (s.withTes r).guard = s.guard := rfl
@[simp] theorem State.withTes_safety (s : State) (r : Tes × Memory × List Ev) : (s.withTes r).safety = s.safety := rfl
@[simp] theorem State.withTes_qnt (s : State) (r : Tes × Memory × List Ev) : (s.withTes r).qnt = s.qnt := rfl
@[simp] theorem State.withTes_bcc (s : State) (r : Tes × Memory × List Ev) : (s.withTes r).bcc = s.bcc := rfl
@[simp] theorem State.withTes_out (s : State) (r : Tes × Memory × List Ev) : (s.withTes r).out = s.out := rfl
@[simp] theorem State.withTes_grt (s : State) (r : Tes × Memory × List Ev) : (s.withTes r).grt = s.grt := rfl
@[simp] theorem State.withTes_obp (s : State) (r : Tes × Memory × List Ev) : (s.withTes r).obp = s.obp := rfl
@[simp] theorem State.withTes_pwr (s : State) (r : Tes × Memory × List Ev) : (s.withTes r).pwr = s.pwr := rfl

@[simp] theorem State.withTes_ev (s : State) (r : Tes × Memory × List Ev) : (s.withTes r).ev = s.ev.raiseAll r.2.2 := rfl
@[simp] theorem State.withTes_tes (s : State) (r : Tes × Memory × List Ev) : (s.withTes r).tes = r.1 := rfl
@[simp] theorem State.withTes_mem (s : State) (r : Tes × Memory × List Ev) : (s.withTes r).mem = r.2.1 := rfl

@[simp] theorem State.keepCopies_pending (s : State) : s.keepCopies.pending = s.pending := by unfold State.keepCopies; split <;> rfl
@[simp] theorem State.keepCopies_ev (s : State) : s.keepCopies.ev = s.ev := by unfold State.keepCopies; split <;> rfl
@[simp] theorem State.keepCopies_tb (s : State) : s.keepCopies.tb = s.tb := by unfold State.keepCopies; split <;> rfl
@[simp] theorem State.keepCopies_isl (s : State) : s.keepCopies.isl = s.isl := by unfold State.keepCopies; split <;> rfl
@[simp] theorem State.keepCopies_replay (s : State) : s.keepCopies.replay = s.replay := by unfold State.keepCopies; split <;> rfl
@[simp] theorem State.keepCopies_capture (s : State) : s.keepCopies.capture = s.capture := by unfold State.keepCopies; split <;> rfl
@[simp] theorem State.keepCopies_seq (s : State) : s.keepCopies.seq = s.seq := by unfold State.keepCopies; split <;> rfl
@[simp] theorem State.keepCopies_ports (s : State) : s.keepCopies.ports = s.ports := by unfold State.keepCopies; split <;> rfl
@[simp] theorem State.keepCopies_hgs (s : State) : s.keepCopies.hgs = s.hgs := by unfold State.keepCopies; split <;> rfl
@[simp] theorem State.keepCopies_pl (s : State) : s.keepCopies.pl = s.pl := by unfold State.keepCopies; split <;> rfl
@[simp] theorem State.keepCopies_pau (s : State) : s.keepCopies.pau = s.pau := by unfold State.keepCopies; split <;> rfl
@[simp] theorem State.keepCopies_pcu (s : State) : s.keepCopies.pcu = s.pcu := by unfold State.keepCopies; split <;> rfl
@[simp] theorem State.keepCopies_tes (s : State) : s.keepCopies.tes = s.tes := by unfold State.keepCopies; split <;> rfl
@[simp] theorem State.keepCopies_kv (s : State) : s.keepCopies.kv = s.kv := by unfold State.keepCopies; split <;> rfl
@[simp] theorem State.keepCopies_trk (s : State) : s.keepCopies.trk = s.trk := by unfold State.keepCopies; split <;> rfl
@[simp] theorem State.keepCopies_qsa (s : State) : s.keepCopies.qsa = s.qsa := by unfold State.keepCopies; split <;> rfl
@[simp] theorem State.keepCopies_mem (s : State) : s.keepCopies.mem = s.mem := by unfold State.keepCopies; split <;> rfl
@[simp] theorem State.keepCopies_cb (s : State) : s.keepCopies.cb = s.cb := by unfold State.keepCopies; split <;> rfl
@[simp] theorem State.keepCopies_weir (s : State) : s.keepCopies.weir = s.weir := by unfold State.keepCopies; split <;> rfl
@[simp] theorem State.keepCopies_safety (s : State) : s.keepCopies.safety = s.safety := by unfold State.keepCopies; split <;> rfl
@[simp] theorem State.keepCopies_qnt (s : State) : s.keepCopies.qnt = s.qnt := by unfold State.keepCopies; split <;> rfl
@[simp] theorem State.keepCopies_bcc (s : State) : s.keepCopies.bcc = s.bcc := by unfold State.keepCopies; split <;> rfl
@[simp] theorem State.keepCopies_out (s : State) : s.keepCopies.out = s.out := by unfold State.keepCopies; split <;> rfl
@[simp] theorem State.keepCopies_grt (s : State) : s.keepCopies.grt = s.grt := by unfold State.keepCopies; split <;> rfl
@[simp] theorem State.keepCopies_obp (s : State) : s.keepCopies.obp = s.obp := by unfold State.keepCopies; split <;> rfl
@[simp] theorem State.keepCopies_pwr (s : State) : s.keepCopies.pwr = s.pwr := by unfold State.keepCopies; split <;> rfl

@[simp] theorem State.toPair_pending (s : State) (p : PairSt) (e : Ev) : (s.toPair p e).pending = s.pending := s.keepCopies_pending
@[simp] theorem State.toPair_tb (s : State) (p : PairSt) (e : Ev) : (s.toPair p e).tb = s.tb := s.keepCopies_tb
@[simp] theorem State.toPair_isl (s : State) (p : PairSt) (e : Ev) : (s.toPair p e).isl = s.isl := s.keepCopies_isl
@[simp] theorem State.toPair_replay (s : State) (p : PairSt) (e : Ev) : (s.toPair p e).replay = s.replay := s.keepCopies_replay
@[simp] theorem State.toPair_capture (s : State) (p : PairSt) (e : Ev) : (s.toPair p e).capture = s.capture := s.keepCopies_capture
@[simp] theorem State.toPair_seq (s : State) (p : PairSt) (e : Ev) : (s.toPair p e).seq = s.seq := s.keepCopies_seq
@[simp] theorem State.toPair_ports (s : State) (p : PairSt) (e : Ev) : (s.toPair p e).ports = s.ports := s.keepCopies_ports
@[simp] theorem State.toPair_hgs (s : State) (p : PairSt) (e : Ev) : (s.toPair p e).hgs = s.hgs := s.keepCopies_hgs
@[simp] theorem State.toPair_pl (s : State) (p : PairSt) (e : Ev) : (s.toPair p e).pl = s.pl := s.keepCopies_pl
@[simp] theorem State.toPair_pau (s : State) (p : PairSt) (e : Ev) : (s.toPair p e).pau = s.pau := s.keepCopies_pau
@[simp] theorem State.toPair_pcu (s : State) (p : PairSt) (e : Ev) : (s.toPair p e).pcu = s.pcu := s.keepCopies_pcu
@[simp] theorem State.toPair_tes (s : State) (p : PairSt) (e : Ev) : (s.toPair p e).tes = s.tes := s.keepCopies_tes
@[simp] theorem State.toPair_kv (s : State) (p : PairSt) (e : Ev) : (s.toPair p e).kv = s.kv := s.keepCopies_kv
@[simp] theorem State.toPair_trk (s : State) (p : PairSt) (e : Ev) : (s.toPair p e).trk = s.trk := s.keepCopies_trk
@[simp] theorem State.toPair_qsa (s : State) (p : PairSt) (e : Ev) : (s.toPair p e).qsa = s.qsa := s.keepCopies_qsa
@[simp] theorem State.toPair_mem (s : State) (p : PairSt) (e : Ev) : (s.toPair p e).mem = s.mem := s.keepCopies_mem
@[simp] theorem State.toPair_cb (s : State) (p : PairSt) (e : Ev) : (s.toPair p e).cb = s.cb := s.keepCopies_cb
@[simp] theorem State.toPair_weir (s : State) (p : PairSt) (e : Ev) : (s.toPair p e).weir = s.weir := s.keepCopies_weir
@[simp] theorem State.toPair_guard (s : State) (p : PairSt) (e : Ev) : (s.toPair p e).guard = s.keepCopies.guard := rfl
@[simp] theorem State.toPair_safety (s : State) (p : PairSt) (e : Ev) : (s.toPair p e).safety = s.safety := s.keepCopies_safety
@[simp] theorem State.toPair_bcc (s : State) (p : PairSt) (e : Ev) : (s.toPair p e).bcc = s.bcc := s.keepCopies_bcc
@[simp] theorem State.toPair_out (s : State) (p : PairSt) (e : Ev) : (s.toPair p e).out = s.out := s.keepCopies_out
@[simp] theorem State.toPair_grt (s : State) (p : PairSt) (e : Ev) : (s.toPair p e).grt = s.grt := s.keepCopies_grt
@[simp] theorem State.toPair_obp (s : State) (p : PairSt) (e : Ev) : (s.toPair p e).obp = s.obp := s.keepCopies_obp
@[simp] theorem State.toPair_pwr (s : State) (p : PairSt) (e : Ev) : (s.toPair p e).pwr = s.pwr := s.keepCopies_pwr

@[simp] theorem State.toPair_ev (s : State) (p : PairSt) (e : Ev) : (s.toPair p e).ev = s.ev.raise e := rfl
@[simp] theorem State.toPair_pair (s : State) (p : PairSt) (e : Ev) : (s.toPair p e).qnt.pair = p := rfl

@[simp] theorem State.enterDegraded_pending (s : State) : (s.enterDegraded).pending = s.pending := s.keepCopies_pending
@[simp] theorem State.enterDegraded_tb (s : State) : (s.enterDegraded).tb = s.tb := s.keepCopies_tb
@[simp] theorem State.enterDegraded_isl (s : State) : (s.enterDegraded).isl = s.isl := s.keepCopies_isl
@[simp] theorem State.enterDegraded_replay (s : State) : (s.enterDegraded).replay = s.replay := s.keepCopies_replay
@[simp] theorem State.enterDegraded_capture (s : State) : (s.enterDegraded).capture = s.capture := s.keepCopies_capture
@[simp] theorem State.enterDegraded_seq (s : State) : (s.enterDegraded).seq = s.seq := s.keepCopies_seq
@[simp] theorem State.enterDegraded_ports (s : State) : (s.enterDegraded).ports = s.ports := s.keepCopies_ports
@[simp] theorem State.enterDegraded_hgs (s : State) : (s.enterDegraded).hgs = s.hgs := s.keepCopies_hgs
@[simp] theorem State.enterDegraded_pl (s : State) : (s.enterDegraded).pl = s.pl := s.keepCopies_pl
@[simp] theorem State.enterDegraded_pau (s : State) : (s.enterDegraded).pau = s.pau := s.keepCopies_pau
@[simp] theorem State.enterDegraded_pcu (s : State) : (s.enterDegraded).pcu = s.pcu := s.keepCopies_pcu
@[simp] theorem State.enterDegraded_tes (s : State) : (s.enterDegraded).tes = s.tes := s.keepCopies_tes
@[simp] theorem State.enterDegraded_kv (s : State) : (s.enterDegraded).kv = s.kv := s.keepCopies_kv
@[simp] theorem State.enterDegraded_trk (s : State) : (s.enterDegraded).trk = s.trk := s.keepCopies_trk
@[simp] theorem State.enterDegraded_qsa (s : State) : (s.enterDegraded).qsa = s.qsa := s.keepCopies_qsa
@[simp] theorem State.enterDegraded_mem (s : State) : (s.enterDegraded).mem = s.mem := s.keepCopies_mem
@[simp] theorem State.enterDegraded_cb (s : State) : (s.enterDegraded).cb = s.cb := s.keepCopies_cb
@[simp] theorem State.enterDegraded_weir (s : State) : (s.enterDegraded).weir = s.weir := s.keepCopies_weir
@[simp] theorem State.enterDegraded_guard (s : State) : (s.enterDegraded).guard = s.keepCopies.guard := rfl
@[simp] theorem State.enterDegraded_qnt (s : State) : (s.enterDegraded).qnt = s.qnt := s.keepCopies_qnt
@[simp] theorem State.enterDegraded_bcc (s : State) : (s.enterDegraded).bcc = s.bcc := s.keepCopies_bcc
@[simp] theorem State.enterDegraded_out (s : State) : (s.enterDegraded).out = s.out := s.keepCopies_out
@[simp] theorem State.enterDegraded_grt (s : State) : (s.enterDegraded).grt = s.grt := s.keepCopies_grt
@[simp] theorem State.enterDegraded_obp (s : State) : (s.enterDegraded).obp = s.obp := s.keepCopies_obp
@[simp] theorem State.enterDegraded_pwr (s : State) : (s.enterDegraded).pwr = s.pwr := s.keepCopies_pwr

@[simp] theorem Sluice.raiseAll_nil (q : Sluice) : q.raiseAll [] = q := rfl
@[simp] theorem Sluice.raiseAll_cons (q : Sluice) (e : Ev) (l : List Ev) : q.raiseAll (e :: l) = (q.raise e).raiseAll l := rfl
theorem Sluice.raiseAll_append (q : Sluice) (a b : List Ev) : q.raiseAll (a ++ b) = (q.raiseAll a).raiseAll b := List.foldl_append ..

@[simp] theorem Sluice.raise_cfg (q : Sluice) (e : Ev) : (q.raise e).cfg = q.cfg := by
  unfold Sluice.raise Sluice.enqueue Sluice.assert; repeat' split
  all_goals rfl
@[simp] theorem Sluice.raiseAll_cfg (q : Sluice) (l : List Ev) : (q.raiseAll l).cfg = q.cfg := by
  induction l generalizing q with
  | nil => rfl
  | cons e l ih => rw [Sluice.raiseAll_cons, ih, Sluice.raise_cfg]
@[simp] theorem Sluice.raise_classTable (q : Sluice) (e : Ev) : (q.raise e).classTable = q.classTable := by
  unfold Sluice.raise Sluice.enqueue Sluice.assert; repeat' split
  all_goals rfl
@[simp] theorem Sluice.raiseAll_classTable (q : Sluice) (l : List Ev) : (q.raiseAll l).classTable = q.classTable := by
  induction l generalizing q with
  | nil => rfl
  | cons e l ih => rw [Sluice.raiseAll_cons, ih, Sluice.raise_classTable]
@[simp] theorem Sluice.raise_next (q : Sluice) (e : Ev) : (q.raise e).next = q.next := by
  unfold Sluice.raise Sluice.enqueue Sluice.assert; repeat' split
  all_goals rfl
@[simp] theorem Sluice.raiseAll_next (q : Sluice) (l : List Ev) : (q.raiseAll l).next = q.next := by
  induction l generalizing q with
  | nil => rfl
  | cons e l ih => rw [Sluice.raiseAll_cons, ih, Sluice.raise_next]
@[simp] theorem Sluice.raise_lastIsland (q : Sluice) (e : Ev) : (q.raise e).lastIsland = q.lastIsland := by
  unfold Sluice.raise Sluice.enqueue Sluice.assert; repeat' split
  all_goals rfl
@[simp] theorem Sluice.raiseAll_lastIsland (q : Sluice) (l : List Ev) : (q.raiseAll l).lastIsland = q.lastIsland := by
  induction l generalizing q with
  | nil => rfl
  | cons e l ih => rw [Sluice.raiseAll_cons, ih, Sluice.raise_lastIsland]
@[simp] theorem Sluice.raise_irqSeq (q : Sluice) (e : Ev) : (q.raise e).irqSeq = q.irqSeq := by
  unfold Sluice.raise Sluice.enqueue Sluice.assert; repeat' split
  all_goals rfl
@[simp] theorem Sluice.raiseAll_irqSeq (q : Sluice) (l : List Ev) : (q.raiseAll l).irqSeq = q.irqSeq := by
  induction l generalizing q with
  | nil => rfl
  | cons e l ih => rw [Sluice.raiseAll_cons, ih, Sluice.raise_irqSeq]
@[simp] theorem Sluice.raise_ack (q : Sluice) (e : Ev) : (q.raise e).ack = q.ack := by
  unfold Sluice.raise Sluice.enqueue Sluice.assert; repeat' split
  all_goals rfl
@[simp] theorem Sluice.raiseAll_ack (q : Sluice) (l : List Ev) : (q.raiseAll l).ack = q.ack := by
  induction l generalizing q with
  | nil => rfl
  | cons e l ih => rw [Sluice.raiseAll_cons, ih, Sluice.raise_ack]
@[simp] theorem Sluice.raise_ackLow (q : Sluice) (e : Ev) : (q.raise e).ackLow = q.ackLow := by
  unfold Sluice.raise Sluice.enqueue Sluice.assert; repeat' split
  all_goals rfl
@[simp] theorem Sluice.raiseAll_ackLow (q : Sluice) (l : List Ev) : (q.raiseAll l).ackLow = q.ackLow := by
  induction l generalizing q with
  | nil => rfl
  | cons e l ih => rw [Sluice.raiseAll_cons, ih, Sluice.raise_ackLow]
@[simp] theorem Sluice.raise_ties (q : Sluice) (e : Ev) : (q.raise e).ties = q.ties := by
  unfold Sluice.raise Sluice.enqueue Sluice.assert; repeat' split
  all_goals rfl
@[simp] theorem Sluice.raiseAll_ties (q : Sluice) (l : List Ev) : (q.raiseAll l).ties = q.ties := by
  induction l generalizing q with
  | nil => rfl
  | cons e l ih => rw [Sluice.raiseAll_cons, ih, Sluice.raise_ties]
@[simp] theorem Sluice.raise_ringWr (q : Sluice) (e : Ev) : (q.raise e).ringWr = q.ringWr := by
  unfold Sluice.raise Sluice.enqueue Sluice.assert; repeat' split
  all_goals rfl
@[simp] theorem Sluice.raiseAll_ringWr (q : Sluice) (l : List Ev) : (q.raiseAll l).ringWr = q.ringWr := by
  induction l generalizing q with
  | nil => rfl
  | cons e l ih => rw [Sluice.raiseAll_cons, ih, Sluice.raise_ringWr]
@[simp] theorem Sluice.raise_ring (q : Sluice) (e : Ev) : (q.raise e).ring = q.ring := by
  unfold Sluice.raise Sluice.enqueue Sluice.assert; repeat' split
  all_goals rfl
@[simp] theorem Sluice.raiseAll_ring (q : Sluice) (l : List Ev) : (q.raiseAll l).ring = q.ring := by
  induction l generalizing q with
  | nil => rfl
  | cons e l ih => rw [Sluice.raiseAll_cons, ih, Sluice.raise_ring]
@[simp] theorem Sluice.raise_ssaBuf (q : Sluice) (e : Ev) : (q.raise e).ssaBuf = q.ssaBuf := by
  unfold Sluice.raise Sluice.enqueue Sluice.assert; repeat' split
  all_goals rfl
@[simp] theorem Sluice.raiseAll_ssaBuf (q : Sluice) (l : List Ev) : (q.raiseAll l).ssaBuf = q.ssaBuf := by
  induction l generalizing q with
  | nil => rfl
  | cons e l ih => rw [Sluice.raiseAll_cons, ih, Sluice.raise_ssaBuf]
@[simp] theorem Sluice.raise_ssbBuf (q : Sluice) (e : Ev) : (q.raise e).ssbBuf = q.ssbBuf := by
  unfold Sluice.raise Sluice.enqueue Sluice.assert; repeat' split
  all_goals rfl
@[simp] theorem Sluice.raiseAll_ssbBuf (q : Sluice) (l : List Ev) : (q.raiseAll l).ssbBuf = q.ssbBuf := by
  induction l generalizing q with
  | nil => rfl
  | cons e l ih => rw [Sluice.raiseAll_cons, ih, Sluice.raise_ssbBuf]
@[simp] theorem Sluice.raise_firstC2 (q : Sluice) (e : Ev) : (q.raise e).firstC2 = q.firstC2 := by
  unfold Sluice.raise Sluice.enqueue Sluice.assert; repeat' split
  all_goals rfl
@[simp] theorem Sluice.raiseAll_firstC2 (q : Sluice) (l : List Ev) : (q.raiseAll l).firstC2 = q.firstC2 := by
  induction l generalizing q with
  | nil => rfl
  | cons e l ih => rw [Sluice.raiseAll_cons, ih, Sluice.raise_firstC2]
@[simp] theorem Sluice.raise_firstC3 (q : Sluice) (e : Ev) : (q.raise e).firstC3 = q.firstC3 := by
  unfold Sluice.raise Sluice.enqueue Sluice.assert; repeat' split
  all_goals rfl
@[simp] theorem Sluice.raiseAll_firstC3 (q : Sluice) (l : List Ev) : (q.raiseAll l).firstC3 = q.firstC3 := by
  induction l generalizing q with
  | nil => rfl
  | cons e l ih => rw [Sluice.raiseAll_cons, ih, Sluice.raise_firstC3]
@[simp] theorem Sluice.raise_lastC1 (q : Sluice) (e : Ev) : (q.raise e).lastC1 = q.lastC1 := by
  unfold Sluice.raise Sluice.enqueue Sluice.assert; repeat' split
  all_goals rfl
@[simp] theorem Sluice.raiseAll_lastC1 (q : Sluice) (l : List Ev) : (q.raiseAll l).lastC1 = q.lastC1 := by
  induction l generalizing q with
  | nil => rfl
  | cons e l ih => rw [Sluice.raiseAll_cons, ih, Sluice.raise_lastC1]
@[simp] theorem Sluice.raise_lastC0 (q : Sluice) (e : Ev) : (q.raise e).lastC0 = q.lastC0 := by
  unfold Sluice.raise Sluice.enqueue Sluice.assert; repeat' split
  all_goals rfl
@[simp] theorem Sluice.raiseAll_lastC0 (q : Sluice) (l : List Ev) : (q.raiseAll l).lastC0 = q.lastC0 := by
  induction l generalizing q with
  | nil => rfl
  | cons e l ih => rw [Sluice.raiseAll_cons, ih, Sluice.raise_lastC0]

end Sys2Proof.Machine
end

