-- ==== Sys2Proof/WellFormed.lean ====
section
/-! DEFINITION. What a command may carry: the sizes and ranges that the spec gives to what it brings from outside. `exec` is total and does not ask for it. -/

namespace Sys2Proof

open Sys2Proof.Machine

/-- A logMessageInterval is a signed byte (R53). -/
def wfInterval (i : Int) : Bool := decide (-128 ≤ i) && decide (i ≤ 127)

/-- A Cistern request carries 1 to 64 bytes (R467). -/
def CisternReq.wellFormed (r : CisternReq) : Bool :=
  match r.data with
  | some d => decide (1 ≤ d.length) && decide (d.length ≤ 64)
  | none => decide (1 ≤ r.len) && decide (r.len ≤ 64)

/-- The operands of a command lie in their ranges. -/
def Instr.wellFormed : Instr → Bool
  | .sfdpRead _ capacity => decide (capacity ≤ 268435456)
  | .headerCheck _ header table => header.length == 256 && table.length % 64 == 0
  | .sectionRead stored => decide (1 ≤ stored.length) && decide (stored.length ≤ 268435456)
  | .timeBusIncrement periods => decide (1 ≤ periods)
  | .ptpSyncReceived _ _ _ _ _ i => wfInterval i
  | .ptpAnnounceReceived _ _ _ i => wfInterval i
  | .ethernetFrameReceived _ bytes _ => decide (1 ≤ bytes.length)
  | .spiBurstComplete _ bytes => decide (1 ≤ bytes.length) && decide (bytes.length ≤ 64)
  | .spiInit _ reads => decide (reads.length ≤ 4)
  | .encoderEdge _ line _ _ => line != 3
  | .qanatCellReceived c => c.bytes.length == 64
  | .cisternAccess _ reqs _ _ => reqs.all CisternReq.wellFormed
  | .recordRegisterRead addr len => decide (addr < 2097152) && decide (len ≤ 64)
  | .bar0WriteDiscard addr len => decide (addr < 2097152) && decide (1 ≤ len)
  | .bar2WriteDiscard _ len => decide (1 ≤ len)
  | .replayWindowWrite offset data => decide (offset + data.length ≤ 4194304)
  | .resetAssert .. | .resetNShortPulse .. | .powerOnReset .. | .resetRelease .. | .phaseEnrolmentMarker .. | .islandReenrol .. | .supplyFail ..
  | .temperatureReading .. | .clockFail .. | .noDeviceTimeout .. | .stageEntryS1 .. | .stageEntryS2 .. | .stageEntryS3 .. | .stageLate ..
  | .pdelayMeasurement .. | .syncTimeoutExpiry .. | .announceTimeoutExpiry .. | .mapGuardExpiry .. | .holdLimitExpiry .. | .ref10mEdge ..
  | .ref10mLost .. | .ppsInEdge .. | .frameBoundary .. | .triggerEdge .. | .ppsOutEdge .. | .timeTransferExchange .. | .sluiceIntake ..
  | .eventsLost .. | .sluiceIrqAckLowWrite .. | .sluiceIrqAckHighWrite .. | .scheduleLaunch .. | .startMiss .. | .runLong .. | .deadlineMiss ..
  | .taskCompletion .. | .frameClose .. | .islReplayWrWrite .. | .replayChunkHeaderRead .. | .replayStartChunk .. | .replayMapChunk ..
  | .replayRecordDeliver .. | .replayStall .. | .replayStallEnd .. | .captureStart .. | .captureWatermark .. | .captureRecordWrite .. | .csi2PacketReceived ..
  | .ptpMasterSend .. | .spiDrdyEdge .. | .spiPoll .. | .encoderCodeIssue .. | .canFrameReceived .. | .canErrorFrame .. | .scriptStep ..
  | .busRecovery .. | .busStuckRetry .. | .headgateItem .. | .externalMaskRelease .. | .pktGapExpiry .. | .streamTimeout .. | .streamAbsent ..
  | .dataFlumeWriteCycle .. | .flumeRead .. | .flumeDrop .. | .plInputRecord .. | .rungWrite .. | .poseMaskRelease .. | .coastMaxExpiry ..
  | .imuOnlyMaxExpiry .. | .poseQuery .. | .liveRecord .. | .pointCompensate .. | .pointPoseWait .. | .pointProject .. | .pauClosePass ..
  | .alignStepApply .. | .misHoldExpiry .. | .pcuTask .. | .listStart .. | .queueFlush .. | .nop .. | .copy .. | .fill .. | .matmul .. | .conv ..
  | .spconv .. | .gather .. | .scatter .. | .vunary .. | .vbinary .. | .vfma .. | .reduce .. | .softmax .. | .norm .. | .attend .. | .kvAppend ..
  | .kvFlush .. | .kvScatter .. | .signal .. | .wait .. | .waitTimeout .. | .digest .. | .goldenCheck .. | .listCompletion .. | .trackerTask ..
  | .mpcBatch .. | .alignSolve .. | .cbHitEntry .. | .cbSeenMarking .. | .gridRecentre .. | .gridScrub .. | .cbEcc .. | .tableStart ..
  | .tableSwap .. | .weirTask .. | .guardCycleLatch .. | .guardLate .. | .guardPortFrame .. | .plRungLate .. | .faultCollection .. | .c2Release ..
  | .safeOkStuck .. | .supervisorWatchdogExpiry .. | .supervisorHeartbeat .. | .heartbeatAbsent .. | .supervisorSelfCheck .. | .selfTestSlice ..
  | .qanatLinkUp .. | .helloSend .. | .statusSend .. | .guardMessageSend .. | .linkLoss .. | .aliveTimeout .. | .twinAliveToggle ..
  | .twinSyncPulse .. | .twinSyncInEdge .. | .witnessPulse .. | .witnessLost .. | .roleConflict .. | .xcheckSend .. | .xcheckCompare ..
  | .publication .. | .guardStreamMessage .. | .fragmentTransmit .. | .txMaxAgeExpiry .. | .sm0Build .. | .sm1Build .. | .canMaxAgeExpiry ..
  | .canTransmitComplete .. | .busOff .. | .busOffRecovered .. | .patrolScrub .. | .lpddr5xTraining .. | .dramScrub .. | .grottoSample ..
  | .grtCtrlFreezeWrite .. | .freezeExpiry .. | .grtCursorWrite .. | .obpCapWinWrite .. | .msiXTableWrite .. | .twinAliveInEdge ..
  | .laneBlockLockLoss .. | .xcWaitExpiry .. | .extest .. | .inBandInterrupt .. | .ethernetLinkChange .. | .pdelayReqSend .. => true

end Sys2Proof
end

