-- ==== Sys2Proof/Tests/Slice0.lean ====
section
/-! SUPPORT. Tests: small ones with results from the spec, the ill-formed operands that WellFormed refuses, and for every statement with
hypotheses a state and operands that meet them. -/

namespace Sys2Proof.Tests

open Sys2Proof Sys2Proof.Machine

set_option Elab.async false

/-- A device that runs, 90 ms after reset release: every island powered and enrolled, frame 4 open, frame 3 before it. -/
def up : State :=
  { State.reset with
    tb := { State.reset.tb with running := true, now := us 90000, frame := some ⟨4, us 80000, us 100000, false⟩, past := [⟨3, us 60000, us 80000, false⟩] }
    isl := { State.reset.isl with powered := Vector.replicate 144 true, enrolled := Vector.replicate 144 true, allEnrolled := true } }

/-- The same in Replay mode. -/
def upReplay : State := { up with isl := { up.isl with cfg := { replay := true } } }

/-- A device in stage n. -/
def inStage (n : BitVec 2) : State := { up with bcc := { up.bcc with stage := n, s1At := some (us 30000) } }

/-! ### Operands that a command cannot carry -/

theorem test_sfdp_refuses : Instr.wellFormed (.sfdpRead 0 268435457) = false := by decide
theorem test_header_refuses : Instr.wellFormed (.headerCheck 0 [] []) = false := by decide
theorem test_section_refuses : Instr.wellFormed (.sectionRead []) = false := by decide
theorem test_periods_refused : Instr.wellFormed (.timeBusIncrement 0) = false := by decide
theorem test_sync_refuses : Instr.wellFormed (.ptpSyncReceived 0 0 0 0 0 128) = false := by decide
theorem test_announce_refuses : Instr.wellFormed (.ptpAnnounceReceived 0 0 {} (-129)) = false := by decide
theorem test_frame_refuses : Instr.wellFormed (.ethernetFrameReceived 0 [] 0) = false := by decide
theorem test_burst_refuses : Instr.wellFormed (.spiBurstComplete 0 []) = false := by decide
theorem test_init_refuses : Instr.wellFormed (.spiInit 0 [[], [], [], [], []]) = false := by decide
theorem test_line_refuses : Instr.wellFormed (.encoderEdge 0 3 true 0) = false := by decide
theorem test_cell_refuses : Instr.wellFormed (.qanatCellReceived ⟨[1], none, none⟩) = false := by decide
theorem test_request_refuses : Instr.wellFormed (.cisternAccess 0 [⟨0, 0, 0, none⟩] .clean 0) = false := by decide
theorem test_write_refuses : Instr.wellFormed (.cisternAccess 0 [⟨0, 0, 0, some []⟩] .clean 0) = false := by decide
theorem test_read_refuses : Instr.wellFormed (.recordRegisterRead 0x200000 4) = false := by decide
theorem test_bar0_refuses : Instr.wellFormed (.bar0WriteDiscard 0 0) = false := by decide
theorem test_bar2_refuses : Instr.wellFormed (.bar2WriteDiscard 0 0) = false := by decide
theorem test_window_refuses : Instr.wellFormed (.replayWindowWrite 0x3FFFFF [1, 2]) = false := by decide

/-! ### Witnesses -/

theorem witness_TimeBusAdvancesDeviceTime : up.tb.running = true ∧ up.isl.cfg.replay = false ∧ up.tb.mapNext = none := by decide

def slewing : State := { up with tb := { up.tb with mapNext := some (us 90001, { up.tb.map with mapSeq := 1 }) } }
/-- The devices of the witnesses below run outside a Replay stall. -/
theorem witness_noStall : up.stalled = false ∧ upReplay.stalled = false ∧ ∀ n, (inStage n).stalled = false := by decide

theorem witness_TimeMapTakesEffectAtAGuardCycle : slewing.tb.mapNext = some (us 90001, { up.tb.map with mapSeq := 1 }) ∧ tReached slewing.tb.now (us 90001) = false
    ∧ tReached (slewing.tb.now + 8000) (us 90001) = true ∧ ({ up.tb.map with mapSeq := 1 } : TimeMap).mapSeq ≠ slewing.tb.map.mapSeq
    ∧ exec .resetNShortPulse up = .next up := ⟨rfl, by decide, by decide, by decide, rfl⟩

/-- Domain A in a state, with path delay 100 ns on P6 and an estimator. -/
def tracking (st : SrcState) (run : Nat) : State := { up with tb := { up.tb with
  src := up.tb.src.set 0 { st := st, announced := true, est := some ⟨800, 0, us 90000⟩, lockRun := run, lastSync := us 1, lastAnnounce := us 1 }
  path := up.tb.path.set 0 (some ⟨800, us 90000⟩) } }
theorem witness_PtpMessagesMoveTheirSource_listening : (tracking .listening 0).stalled = false ∧ (tracking .listening 0).vehicleUp 0 = true ∧ up.tb.sourceOf 0 0 = some .a ∧ (tracking .listening 0).tb.sourceOf 0 0 = some .a
    ∧ ((tracking .listening 0).tb.source .a).st = .listening ∧ ((tracking .listening 0).tb.source .a).announced = true
    ∧ (tracking .listening 0).tb.pathDelay 0 = some 800 := by decide
theorem witness_PtpMessagesMoveTheirSource_change : (tracking .locked 0).stalled = false ∧ (tracking .locked 0).vehicleUp 0 = true ∧ (tracking .locked 0).tb.sourceOf 0 0 = some .a ∧ ((tracking .locked 0).tb.source .a).st = .locked
    ∧ ({ identity := 7 } : GmAttrs).identity ≠ ((tracking .locked 0).tb.source .a).gm.identity := by decide
theorem witness_PtpMessagesMoveTheirSource_lock : (tracking .acquiring 15).stalled = false ∧ (tracking .acquiring 15).vehicleUp 0 = true ∧ (tracking .acquiring 15).tb.sourceOf 0 0 = some .a ∧ ((tracking .acquiring 15).tb.source .a).st = .acquiring
    ∧ ((tracking .acquiring 15).tb.source .a).est = some ⟨800, 0, us 90000⟩
    ∧ (tracking .acquiring 15).tb.syncOffset 0 0 (us 90000) 90000000 0 = some (.a, us 90000, 800)
    ∧ absRat (800 - (⟨800, 0, us 90000⟩ : Estimator).predict (us 90000)) ≤ (((tracking .acquiring 15).tb.cfg.lockNs * 8 : Nat) : Rat)
    ∧ (tracking .acquiring 15).tb.cfg.lockCount ≤ ((tracking .acquiring 15).tb.source .a).lockRun + 1 := by decide +kernel
theorem witness_DelaysMasterMessages : up.vehicleUp 0 = true ∧ up.ptpStarts 0 = true ∧ up.portUp 8 = true ∧ up.tb.ptpMay 0 .sync = true ∧ up.tb.ptpMay 0 .announce = true
    ∧ ({ up.tb with ptpFollow := up.tb.ptpFollow.set 0 true, ptpSync := up.tb.ptpSync.set 0 (some (3, us 5)), cfg := { sensorPort := up.tb.cfg.sensorPort.set 0 { oneStep := false } } } : Timebase).ptpMay 0 .followUp = true
    ∧ ({ up.tb with pdelayReq := up.tb.pdelayReq.set 0 (some (5, 9)) } : Timebase).pdelayReq[(0 : Fin 2)] = some (5, 9)
    ∧ up.tb.map.state = .free ∧ ({ up.tb.map with state := .holdover } : TimeMap).state = .holdover := by decide
def late (m : MapState) : State := { tracking .locked 0 with tb := { (tracking .locked 0).tb with now := us 100000000, map := { state := m } } }
theorem witness_TimeoutsMoveSourcesAndTheMap : (late .settling).replaying = false ∧ (late .holdover).replaying = false ∧ upReplay.replaying = true ∧ (late .settling).stalled = false ∧ (late .holdover).stalled = false ∧ ((late .settling).tb.source .a).st = .locked
    ∧ elapsed (late .settling).tb.now ((late .settling).tb.source .a).lastSync ((late .settling).tb.cfg.syncTimeout * (late .settling).tb.syncTicks .a) = true
    ∧ Src.a ≠ .peer ∧ elapsed (late .settling).tb.now ((late .settling).tb.source .a).lastAnnounce ((late .settling).tb.cfg.announceTimeout * (late .settling).tb.announceTicks .a) = true
    ∧ (late .settling).tb.latest.state = .settling ∧ elapsed (late .settling).tb.now (late .settling).tb.settleAt ((late .settling).tb.cfg.mapGuardMs * 8000000) = true
    ∧ (late .holdover).tb.latest.state = .holdover ∧ elapsed (late .holdover).tb.now (late .holdover).tb.holdAt ((late .holdover).tb.cfg.holdLimitS * 8000000000) = true := by
  decide +kernel
def steered : State := { up with tb := { up.tb with now := us 200000, map := { state := .holdover }, cfg := { holdExt := true }, ref10m := some (us 80000), ppsRise := some 0, ppsHigh := true } }
theorem witness_ReferenceAndSecondEdges : up.replaying = false ∧ steered.replaying = false ∧ steered.stalled = false ∧ (up.tb.map.state ≠ .holdover ∨ up.tb.cfg.holdExt = false ∨ up.tb.ref10m = none ∨ up.tb.ref10mLost = true)
    ∧ steered.tb.map.state = .holdover ∧ steered.tb.cfg.holdExt = true ∧ steered.tb.ref10mLost = false ∧ steered.tb.ref10m = some (us 80000)
    ∧ elapsed steered.tb.now (us 80000) 8000 = true ∧ up.isl.allEnrolled = true ∧ up.tb.ppsHigh = false ∧ tReached up.tb.now up.tb.ppsDue = true
    ∧ steered.tb.ppsRise = some 0 ∧ up.tb.ppsFrom.toNat + 8000000000 < 2 ^ 64 ∧ steered.isl.allEnrolled = true ∧ steered.tb.ppsHigh = true
    ∧ elapsed steered.tb.now 0 (steered.tb.cfg.ppsWidthUs * 8000) = true
    ∧ ({ up.tb.map with mapSeq := 1 } : TimeMap).mapSeq ≠ up.tb.map.mapSeq ∧ tReached ({ slewing.tb with now := us 90001, ppsRise := some 0 } : Timebase).now (us 90001) = true := by decide +kernel
def boundary (g : Option T64) : State := { up with tb := { up.tb with now := us 100000, reanchor := g } }
theorem witness_FrameBoundariesFollowTheGrid : (boundary none).stalled = false ∧ (boundary none).tb.running = true ∧ tReached (boundary none).tb.now (boundary none).tb.nextB = true
    ∧ 0 < (boundary none).tb.cfg.framePeriodMs ∧ (boundary none).tb.reanchor = none
    ∧ (boundary (some (us 90000))).tb.reanchor = some (us 90000) ∧ tReached (boundary (some (us 90000))).tb.nextB (us 90000) = true
    ∧ (boundary (some (us 90000))).tb.cfg.servo = true ∧ (boundary (some (us 90000))).tb.cfg.anchorDevice = false := by decide +kernel
def triggered : State := { up with tb := { up.tb with cfg := { trig := up.tb.cfg.trig.set 0 { en := true } } }, qnt := { up.qnt with linkUp := true } }
theorem witness_TriggersAndExchanges : triggered.stalled = false ∧ triggered.replaying = false ∧ triggered.tb.xferAt = none ∧ triggered.tb.trigEdges[(0 : Fin 16)] = 2 * (0 : Fin 8).val
    ∧ triggered.tb.frame = some ⟨4, us 80000, us 100000, false⟩ ∧ triggered.tb.cfg.trig[(0 : Fin 16)].en = true
    ∧ (0 : Fin 8).val < triggered.tb.cfg.trig[(0 : Fin 16)].count ∧ (4 : BitVec 64).toNat % triggered.tb.cfg.trig[(0 : Fin 16)].div = 0
    ∧ triggered.tb.trigActive[(0 : Fin 16)] = !true
    ∧ tReached triggered.tb.now (us 80000 + BitVec.ofNat 64 (triggered.tb.cfg.trig[(0 : Fin 16)].offset + 0 * (triggered.tb.cfg.period / 2) + 0)) = true
    ∧ triggered.qnt.linkUp = true := by decide +kernel

/-- In reset, with no supply out of range; and just released, before enrolment. -/
def released : State := { State.reset with tb := { State.reset.tb with running := true, now := us 10 }, isl := { State.reset.isl with powered := Vector.replicate 144 true } }
/-- A rollback counter that is being programmed from 3 to 5. -/
def committing : Otp := { State.reset.bcc.otp with rollback := 5, programming := some (3, us 10) }
theorem witness_ResetAndItsRelease : committing.programming = some (3, us 10) ∧ 3 ≤ committing.rollback ∧ State.reset.bcc.otp.programming = none ∧ State.reset.tb.running = false ∧ State.reset.pwr.por = false ∧ State.reset.isl.cfg.replay = false ∧ up.tb.running = true := by decide
theorem witness_EnrolmentPresetsTheCrossings : released.tb.running = true ∧ released.isl.allEnrolled = false ∧ released.isl.enrolFail = none ∧ released.isl.powered[(42 : Fin 144)] = true
    ∧ released.isl.markDue released.tb.now = true ∧ ({ released.isl with markers := 1, markAt := us 5 } : Islands).markers ≠ 0 ∧ elapsed released.tb.now (us 5) 160000 = false
    ∧ released.isl.markers < 2 ∧ 2 ≤ ({ released.isl with markers := 2 } : Islands).markers := by decide
def gated (i : Fin 144) : State := { up with isl := { up.isl with enrolled := up.isl.enrolled.set i false } }
theorem witness_EnrolmentPresetsTheCrossings_reenrol : (gated 80).isl.allEnrolled = true ∧ (gated 80).isl.powered[(80 : Fin 144)] = true ∧ (gated 80).isl.enrolled[(80 : Fin 144)] = false
    ∧ 80 ≤ (80 : Fin 144).val ∧ (80 : Fin 144).val ≤ 111 ∧ (gated 80).mem.cisternBad = [] ∧ (gated 61).isl.enrolled[(61 : Fin 144)] = false
    ∧ (61 : Fin 144).val = 61 + 6 * (0 : Fin 4).val := by decide
theorem witness_SuppliesClocksAndScan_early : ({ up with pwr := { up.pwr with readAt := some (us 89500) } } : State).pwr.readDue up.tb.now = false := by decide
theorem witness_SuppliesClocksAndScan : up.stalled = false ∧ up.pwr.readDue up.tb.now = true ∧ up.tb.running = true ∧ up.isl.powered[(42 : Fin 144)] = true
    ∧ ({ armed := true, warnRun := 1, limitRun := 1 } : TempSensor).limited = false ∧ tjMax - 100 ≤ (tjMax : Int) ∧ (tjMax : Int) - 150 ≤ tjMax - 150 :=
  ⟨by decide, by decide, by decide, by decide, rfl, by omega, Int.le_refl _⟩
/-- While the image is read. -/
def reading (x y : Slot) : State := { up with bcc := { up.bcc with slots := #v[x, y] } }
def readingEarly : State := { reading {} {} with tb := { up.tb with now := us 100 } }
theorem witness_SlotsAnswerAndOneIsChosen : readingEarly.loading = true ∧ readingEarly.bcc.slots[(0 : Fin 2)].answered = none ∧ tReached 4000000 readingEarly.tb.now = true
    ∧ tReached 4000000 (reading {} {}).tb.now = false
    ∧ (reading {} {}).loading = true ∧ (reading {} {}).bcc.slots[(0 : Fin 2)].answered = none ∧ tReached (reading {} {}).tb.now 4000000 = true
    ∧ (reading { answered := some true } {}).loading = true ∧ (reading { answered := some true } {}).bcc.slots[(0 : Fin 2)].answered = some true
    ∧ (reading { answered := some true } {}).bcc.slots[(0 : Fin 2)].checked = false := by decide +kernel
def slotOk (svn : Nat) : Slot := { answered := some true, checked := true, candidate := true, header := some { svn := svn } }
def slotBad : Slot := { answered := some false, checked := true }
theorem witness_SlotsAnswerAndOneIsChosen_selection : (reading (slotOk 3) slotBad).bcc.slots[0].checked = true ∧ (reading (slotOk 3) slotBad).bcc.slots[1].checked = true
    ∧ (reading (slotOk 3) slotBad).bcc.slot = none ∧ (reading (slotOk 3) slotBad).bcc.slots[0].candidate = true ∧ (reading (slotOk 3) slotBad).bcc.slots[1].candidate = false
    ∧ (reading (slotOk 3) (slotOk 4)).bcc.slots[1].candidate = true ∧ (reading (slotOk 3) (slotOk 4)).bcc.slots[0].svn < (reading (slotOk 3) (slotOk 4)).bcc.slots[1].svn
    ∧ (reading slotBad slotBad).bcc.slots[0].candidate = false ∧ (reading slotBad slotBad).bcc.slots[1].candidate = false := by decide +kernel
/-- Section 0 of slot A is next; its entry asks for the digest of one zero byte. -/
def sectionOf (e : SectionEntry) : State := { up with bcc := { up.bcc with slots := #v[{ slotOk 3 with table := [e, e] }, slotBad], slot := some 0 } }
def slotEntry : SectionEntry := { type := 0x15, stage := 2, length := 1, version := 1, digest := sha256 [0] }
theorem witness_SectionsAreReadInOrder : (sectionOf slotEntry).loading = true ∧ (sectionOf slotEntry).bcc.slot.isSome = true
    ∧ (sectionOf slotEntry).bcc.sel.table[(sectionOf slotEntry).bcc.next]? = some slotEntry ∧ ([0] : Bytes).length = slotEntry.length := by decide +kernel
/-- Does a section pass as a model slot. -/
def passes (x : Except (BitVec 4) (Bytes × SectionContent)) (p : Bytes) : Bool := match x with | .ok y => y.1 == p && (match y.2 with | .modelSlot => true | _ => false) | .error _ => false
theorem passes_ok {x : Except (BitVec 4) (Bytes × SectionContent)} {p : Bytes} (h : passes x p = true) : x = .ok (p, .modelSlot) := by
  unfold passes at h; split at h
  · rename_i y; obtain ⟨a, b⟩ := y; cases b <;> simp_all
  · cases h
def otherEntry (stage : Nat) : SectionEntry := { slotEntry with digest := [], stage := stage }
theorem witness_SectionsAreReadInOrder_fails (stage : Nat) : ({ (sectionOf (otherEntry stage)).bcc with readBytes := 1 } : Bcc).judge (otherEntry stage) [0] = .error 10
    ∧ sha256 [0] ≠ (otherEntry stage).digest ∧ (sectionOf (otherEntry stage)).bcc.retry = false := by
  have h : sha256 [0] ≠ (otherEntry stage).digest := by show sha256 [0] ≠ []; decide +kernel
  exact ⟨by unfold Bcc.judge; rw [if_pos h], h, rfl⟩
theorem witness_SectionsAreReadInOrder_passes : ({ (sectionOf slotEntry).bcc with readBytes := 1 } : Bcc).judge slotEntry [0] = .ok ([0], .modelSlot) :=
  passes_ok (by decide +kernel)
def staged (n : BitVec 2) (k : Nat) : State := { inStage n with
  bcc := { (inStage n).bcc with slots := #v[{ slotOk 3 with table := [{ type := 0x10, stage := k, version := 1 }] }, slotBad], slot := some 0, next := 1, result := .complete
                                installed := [{ index := 0, entry := { type := 0x10, stage := k, version := 1 }, bytes := [], content := .observe {} }] }
  mem := { up.mem with trained := true } }
theorem witness_StageEntries : (staged 0 1).s1Ready = true ∧ (staged 1 2).s2Ready = true ∧ (staged 2 3).s3Ready = true ∧ (staged 1 3).s3Ready = true
    ∧ (staged 2 3).bcc.manifest.svnCommit = false ∧ ({ svnCommit := true } : Manifest).svnCommit = true ∧ up.tb.running = true ∧ up.isl.cfg.replay = false := by decide +kernel
theorem witness_StageNeverFalls : up.pending.head? ≠ some .resetAssert ∧ step up = .next up := ⟨by decide, rfl⟩

/-- Two entries in force: a Tensor Engine list and a Weir task, in S3. -/
def weirEntry : SchedEntry := { target := 0x13, start := 1000, maxRt := 100, deadline := 5000, minRt := 10 }
def teEntry : SchedEntry := { target := 0x05, start := 1000, maxRt := 100, deadline := 5000, list := 4096 }
def scheduled (o : Option Launched) : State := { inStage 3 with seq := { up.seq with
  table := [weirEntry, teEntry], launches := (match o with | some o => [⟨4, 0, 0, o, us 81000, false, false, none⟩] | none => []) } }
def dueNow : State := { scheduled none with tb := { up.tb with now := us 81050 } }
theorem witness_LaunchesStartTheirTarget : dueNow.stalled = false ∧ dueNow.launchable 4 0 0 = true ∧ (dueNow.seq.tableOf 4)[(0 : Fin 256).val]? = some weirEntry ∧ unitOf weirEntry.target = some 3
    ∧ dueNow.launchable 4 1 0 = true ∧ (dueNow.seq.tableOf 4)[(1 : Fin 256).val]? = some teEntry ∧ teEntry.target = BitVec.ofNat 8 (4 * (1 : Fin 4).val + (1 : Fin 4).val)
    ∧ ((scheduled (some .running)).seq.find 4 0 0).isSome = true
    ∧ (scheduled none).tb.frameNo 4 = some ⟨4, us 80000, us 100000, false⟩ ∧ tLater (scheduled none).tb.now ((scheduled none).windowEnd ⟨4, us 80000, us 100000, false⟩ weirEntry 0 0) = true := by decide +kernel
theorem witness_TimingMissesAreReportedAndEscalate : (scheduled none).stalled = false ∧ (scheduled (some .running)).stalled = false
    ∧ (∀ o ∈ [none, some Launched.running], ((scheduled o).seq.tableOf 4)[(0 : Fin 256).val]? = some weirEntry) ∧ (scheduled none).tb.frameNo 4 = some ⟨4, us 80000, us 100000, false⟩
    ∧ (scheduled none).enrolled = true ∧ (scheduled none).c3 = false ∧ (0 : Fin 16).val ≤ weirEntry.repeats.toNat ∧ (scheduled none).seq.find 4 0 0 = none
    ∧ tLater (scheduled none).tb.now (us 80000 + us (weirEntry.start.toNat + 0 * weirEntry.spacing.toNat) + us weirEntry.window.toNat
        + tick ((scheduled none).shift ⟨4, us 80000, us 100000, false⟩ 0)) = true
    ∧ (scheduled (some .running)).seq.find 4 0 0 = some ⟨4, 0, 0, .running, us 81000, false, false, none⟩
    ∧ tLater (scheduled (some .running)).tb.now (us 81000 + us weirEntry.maxRt.toNat + tick ((scheduled (some .running)).shift ⟨4, us 80000, us 100000, false⟩ 0)) = true
    ∧ tLater (scheduled (some .running)).tb.now (us 80000 + us (weirEntry.deadline.toNat + 0 * weirEntry.spacing.toNat)
        + tick ((scheduled (some .running)).shift ⟨4, us 80000, us 100000, false⟩ 0)) = true
    ∧ up.safety.sup[0].lost = false ∧ (scheduled (some .deadlineMiss)).seq.find 4 0 0 = some ⟨4, 0, 0, .deadlineMiss, us 81000, false, false, none⟩ := by decide +kernel
/-- The miss of frame 4 is the third in a row of entry 0. -/
def missing : State := { up with safety := { up.safety with sup := up.safety.sup.set 0 { up.safety.sup[0] with missed := [(0, 3), (0, 2)] } } }
theorem witness_TimingMissesAreReportedAndEscalate_run : missing.safety.sup[missing.supNo].lost = false ∧ missing.safety.sup[missing.supNo].missedIn 0 4 = false
    ∧ missing.safety.sup[missing.supNo].missedIn 0 3 = true ∧ (2 : Nat) ≤ 254 ∧ (0 : Nat) ≤ 255 ∧ 2 ≤ (4 : BitVec 64).toNat
    ∧ (missing.safety.sup[missing.supNo].takeMiss 0 4).missedIn 0 (4 - BitVec.ofNat 64 1) = true ∧ (missing.safety.sup[missing.supNo].takeMiss 0 4).missedIn 0 (4 - BitVec.ofNat 64 2) = true
    ∧ (missing.safety.sup[missing.supNo].takeMiss 0 4).missedIn 0 (4 - BitVec.ofNat 64 (2 + 1)) = false
    ∧ (missing.safety.sup[missing.supNo].takeMiss 0 4).missedIn 0 (4 + BitVec.ofNat 64 (0 + 1)) = false ∧ missing.safety.cfg.timingC2 ≤ 2 + 1 + 0 := by decide +kernel
def finishing : State := { scheduled (some .running) with seq := { (scheduled (some .running)).seq with finished := [(4, 0, 0)], busy := up.seq.busy.set 3 (some (4, 0, 0)) } }
def done : State := { finishing with tb := { up.tb with now := us 81050 } }
theorem witness_CompletionAndFrameClose : done.stalled = false ∧ finishing.stalled = false ∧ (done.seq.tableOf 4)[(0 : Fin 256).val]? = some weirEntry ∧ (finishing.seq.tableOf 4)[(0 : Fin 256).val]? = some weirEntry
    ∧ done.tb.frameNo 4 = some ⟨4, us 80000, us 100000, false⟩ ∧ done.seq.find 4 (0 : Fin 256).val (0 : Fin 16).val = some ⟨4, 0, 0, .running, us 81000, false, false, none⟩
    ∧ tLater done.tb.now (us 81000 + us weirEntry.maxRt.toNat + tick (done.shift ⟨4, us 80000, us 100000, false⟩ 0)) = false
    ∧ tLater done.tb.now (us 80000 + us (weirEntry.deadline.toNat + 0 * weirEntry.spacing.toNat) + tick (done.shift ⟨4, us 80000, us 100000, false⟩ 0)) = false
    ∧ ((4 : BitVec 64), (0 : Fin 256).val, (0 : Fin 16).val) ∈ done.seq.finished
    ∧ tLater finishing.tb.now (us 81000 + us weirEntry.maxRt.toNat + tick (finishing.shift ⟨4, us 80000, us 100000, false⟩ 0)) = true ∧ finishing.seq.find 4 (0 : Fin 256).val (0 : Fin 16).val = some ⟨4, 0, 0, .running, us 81000, false, false, none⟩
    ∧ ((4 : BitVec 64), (0 : Fin 256).val, (0 : Fin 16).val) ∈ finishing.seq.finished ∧ (scheduled (some .deadlineMiss)).seq.find 4 0 0 = some ⟨4, 0, 0, .deadlineMiss, us 81000, false, false, none⟩
    ∧ up.enrolled = true ∧ up.nextClose = some ⟨3, us 60000, us 80000, false⟩ ∧ tReached up.tb.now (us 80000 + tick (up.pcu.closeTicks 3)) = true := by decide +kernel

/-- Chunks that wait in Replay mode, in S3. -/
def replaying (started : Bool) (q : List Chunk) : State := { inStage 3 with
  isl := { up.isl with cfg := { replay := true } }, replay := { queue := q, wr := 4096, started := started } }
theorem witness_ReplayReadsAndDeliversInOrder_writes : upReplay.isl.cfg.replay = true ∧ (64 : Word).toNat % 8 = 0 ∧ (upReplay.replay.wr - upReplay.replay.rd).toNat ≤ ((64 : Word) - upReplay.replay.rd).toNat
    ∧ ((64 : Word) - upReplay.replay.rd).toNat ≤ 4194304 ∧ cellsWf upReplay.replay.window = true ∧ 8 + ([1, 2] : Bytes).length ≤ 4194304 ∧ up.isl.cfg.replay = false
    ∧ (replaying false []).replay.halted = false ∧ ((replaying false []).replay.head - (replaying false []).replay.rd).toNat + 32 ≤ ((replaying false []).replay.wr - (replaying false []).replay.rd).toNat := by decide
def reading3 (r : Replay) : Replay := { r with wr := 4096 }
theorem witness_ReplayReadsAndDeliversInOrder_headers : ((reading3 {}).bytes (reading3 {}).head 32) = List.replicate 32 0 ∧ (reading3 {}).lastDue = none
    ∧ (reading3 {}).lastNo[streamIdx 0] = none ∧ (reading3 { lastNo := Vector.replicate 65 (some 5) }).lastNo[streamIdx 0] = some 5
    ∧ fieldOf (List.replicate 32 0) 4 4 = 0 ∧ fieldOf (List.replicate 32 0) 128 64 = 0 ∧ fieldOf (List.replicate 32 0) 32 32 = 0 ∧ fieldOf (List.replicate 32 0) 8 8 = 0
    ∧ (reading3 { lastDue := some (us 100) }).lastDue = some (us 100) ∧ tLater (us 100) 0 = true := by decide +kernel
theorem witness_ReplayReadsAndDeliversInOrder_chunks : (replaying false [⟨3, 255, 16, 0, us 100, 0, 0⟩]).replay.queue = ⟨3, 255, 16, 0, us 100, 0, 0⟩ :: []
    ∧ (replaying false [⟨3, 255, 16, 0, us 100, 0, 0⟩]).replay.started = false ∧ (replaying false [⟨3, 255, 16, 0, us 100, 0, 0⟩]).bcc.stage = 3
    ∧ 32 + 16 ≤ ((replaying false []).replay.wr - (replaying false []).replay.rd).toNat
    ∧ (replaying true []).isl.cfg.replay = true ∧ (replaying true []).replay.halted = false ∧ 32 + 16 ≤ ((replaying true []).replay.wr - (replaying true []).replay.rd).toNat
    ∧ 32 + 8 ≤ ((replaying true []).replay.wr - (replaying true []).replay.rd).toNat
    ∧ (replaying true [⟨2, 255, 16, 0, us 100, 0, 0⟩]).replay.queue = ⟨2, 255, 16, 0, us 100, 0, 0⟩ :: [] ∧ (replaying true []).replay.started = true
    ∧ tReached (replaying true []).tb.now (us 100) = true ∧ (replaying true [⟨0, 5, 8, 0, us 100, us 101, 0⟩]).replay.queue = ⟨0, 5, 8, 0, us 100, us 101, 0⟩ :: []
    ∧ tReached (replaying true []).tb.now (us 101) = true ∧ (5 : Nat) < 64 := by decide
def imu : HgCfg := { kind := .scalar, port := 16 }
def imuStream : State := { upReplay with hgs := up.hgs.set 5 { cfg := some imu, st := .active }, replay := { started := true } }
theorem witness_ReplayReadsAndDeliversInOrder_stall : imuStream.replay.bound imuStream.enabledStreams = some 0 ∧ imuStream.hgs[(5 : Fin 64)].cfg = some imu ∧ 16 ≤ imu.port ∧ imu.port < 20
    ∧ ((0 : T64) - imuStream.tb.now).toInt < 32 ∧ imuStream.isl.cfg.replay = true ∧ imuStream.replay.started = true ∧ imuStream.replay.halted = false
    ∧ imuStream.clusterUp ⟨5, by omega⟩ = true
    ∧ ({ imuStream.replay with mark := up.replay.mark.set 5 (us 90001), stalled := true } : Replay).bound imuStream.enabledStreams = some (us 90001)
    ∧ 0 < (us 90001 - imuStream.tb.now).toInt := by decide +kernel
def capturing : State := { staged 3 3 with
  isl := { up.isl with cfg := { captureSize := 1048576, captureMask := 0x20 } }
  hgs := up.hgs.set 5 { cfg := some imu, st := .active }, capture := { active := true, startAt := some (us 90000), items := [⟨5, us 89000, us 89500, [1]⟩] } }
theorem witness_CaptureWritesItsRingAlone : ({ capturing with capture := { startAt := some (us 90000) } } : State).captureReady = true
    ∧ capturing.stalled = false ∧ capturing.capture.startAt = some capturing.tb.now ∧ capturing.capture.written + 96 ≤ capturing.isl.cfg.captureSize ∧ capturing.clusterUp 5 = true
    ∧ capturing.capture.items = ⟨5, us 89000, us 89500, [1]⟩ :: [] ∧ (5 : Fin 64) ≠ 6 ∧ capturing.capture.active = true ∧ capturing.enabledStreams.getLsbD (5 : Fin 64).val = true
    ∧ elapsed capturing.tb.now capturing.capture.lastMark[(5 : Fin 64)] 8000000 = true ∧ capturing.isl.cfg.captureMask.getLsbD (5 : Fin 64).val = true
    ∧ ([1] : Bytes).length ≤ 65535 ∧ capturing.captureUsed + 32 + (([1] : Bytes).length + 7) / 8 * 8 ≤ capturing.isl.cfg.captureSize
    ∧ capturing.mem.dramBad = [] ∧ 0 < capturing.isl.cfg.captureSize := by decide +kernel
theorem witness_CaptureWritesItsRingAlone_full : ({ capturing with isl := { up.isl with cfg := { captureSize := 8, captureMask := 0x20 } } } : State).isl.cfg.captureSize
    < ({ capturing with isl := { up.isl with cfg := { captureSize := 8, captureMask := 0x20 } } } : State).captureUsed + 32 + (([1] : Bytes).length + 7) / 8 * 8 := by decide +kernel

/-! ### Ports, headgates and the Sluice -/

def hgOf (k : HgKind) (port sel : Nat) : HgCfg := { kind := k, port := port, selector := sel }
/-- A camera on port 0, an Ethernet stream on P0, an IMU on each of two hosts, an encoder and a CAN stream. -/
def wired : State := { up with
  hgs := ((((up.hgs.set 0 { cfg := some (hgOf .camera 0 0), st := .active }).set 1 { cfg := some (hgOf .points 8 0), st := .active }).set 2
    { cfg := some (hgOf .scalar 16 0), st := .active }).set 3 { cfg := some (hgOf .edge 20 0), st := .active }).set 4 { cfg := some (hgOf .scalar 28 0), st := .active }
  ports := { up.ports with
    csi := up.ports.csi.set 0 { cfg := some {} }
    eth := (up.ports.eth.set 0 { cfg := some { pcs := 3, matchers := [{ etherType := 0x0800, dstPort := 9, headgate := 1 }] }, link := true }).set 6 { link := true }
    spi := (up.ports.spi.set 0 { cfg := some {} }).set 1 { cfg := some { poll := true } }
    enc := up.ports.enc.set 0 { cfg := some {} }
    can := up.ports.can.set 0 { cfg := some { filters := [{ format := 0, id := 5, mask := 0x7FF, headgate := 4 }] } }
    bus := (up.ports.bus.set 0 { cfg := some {} }).set 1 { cfg := some { i3c := true } } } }
/-- A packet with the header of frame start 7, and one whose ECC cannot correct it; a UDP datagram of one byte to port 9, with its FCS. -/
def startPacket : CsiPacket := { header := [(⟨0, 0, 7⟩ : CsiHeader).bytes], burst := us 89000 }
def badPacket : CsiPacket := { header := [[3, 0, 0, 0]], burst := us 89000 }
def udpBody : Bytes := List.replicate 12 0 ++ [8, 0, 0x45, 0, 0, 29, 0, 0, 0, 0, 64, 17, 0, 0, 1, 1, 1, 1, 2, 2, 2, 2, 0, 1, 0, 9, 0, 9, 0, 0, 7]
def udpFrame : Bytes := udpBody ++ leBytes 4 (crc32 udpBody)
theorem witness_SensorPortsHandItemsOn_udp : udpFrame.length ≤ 9216 ∧ fcsOk udpFrame = true ∧ etherSplit (udpFrame.take (udpFrame.length - 4)) = ([], 0x0800, udpBody.drop 14)
    ∧ netOf 0x0800 (udpBody.drop 14) = .udp [1, 1, 1, 1] 1 9 [7] false ∧ Headgates.bound wired.hgs (8 + 0) 0 = some 1 ∧ wired.clusterUp 1 = true ∧ 9216 < (List.replicate 9217 (0 : BitVec 8)).length
    ∧ (List.range 1).find? (fun i => match ([{ etherType := 0x0800, dstPort := 9, headgate := 1 }] : List EthMatch)[i]? with
        | some x => x.claims [] 0x0800 (slice udpFrame 6 6) (.udp [1, 1, 1, 1] 1 9 [7] false) | none => false) = some 0 := by
  refine ⟨by decide +kernel, by decide +kernel, by decide +kernel, by decide +kernel, by decide +kernel, by decide +kernel, ?_, by decide +kernel⟩
  rw [List.length_replicate]; omega
/-- Whatever the phase of the polls, 90 ms hold one. -/
theorem pollAfter_le (k : Fin 4) : ∃ n ≤ 8000000, (({ poll := true } : SpiCfg).pollAfter k 0) = BitVec.ofNat 64 n := by
  refine ⟨_, ?_, rfl⟩
  have h : Config.pollPhase k % 8000000 < 8000000 := Nat.mod_lt _ (by decide)
  have e : max 1 (({ poll := true } : SpiCfg).pollPeriod * ticksPerUs) = 8000000 := by decide
  have e' : ({ poll := true } : SpiCfg).pollPeriod * ticksPerUs = 8000000 := by decide
  have z : BitVec.toNat (0 : T64) = 0 := rfl
  have m : max 1 8000000 = 8000000 := rfl
  simp only [e', m, z]
  generalize Config.pollPhase k % 8000000 = n at h ⊢
  split
  · omega
  · have : n = 0 := by omega
    subst this; decide
theorem witness_SensorPortsHandItemsOn_poll : wired.ports.spi[(1 : Fin 4)].polled = 0 ∧ tReached wired.tb.now (({ poll := true } : SpiCfg).pollAfter 1 0) = true := by
  obtain ⟨n, h, e⟩ := pollAfter_le 1
  refine ⟨by decide +kernel, ?_⟩
  rw [e]; unfold tReached tDiff
  have a : wired.tb.now.toNat = 720000000 := by decide +kernel
  rw [decide_eq_true_eq, BitVec.toInt_eq_toNat_of_lt]
  · omega
  · rw [BitVec.toNat_sub, BitVec.toNat_ofNat, a]; omega
theorem witness_SensorPortsHandItemsOn : wired.portUp ⟨0, by omega⟩ = true ∧ wired.ports.csi[(0 : Fin 8)].cfg = some {} ∧ wired.clusterUp 0 = true ∧ wired.clusterUp 2 = true ∧ wired.clusterUp 4 = true
    ∧ (startPacket.head {}).2 = some ⟨0, 0, 7⟩ ∧ (badPacket.head {}).2 = none ∧ Headgates.bound wired.hgs 0 0 = some 0
    ∧ wired.portUp ⟨8, by omega⟩ = true ∧ wired.ports.eth[(0 : Fin 8)].cfg.isSome = true ∧ fcsOk [1, 2, 3, 4] = false ∧ wired.portUp ⟨14, by omega⟩ = true
    ∧ wired.portUp ⟨17, by omega⟩ = true ∧ wired.ports.spi[(0 : Fin 4)].cfg = some {} ∧ wired.ports.spi[(1 : Fin 4)].cfg = some { poll := true }
    ∧ wired.ports.spi[(0 : Fin 4)].initDue = false ∧ wired.ports.spi[(0 : Fin 4)].initFailed = false ∧ wired.ports.spi[(0 : Fin 4)].running = none
    ∧ wired.ports.spi[(0 : Fin 4)].waiting = none ∧ Headgates.bound wired.hgs 16 0 = some 2
    ∧ wired.portUp ⟨28, by omega⟩ = true ∧ wired.ports.can[(0 : Fin 4)].st ≠ .busOff ∧ Headgates.bound wired.hgs 28 0 = some 4
    ∧ (List.range 1).find? (fun i => match ([{ format := 0, id := 5, mask := 0x7FF, headgate := 4 }] : List CanFilter)[i]? with
        | some x => x.claims ⟨0, false, 5, false, 0, 0, [1]⟩ | none => false) = some 0 := by decide +kernel
/-- With a burst that runs, and with an INIT that is due. -/
def bursting : State := { wired with ports := { wired.ports with spi := ((wired.ports.spi.set 0 { cfg := some {}, running := some (us 89990) }).set 1 { cfg := some {}, initDue := true }).set 2 { cfg := some {}, waiting := some (us 89990), gapEnd := us 89999 } } }
theorem witness_SensorPortsHandItemsOn_spi : bursting.portUp ⟨16, by omega⟩ = true ∧ bursting.ports.spi[(0 : Fin 4)].running = some (us 89990)
    ∧ bursting.ports.spi[(0 : Fin 4)].cfg = some {} ∧ ({} : SpiCfg).poll = false
    ∧ bursting.ports.spi[(0 : Fin 4)].initDue = false ∧ bursting.ports.spi[(0 : Fin 4)].initFailed = false ∧ Headgates.bound wired.hgs (16 + 0) 0 = some 2
    ∧ bursting.ports.spi[(1 : Fin 4)].initDue = true ∧ bursting.ports.spi[(1 : Fin 4)].cfg.isSome = true ∧ bursting.ports.spi[(2 : Fin 4)].waiting.isSome = true
    ∧ tReached (us 89998) bursting.ports.spi[(2 : Fin 4)].gapEnd = false ∧ wired.ports.can[(0 : Fin 4)].cfg.isSome = true := by decide +kernel
def edgeOf (line : BitVec 2) (level : Bool) : EncEdge := { line := line, level := level, stamp := us 89000 }
def busIn (st : BusSt) (retries tries : Nat) : BusPort :=
  { cfg := some { i3c := true }, st := st, scripts := [⟨[.write 0x29 [1], .delay 10], [2]⟩], tries := tries, retries := retries, stuckAt := 0 }
def onBus (p : BusPort) : State := { wired with
  tb := { wired.tb with now := us 2000000 }, ports := { wired.ports with bus := wired.ports.bus.set 0 p, enc := wired.ports.enc.set 1 { cfg := some {}, pend := [edgeOf 2 true, edgeOf 0 false] } } }
theorem witness_EncodersAndConfigurationBuses : wired.portUp ⟨20, by omega⟩ = true ∧ wired.ports.enc[(0 : Fin 8)].cfg = some {} ∧ wired.ports.enc[(0 : Fin 8)].pend = []
    ∧ (onBus {}).portUp ⟨21, by omega⟩ = true ∧ (onBus {}).ports.enc[(1 : Fin 8)].pend = [edgeOf 2 true, edgeOf 0 false] ∧ (onBus {}).ports.enc[(1 : Fin 8)].cfg = some {}
    ∧ (onBus {}).ports.enc[(1 : Fin 8)].next.map (·.1) = some ⟨us 89000, 0, 2, true, false, false, false⟩ ∧ elapsed (onBus {}).tb.now (us 89000) (({} : EncCfg).minPulse * 8) = true
    ∧ [edgeOf 2 true, edgeOf 0 false] = [] ++ edgeOf 2 true :: [edgeOf 0 false] ∧ (∀ y ∈ [edgeOf 0 false], y.line ≠ 2)
    ∧ tDiff (us 89000 + 8) (edgeOf 2 true).stamp < ((({} : EncCfg).minPulse * 8 : Nat) : Int) ∧ (edgeOf 0 true).pairs (edgeOf 1 true) = true ∧ ({} : EncCfg).stepDir = false
    ∧ (onBus (busIn .idle 0 2)).ports.bus[(0 : Fin 2)].st = .idle ∧ (20000 : Nat) ≤ 20000 ∧ (19999 : Nat) < 20000
    ∧ (∀ i : Fin 16, (Vector.replicate 16 false)[i] = false) ∧ ((Vector.replicate 16 false).set 3 true)[(3 : Fin 16)] = true ∧ (∀ k : Fin 16, k < 3 → ((Vector.replicate 16 false).set 3 true)[k] = false)
    ∧ (onBus (busIn .idle 0 2)).portUp ⟨32, by omega⟩ = true ∧ (onBus (busIn .idle 0 2)).ports.bus[(0 : Fin 2)].current = some (⟨[.write 0x29 [1], .delay 10], [2]⟩, .write 0x29 [1])
    ∧ (onBus (busIn .idle 0 2)).ports.bus[(0 : Fin 2)].tries < 3 ∧ 3 ≤ (onBus (busIn .idle 0 3)).ports.bus[(0 : Fin 2)].tries
    ∧ (onBus (busIn .recovering 7 0)).ports.bus[(0 : Fin 2)].st = .recovering ∧ (onBus (busIn .recovering 7 0)).ports.bus[(0 : Fin 2)].retries < 8
    ∧ 8 ≤ (onBus (busIn .recovering 8 0)).ports.bus[(0 : Fin 2)].retries ∧ (onBus (busIn .stuck 7 0)).ports.bus[(0 : Fin 2)].st = .stuck
    ∧ elapsed (onBus (busIn .stuck 7 0)).tb.now (onBus (busIn .stuck 7 0)).ports.bus[(0 : Fin 2)].stuckAt 8000000000 = true := by decide +kernel

theorem witness_EncodersAndConfigurationBuses_early : elapsed ({ up.tb with now := us 89000 } : Timebase).now (us 89000) (({} : EncCfg).minPulse * 8) = false
    ∧ ({ busIn .idle 0 0 with step := 1, stepAt := us 1999995 } : BusPort).current = some (⟨[.write 0x29 [1], .delay 10], [2]⟩, .delay 10)
    ∧ elapsed (onBus {}).tb.now (us 1999995) (10 * 8000) = false ∧ elapsed (onBus {}).tb.now (us 1999990) (10 * 8000) = true
    ∧ elapsed (onBus (busIn .stuck 7 0)).tb.now (us 1500000) 8000000000 = false := by decide +kernel

/-- The Sluice with n events of one island, and one of another. -/
def fifo (n : Nat) : Sluice := { up.ev with intake := up.ev.intake.set 44 (List.replicate n (evt .poseInputBehind 44 0 0)), lost := up.ev.lost.set 44 3 }
theorem witness_RaisingQueuesOrCounts : (evt .poseInputBehind 44 0 0).island = (44 : Fin 144).val ∧ (fifo 15).intake[(44 : Fin 144)].length < 16
    ∧ 16 ≤ (fifo 16).intake[(44 : Fin 144)].length ∧ ∀ i : Fin 144, (fifo 16).intake[i].length ≤ 16 := by decide +kernel
def bufferFull : State := { up with ev := { up.ev with ssaBuf := List.replicate 256 ⟨0, 50, .weirConflict, .c0, 0, 0, 0⟩ } }
theorem witness_OneEventIsNumberedAtATime : up.enrolled = true ∧ (fifo 2).pick false = some 44 ∧ (fifo 2).pick true = some 44
    ∧ (fifo 2).intake[(44 : Fin 144)] = [evt .poseInputBehind 44 0 0, evt .poseInputBehind 44 0 0] ∧ (fifo 2).lastIsland < 144
    ∧ (∀ k : Fin 144, (fifo 2).intake[k] ≠ [] → k = 44) ∧ ({ fifo 2 with intake := (fifo 2).intake.set 50 [evt .weirConflict 50 0 0] } : Sluice).intake[(50 : Fin 144)] ≠ []
    ∧ up.stalled = false ∧ up.supervisorsTake = true
    ∧ up.safety.sup[(0 : Fin 2)].lost = false ∧ 256 ≤ (if (0 : Fin 2) = 0 then (bufferFull.ev.ssaBuf) else bufferFull.ev.ssbBuf).length ∧ (fifo 2).lost[(44 : Fin 144)] ≠ 0 ∧ (∀ k : Fin 144, up.ev.intake[k] = []) := by decide +kernel

/-- Headgate 5 with one item that its port has marked bad. -/
def failing : State := { up with hgs := up.hgs.set 5 { cfg := some imu, st := .active, conf := 255, failRun := 7, inbox := [.frame (us 89999) [] true] } }
/-- Headgate 6 with an edge code; R157's stamp window holds for it. -/
def edgeCfg : HgCfg := hgOf .edge 20 0
def coded : State := { up with hgs := up.hgs.set 6 { cfg := some edgeCfg, st := .active, inbox := [.edge ⟨us 89990, 7, 0, true, false, false, false⟩] } }
theorem witness_ItemsAreCheckedInOrder_edge : coded.stalled = false ∧ coded.hgs[(6 : Fin 64)].cfg = some edgeCfg ∧ coded.hgs[(6 : Fin 64)].inbox = .edge ⟨us 89990, 7, 0, true, false, false, false⟩ :: []
    ∧ coded.hgs[(6 : Fin 64)].st = .active ∧ edgeCfg.kind = .edge ∧ edgeCfg.ctrBits = 0 ∧ timeOk edgeCfg (us 89990) (us 89990 - BitVec.ofInt 64 edgeCfg.latency) = true := by decide +kernel
theorem witness_ItemsAreCheckedInOrder : failing.stalled = false ∧ failing.hgs[(5 : Fin 64)].cfg = some imu ∧ failing.hgs[(5 : Fin 64)].inbox = [.frame (us 89999) [] true]
    ∧ failing.hgs[(5 : Fin 64)].st ≠ .off ∧ (Item.frame (us 89999) [] true).crcBad = true ∧ min 255 (failing.hgs[(5 : Fin 64)].failRun.toNat + 1) = imu.failMask
    ∧ reasonCheck ∉ failing.hgs[(5 : Fin 64)].reasons := by decide +kernel
def streamAt (g : Headgate) : State := { up with tb := { up.tb with now := us 900000 }, hgs := up.hgs.set 5 g }
def lidar : HgCfg := { kind := .points, port := 16 }
def openUnit : Headgate := { cfg := some lidar, st := .active, lastStamp := some (us 80000), unitOpen := true }
theorem witness_StreamStatesFollowTheirTimers : (streamAt openUnit).hgs[(5 : Fin 64)].cfg = some lidar ∧ (streamAt openUnit).hgs[(5 : Fin 64)].lastStamp = some (us 80000)
    ∧ (streamAt openUnit).hgs[(5 : Fin 64)].st = .active ∧ lidar.kind ≠ .scalar ∧ lidar.kind ≠ .edge ∧ (streamAt openUnit).hgs[(5 : Fin 64)].unitOpen = true
    ∧ (streamAt openUnit).stalled = false ∧ (streamAt openUnit).comingTo 5 = [] ∧ (streamAt { cfg := some lidar, st := .waiting }).comingTo 5 = []
    ∧ (streamAt { cfg := some lidar, st := .waiting }).hgs[(5 : Fin 64)].held [] ((streamAt { cfg := some lidar, st := .waiting }).hgs[(5 : Fin 64)].installedAt + ms lidar.timeout) = false
    ∧ elapsed (streamAt openUnit).tb.now (us 80000) (lidar.pktGap * 8000) = true ∧ (streamAt openUnit).hgs[(5 : Fin 64)].held [] (us 80000 + us lidar.pktGap) = false
    ∧ lidar.timeout ≠ 0 ∧ elapsed (streamAt openUnit).tb.now (us 80000) (lidar.timeout * 8000000) = true ∧ (streamAt openUnit).hgs[(5 : Fin 64)].held [] (us 80000 + ms lidar.timeout) = false
    ∧ (streamAt { cfg := some lidar, st := .waiting }).hgs[(5 : Fin 64)].st = .waiting ∧ (streamAt { cfg := some lidar, st := .waiting }).hgs[(5 : Fin 64)].absent = false
    ∧ elapsed (streamAt { cfg := some lidar, st := .waiting }).tb.now (streamAt { cfg := some lidar, st := .waiting }).hgs[(5 : Fin 64)].installedAt (lidar.timeout * 8000000) = true
    ∧ (streamAt { cfg := some lidar, st := .masked, reasons := [reasonExternal] }).hgs[(5 : Fin 64)].st = .masked
    ∧ (∀ x ∈ (streamAt { cfg := some lidar, st := .masked, reasons := [reasonExternal] }).hgs[(5 : Fin 64)].reasons, x = reasonExternal)
    ∧ (∃ x ∈ (streamAt { cfg := some lidar, st := .masked, reasons := [reasonExternal, reasonCheck] }).hgs[(5 : Fin 64)].reasons, x ≠ reasonExternal) := by decide +kernel
def mark (item : BitVec 16) (last : Bool) : Rec := { hg := 5, tov := us 89000, itemNo := item, last := last, body := .frameMark 4 (us 80000) }
def reader (d : Option (BitVec 16)) : State := { up with
  hgs := up.hgs.set 5 { cfg := some imu, st := .active, flume := [mark 9 true], occ := 32, drop := d }
  pl := { up.pl with cfg := { imus := [⟨5, 0, 1, 2, 0, 0, 0, 1000⟩] } }
  pau := { up.pau with lostItem := [(5, 9)] } }
theorem witness_FlumesKeepOrderAndBound : (reader none).stalled = false ∧ (reader none).hgs[(5 : Fin 64)].drop = none ∧ (reader none).hasReader 5 = true ∧ (reader none).readerUp 5 = true ∧ (gated 44).readerUp 5 = false ∧ up.hasReader 5 = false ∧ (reader none).hgs[(5 : Fin 64)].flume = [mark 9 true]
    ∧ (reader (some 9)).hgs[(5 : Fin 64)].drop = some (mark 9 true).itemNo ∧ (reader none).hgs[(5 : Fin 64)].occ ≤ imu.flumeBytes
    ∧ (reader none).pau.rsOf 5 = none ∧ (reader none).pau.camOf 5 = none ∧ (reader none).hgs[(5 : Fin 64)].cfg = some imu
    ∧ (reader none).pau.lostItem.find? (fun y : Fin 64 × BitVec 16 => y.1 == 5) = some (5, 9) := by decide +kernel

/-! ### Pose Ladder and PAU -/

def poseAt (k : Nat) : PoseRec := { valid := true, mode := .full, tov := us k }
/-- A ladder whose newest rungs are those of 89,900 µs and the µs before it; rung 89,901 comes next. -/
def laddered : State := { inStage 3 with pl := { up.pl with installed := true, start := some 30000, nextK := some 89901, ladder := [poseAt 89900, poseAt 89899], mode := .full } }
def plMode (m : PlMode) (a : T64) : State := { laddered with pl := { laddered.pl with mode := m, coastAt := some a, imuOnlyAt := some a, nextK := some 89880 } }
def maskedEntries : State := { laddered with tb := { up.tb with now := us 1200000 }
                                             pl := { laddered.pl with encs := up.pl.encs.set 3 { maskedAt := some (us 100000) }, imus := up.pl.imus.set 2 { maskedAt := some (us 100000) } } }
theorem witness_RungsFollowEachOther : ({ laddered with pl := { laddered.pl with nextK := some 89880 } } : State).rungDue = some 89880
    ∧ ({ laddered with pl := { laddered.pl with dead := true } } : State).pl.dead = true
    ∧ (reader none).pl.inbox = [] ∧ ({ laddered with pl := { laddered.pl with inbox := [mark 9 true] } } : State).pl.inbox = mark 9 true :: []
    ∧ laddered.pl.head = some 89900 ∧ tLater (mark 9 true).tov (BitVec.ofNat 64 (89900 * 8000)) = false
    ∧ (plMode .coast 0).rungDue = some 89880 ∧ (plMode .coast 0).pl.inputs = [] ∧ (plMode .coast (us 100)).pl.coastAt = some (us 100) ∧ (plMode .coast 0).pl.mode = .coast
    ∧ elapsed (BitVec.ofNat 64 (1089880 * 8000)) (us 100) (laddered.pl.cfg.coastMax * 8000000) = true
    ∧ maskedEntries.pl.encs[(3 : Fin 8)].maskedAt = some (us 100000) ∧ elapsed maskedEntries.tb.now (us 100000) (maskedEntries.pl.cfg.maskHold * 8000000) = true
    ∧ maskedEntries.pl.imus[(2 : Fin 4)].maskedAt = some (us 100000) ∧ laddered.stalled = false ∧ maskedEntries.stalled = false ∧ (plMode .coast 0).stalled = false ∧ laddered.enrolled = true ∧ maskedEntries.pl.nextK = some 89901 ∧ maskedEntries.pl.lateK ≠ some 89901
    ∧ tReached maskedEntries.tb.now (BitVec.ofNat 64 ((89901 + maskedEntries.pl.cfg.lag + 10) * 8000)) = true := by decide +kernel
/-- Rung 1,100,000 is due, and the modes have lasted from 100 µs on. -/
def lasting (m : PlMode) : State := { plMode m (us 100) with tb := { up.tb with now := us 1100200 }, pl := { (plMode m (us 100)).pl with nextK := some 1100000 } }
theorem witness_RungsFollowEachOther_lost : (lasting .coast).rungDue = some 1100000 ∧ (lasting .coast).pl.mode = .coast ∧ (lasting .coast).pl.coastAt = some (us 100)
    ∧ elapsed (BitVec.ofNat 64 (1100000 * 8000)) (us 100) ((lasting .coast).pl.cfg.coastMax * 8000000) = true ∧ (lasting .slip).rungDue = some 1100000
    ∧ (lasting .slip).pl.mode = .slip ∧ (lasting .slip).pl.imuOnlyAt = some (us 100)
    ∧ (((lasting .slip).pl.cfg.imuOnlyMax * 8000000 : Nat) : Int) < (BitVec.ofNat 64 (1100000 * 8000) - us 100).toInt := by decide +kernel
/-- An input record of an IMU: newer than the head rung, or not. -/
def stateOf (t : Nat) : Rec := { hg := 5, tov := us t, body := .state .active .resync 0 }
def inputs (t : Nat) : State := { reader none with pl := { laddered.pl with cfg := (reader none).pl.cfg, inbox := [stateOf t] } }
theorem witness_RungsFollowEachOther_inputs : (inputs 1).stalled = false ∧ (inputs 1).pl.inbox = stateOf 1 :: [] ∧ (inputs 1).pl.head = some 89900
    ∧ (inputs 1).pl.inputOf (inputs 1).hgs[(5 : Fin 64)].cfg (stateOf 1) = some (.state true 0 .active) ∧ tLater (stateOf 1).tov (BitVec.ofNat 64 (89900 * 8000)) = false
    ∧ (inputs 89999).pl.inputOf (inputs 89999).hgs[(5 : Fin 64)].cfg (stateOf 89999) = some (.state true 0 .active) ∧ tLater (stateOf 89999).tov (BitVec.ofNat 64 (89900 * 8000)) = true := by decide +kernel
/-- An answer that comes so late that its target has left the ring; a query whose head is not there yet, and one whose head the first rung has yet to reach. -/
def aged : State := { laddered with tb := { up.tb with now := us 300000 } }
theorem witness_QueriesAndTheLiveRecord_late : aged.pl.head = some 89900 ∧ 30000 + aged.pl.cfg.lag ≤ (us 89999).toNat / 8000 ∧ (us 89999).toNat / 8000 ≤ 89900 + aged.pl.cfg.lag
    ∧ tReached aged.tb.now (us ((us 89899).toNat / 8000) + us (131072 + aged.pl.cfg.lag)) = true ∧ -960000000 ≤ (us 89899 - BitVec.ofNat 64 (((us 89999).toNat / 8000 - aged.pl.cfg.lag) * 8000)).toInt
    ∧ (us 89899 - BitVec.ofNat 64 (((us 89999).toNat / 8000 - aged.pl.cfg.lag) * 8000)).toInt ≤ 0
    ∧ ((aged.pl.cfg.extrapMax * 8000000 : Nat) : Int) < (us 150000 - BitVec.ofNat 64 (((us 89999).toNat / 8000 - aged.pl.cfg.lag) * 8000)).toInt
    ∧ (us 89899 - us 220001 : T64).toInt < -960000000 ∧ (BitVec.ofInt 64 (-1000000000) - BitVec.ofNat 64 (((us 89999).toNat / 8000 - aged.pl.cfg.lag) * 8000)).toInt < -960000000
    ∧ laddered.pose (us 90000) (us 100100) = none ∧ laddered.stalled = false ∧ ({ laddered with pl := { laddered.pl with dead := true } } : State).pl.dead = true
    ∧ laddered.pl.answer (us 89899) (us 100) laddered.tb.now = some (poseFail 0 (us 89899), 0, false) := by decide +kernel
theorem witness_QueriesAndTheLiveRecord_live : laddered.pl.start = some 30000 ∧ ({ laddered.pau with refs := [(4, none)] } : Pau).refFor 4 = some none
    ∧ ([((4 : BitVec 64), (none : Option PoseRec))]).length + (match laddered.tb.frame with | some _ => laddered.tb.past.length + 1 | none => 0) ≤ 16 := by decide +kernel
theorem witness_QueriesAndTheLiveRecord : laddered.pl.dead = false ∧ laddered.pose (us 89899) (us 89999) = some (poseAt 89899) ∧ laddered.pl.start = some 30000
    ∧ laddered.pl.cfg.lag ≤ (us 89999).toNat / 8000 ∧ laddered.pl.rungAt ((us 89999).toNat / 8000 - laddered.pl.cfg.lag) = some (poseAt 89899)
    ∧ (us 89899 - (poseAt 89899).tov).toInt ≤ 0 ∧ -960000000 ≤ (us 89899 - (poseAt 89899).tov).toInt ∧ 30000 ≤ (us 89899).toNat / 8000 ∧ (us 89899).toNat % 8000 = 0
    ∧ tReached laddered.tb.now (us ((us 89899).toNat / 8000) + us (131072 + laddered.pl.cfg.lag)) = false ∧ laddered.pl.rungAt ((us 89899).toNat / 8000) = some (poseAt 89899)
    ∧ ((laddered.pl.cfg.extrapMax * 8000000 : Nat) : Int) < (us 110000 - (poseAt 89899).tov).toInt ∧ (0 : Int) < (us 110000 - (poseAt 89899).tov).toInt
    ∧ tReached laddered.tb.now (us ((us 110000).toNat / 8000) + us (131072 + laddered.pl.cfg.lag)) = false
    ∧ (us 90000 - us 220001).toInt < -960000000 := by decide +kernel

def pointRec (t : Nat) : Rec := { hg := 1, tov := us t, body := .point 0 0 655360 0 0 0 0 0 }
def rsCfg : RsCfg := { geo := { hg := 1, rotBound := 1 }, asof := 100 }
/-- One point in pipe 0, of frame 4, with its reference pose decided or not. -/
def piped (t : Nat) (waited : Bool) (refs : List (BitVec 64 × Option PoseRec)) : State := { laddered with
  pau := { up.pau with rs := up.pau.rs.set 0 (some rsCfg), pipes := up.pau.pipes.set 0 [⟨pointRec t, 0, waited⟩], refs := refs } }
def isCore : Compensated → Bool | .core _ _ => true | _ => false
def isDiscard : Compensated → Option Bool | .discard b _ => some b | _ => none
def isWait : Compensated → Bool | .wait => true | _ => false
theorem isCore_spec (x : Compensated) : isCore x = true → ∃ q n, x = .core q n := by cases x <;> simp [isCore]
theorem isDiscard_spec (x : Compensated) (b : Bool) : isDiscard x = some b → ∃ n, x = .discard b n := by cases x <;> simp [isDiscard]
theorem isWait_spec (x : Compensated) : isWait x = true → x = .wait := by cases x <;> simp [isWait]
def compensated (s : State) (t : Nat) (w : Bool) : Compensated := s.pau.compensate rsCfg ⟨pointRec t, 0, w⟩ (s.tb.frameAt (us t)) false s.pose
theorem witness_PointsAreCompensatedOnce : (piped 89899 false []).pau.pipes[(0 : Fin 4)] = [⟨pointRec 89899, 0, false⟩] ∧ (piped 89899 false []).pau.rs[(0 : Fin 8)] = some rsCfg
    ∧ compensated (piped 89899 false []) 89899 false = .wait ∧ compensated (piped 89899 true []) 89899 true = .wait
    ∧ (∃ n, compensated (piped 10 false []) 10 false = .discard false n) ∧ (∃ n, compensated (piped 89899 false [(4, none)]) 89899 false = .discard false n)
    ∧ (∃ q n, compensated (piped 89899 false [(4, some (poseAt 80000))]) 89899 false = .core q n) ∧ (inStage 1).bcc.stage.toNat < 2
    ∧ (piped 89899 false []).stalled = false ∧ (piped 89899 true []).pau.pipes[(0 : Fin 4)] = [⟨pointRec 89899, 0, true⟩] :=
  ⟨by decide +kernel, by decide +kernel, isWait_spec _ (by decide +kernel), isWait_spec _ (by decide +kernel), isDiscard_spec _ _ (by decide +kernel),
    isDiscard_spec _ _ (by decide +kernel), isCore_spec _ (by decide +kernel), by decide +kernel, by decide +kernel, by decide +kernel⟩
/-- From S2 the core of an open frame goes last among the points, while there is room. -/
def pipedS2 : State := piped 89899 false [(4, some (poseAt 80000))]
theorem witness_PointsAreCompensatedOnce_decorated : 2 ≤ pipedS2.bcc.stage.toNat ∧ pipedS2.pau.isClosed 4 = false ∧ pipedS2.pau.pendingCount < pipedS2.pau.cfg.pending
    ∧ (match compensated pipedS2 89899 false with | .core q _ => q.frame == 4 | _ => false) = true := by decide +kernel
/-- The same with a ladder that is lost. -/
def pipedLost : State := { piped 89899 false [] with pl := { laddered.pl with ladder := [{ poseAt 89900 with valid := false, mode := .lost }, { poseAt 89899 with valid := false, mode := .lost }] } }
theorem witness_PointsAreCompensatedOnce_lost : ∃ n, compensated pipedLost 89899 false = .discard true n := isDiscard_spec _ _ (by decide +kernel)
def solved (st : SolveStatus) : State := { laddered with
  tb := { up.tb with frame := some ⟨6, us 80000, us 100000, false⟩ }
  pau := { up.pau with work := some { frame := 4, params := [], qp := ⟨0, [], [], [], []⟩, solved := some { status := st }, bounds := [] } } }
def misaligned (masks : Nat) : State := { laddered with
  tb := { up.tb with now := us 90000000 }
  pau := { up.pau with entries := up.pau.entries.set 3 { st := .misaligned, masks := masks, maskedAt := some 0 } } }
theorem witness_ClosePassAndAlignment : laddered.stalled = false ∧ 3 ≤ (solved .converged).bcc.stage.toNat ∧ ({ laddered with pau := { up.pau with closing := [4] } } : State).pau.closing = 4 :: [] ∧ (inStage 1).bcc.stage.toNat < 2
    ∧ 2 ≤ laddered.bcc.stage.toNat ∧ (solved .converged).pau.work.isSome = true ∧ ((4 : BitVec 64) + 2).toNat ≤ (solved .converged).tb.no.toNat
    ∧ (solved .converged).tb.frame = some ⟨6, us 80000, us 100000, false⟩ ∧ ({ status := .converged } : SolveResult).eligible = true ∧ ({ status := .notRun } : SolveResult).eligible = false
    ∧ (misaligned 0).pau.entries[(3 : Fin 24)].st = .misaligned ∧ (misaligned 0).pau.entries[(3 : Fin 24)].maskedAt = some 0
    ∧ elapsed (misaligned 0).tb.now 0 ((misaligned 0).pau.cfg.misHold * 8000000000) = true ∧ (misaligned 0).pau.entries[(3 : Fin 24)].masks < (misaligned 0).pau.cfg.misLimit
    ∧ (misaligned 3).pau.cfg.misLimit ≤ (misaligned 3).pau.entries[(3 : Fin 24)].masks := by decide +kernel
/-- A frame signalled as closed, with nothing left to decide; and with a point whose camera row's rung is not written yet. -/
def coreOf : Core := ⟨4, 0, 1, 0, false, false, false, 0, us 90000, us 90000, 0, 0, 0, 0, 0, 0, 0, 0, 0, 0, 0, 0, 0, 0⟩
def closing (pts : List Point) : State := { laddered with pau := { up.pau with closing := [4], points := pts, refs := [(4, some (poseAt 80000))], cfg := { up.pau.cfg with cams := up.pau.cfg.cams.set 0 (some { geo := { hg := 0 }, fx := 0, fy := 0, cx := 0, cy := 0 }) }, images := [{ cam := 0, frame := some 4, rows := [(0, us 89990, 0, [])] }] } }
theorem witness_ClosePassAndAlignment_pass : 2 ≤ (closing []).bcc.stage.toNat ∧ (closing []).pau.closing = 4 :: []
    ∧ ((closing []).pau.closePass 4 (closing []).rowsOf (closing []).pl.cfg.lag (closing []).checkedPose).isSome = true := by decide +kernel
theorem witness_ClosePassAndAlignment_waits : (closing [⟨coreOf, [(0, .waiting)]⟩]).pau.closePass 4 (closing []).rowsOf (closing []).pl.cfg.lag (closing [⟨coreOf, [(0, .waiting)]⟩]).checkedPose = none := by
  rw [← Option.isNone_iff_eq_none]; decide +kernel

/-! ### The units that run launches, and the Tensor Engines -/

def taskEntry (target : BitVec 8) : SchedEntry := { target := target, start := 9999, maxRt := 2000, deadline := 15000, minRt := 10 }
/-- In S3: the unit of a task target runs launch 0 of schedule entry 0 of frame 4. -/
def runs (target : BitVec 8) (unit : Fin 6) (o : Launched) : State := { laddered with
  seq := { up.seq with table := [taskEntry target], busy := up.seq.busy.set unit (some (4, 0, 0)), launches := [⟨4, 0, 0, o, us 89999, false, decide (o = .runLong), none⟩] }
  pau := { up.pau with handed := up.pau.handed.set 0 (some ⟨4, []⟩), refs := [(4, some (poseAt 80000))] }
  pcu := { sections := [⟨0, {}, Vector.replicate 2 []⟩] } }
/-- Step 1 clears cells of the last frame of its parity; the first word of BEV_IDX is poisoned. -/
def bevSec : PcuSection := ⟨0, { bev := { enable := true } }, Vector.replicate 2 [0]⟩
def poisonedIn : State := { runs 0x10 0 .running with pcu := { sections := [bevSec] }, mem := { up.mem with cisternBad := [(bevSec.cfg.bevIdx.at_ 4).addr / 8], dramBad := [(bevSec.cfg.bevIdx.at_ 4).addr / 8] } }
theorem witness_PointCloudAndTrackerTasks_poisoned : poisonedIn.pcu.readsPoison 4 poisonedIn.mem = true ∧ poisonedIn.pcu.sectionFor 4 = some bevSec
    ∧ (runs 0x10 0 .running).pcu.readsPoison 4 (runs 0x10 0 .running).mem = false ∧ (7 : Fin 9).val < 8
    ∧ (∀ l, (runs 0x10 0 .running).seq.find 4 0 0 = some l → l.aborted = false) := ⟨by decide +kernel, by decide +kernel, by decide +kernel, by decide, fun l h => by
      have e : (runs 0x10 0 .running).seq.find 4 0 0 = some ⟨4, 0, 0, .running, us 89999, false, false, none⟩ := by decide +kernel
      rw [e] at h; cases h; rfl⟩
theorem witness_PointCloudAndTrackerTasks : (runs 0x10 0 .running).stalled = false ∧ (runs 0x11 1 .running).stalled = false ∧ (runs 0x10 0 .running).mem.dramBad = [] ∧ (runs 0x10 0 .running).seq.busy[(0 : Fin 6)] = some (4, 0, 0) ∧ (runs 0x10 0 .running).tb.frameNo 4 = some ⟨4, us 80000, us 100000, false⟩
    ∧ ((4 : BitVec 64), 0, 0) ∉ (runs 0x10 0 .running).seq.finished ∧ (runs 0x10 0 .running).pau.handed[(0 : Fin 2)] = some ⟨4, []⟩
    ∧ (runs 0x10 0 .running).seq.find 4 0 0 = some ⟨4, 0, 0, .running, us 89999, false, false, none⟩ ∧ (runs 0x10 0 .running).mem.wf = true ∧ (runs 0x10 0 .running).mem.cisternBad = []
    ∧ (runs 0x10 0 .running).pcu.sectionFor 4 = some ⟨0, {}, Vector.replicate 2 []⟩ ∧ (runs 0x10 0 .runLong).seq.find 4 0 0 = some ⟨4, 0, 0, .runLong, us 89999, false, true, none⟩
    ∧ (runs 0x11 1 .running).seq.busy[(1 : Fin 6)] = some (4, 0, 0) ∧ (runs 0x11 1 .running).pau.refFor 4 = some (some (poseAt 80000)) := by decide +kernel
def work : AlignWork := { frame := 3, params := [], qp := ⟨0, [], [], [], []⟩, bounds := [] }
theorem witness_BatchesGiveOneCommand : (runs 0x12 2 .running).seq.busy[(2 : Fin 6)] = some (4, 0, 0) ∧ ((runs 0x12 2 .running).seq.tableOf 4)[0]? = some (taskEntry 0x12) ∧ (runs 0x12 2 .running).stalled = false
    ∧ 3 ≤ (runs 0x15 5 .running).bcc.stage.toNat ∧ ({ runs 0x15 5 .running with bcc := { up.bcc with stage := 2 } } : State).bcc.stage.toNat < 3
    ∧ (runs 0x12 2 .running).c3 = false ∧ ((runs 0x12 2 .running).pose ((taskEntry 0x12).startAt (us 80000) 0 + us 1000) ((taskEntry 0x12).startAt (us 80000) 0)).isSome = true
    ∧ (runs 0x12 2 .running).feedOf ((taskEntry 0x12).startAt (us 80000) 0) = .absent none ∧ (runs 0x15 5 .running).seq.busy[(5 : Fin 6)] = some (4, 0, 0)
    ∧ ({ runs 0x15 5 .running with pau := { up.pau with work := some work } } : State).pau.work = some work ∧ work.frame + 1 = 4 ∧ work.solved = none
    ∧ (runs 0x15 5 .running).pau.work = none := by decide +kernel

/-- A command with no operand written. -/
def cmdWord (opcode : Nat) : Nat := opcode + (2 ^ 128 - 2 ^ 32)
/-- A list of one command at offset 4096 with a completion record at 8192, whose descriptor 0 names LOCAL. -/
def listMem (cmd : Nat) : Memory :=
  (({} : Memory).write .cistern 4096 (leBytes 16 (1 + 2 ^ 16 + 2 ^ 28 + 0xFFFFFFFF * 2 ^ 64 + 8192 * 2 ^ 96))).write .cistern 4160 (leBytes 96 (1 + 2 ^ 11 + cmd * 2 ^ 512))
def listRun (ran : Nat) : ListRun := { queue := 1, launch := ⟨3, 0, 4, 4096⟩, addr := 4096, ran := ran, startAt := us 80000, cmdAt := us 80000 }
/-- Engine 0 in the list of that command, its chain with another list to come. -/
def listing (cmd ran : Nat) : State := { laddered with
  mem := listMem cmd
  tes := { up.tes with te := up.tes.te.set 0 { run := some (listRun ran), chain := (Vector.replicate 4 none).set 1 (some ⟨⟨3, 0, 4, 4096⟩, 12288, false⟩) } } }
def frontOp (s : State) : Option Nat := (s.tes.front 0 s.mem s.kv).map fun x => x.2.2.1.opcode
theorem witness_TensorCommandsRunInListOrder : (listing 0 0).stalled = false ∧ (∀ o ∈ [0x00, 0x01, 0x02, 0x10, 0x11, 0x12, 0x20, 0x21, 0x30, 0x31, 0x32, 0x33, 0x34, 0x35, 0x40, 0x41, 0x42, 0x43],
      frontOp (listing (cmdWord o) 0) = some o)
    ∧ (listing (0x10 + (2 ^ 128 - 2 ^ 44)) 0).tes.readsLocal 0 (listing (0x10 + (2 ^ 128 - 2 ^ 44)) 0).mem up.kv 0x10 = true
    ∧ (∀ i : Fin 64, (listing 0 0).tes.slots[i] = none) := by decide +kernel
/-- Engine 0 with no list, queue 1 with an entry and with a chain that goes on. -/
def idleTe (k : Option Chain) : State := { laddered with tes := { up.tes with te := up.tes.te.set 0 {
  flume := (Vector.replicate 4 []).set 1 [⟨3, 0, 4, 4096⟩], chain := (Vector.replicate 4 none).set 1 k } } }
theorem witness_ListsStartAndEnd : (idleTe none).stalled = false ∧ (listing 0 1).stalled = false ∧ (idleTe none).tes.te[(0 : Fin 4)].flume[(1 : Fin 4)] ≠ []
    ∧ (listRun 1).status = .complete ∧ 1 ≤ (listRun 1).ran ∧ (idleTe none).tes.te[(0 : Fin 4)].run = none ∧ (∀ p : Fin 4, p < 1 → (idleTe none).tes.te[(0 : Fin 4)].chain[p] = none ∧ (idleTe none).tes.te[(0 : Fin 4)].flume[p] = [])
    ∧ (idleTe none).tes.te[(0 : Fin 4)].chain[(1 : Fin 4)] = none ∧ (idleTe none).tes.te[(0 : Fin 4)].flume[(1 : Fin 4)] = ⟨3, 0, 4, 4096⟩ :: []
    ∧ (idleTe (some ⟨⟨3, 0, 4, 4096⟩, 12288, false⟩)).tes.te[(0 : Fin 4)].chain[(1 : Fin 4)] = some ⟨⟨3, 0, 4, 4096⟩, 12288, false⟩
    ∧ (listing 0 1).tes.te[(0 : Fin 4)].run = some (listRun 1) ∧ (ListHeader.ofBytes ((listing 0 1).mem.read .cistern 4096 64)).cmdCount = 1
    ∧ (ListHeader.ofBytes ((listing 0 1).mem.read .cistern 4096 64)).completion = 8192 ∧ (listing 0 1).mem.wf = true ∧ (listing 0 1).mem.cisternBad = [] := by decide +kernel
/-- WAIT on the word at 0 with TAG 0 and PREV p. -/
def waitWord (p : Nat) : Nat := 0x51 + p * 2 ^ 72
def syncing (frame : Word) (cmd : Nat) : State := { listing cmd 0 with
  tes := { up.tes with te := up.tes.te.set 0 { run := some { listRun 0 with launch := ⟨3, 0, frame, 4096⟩ } } } }
def syncingNow (frame : Word) (cmd : Nat) : State := { listing cmd 0 with
  tes := { up.tes with te := up.tes.te.set 0 { run := some { listRun 0 with launch := ⟨3, 0, frame, 4096⟩, cmdAt := us 90000 } } } }
theorem witness_SyncWordsAndGoldenChecks_match : (syncingNow 1 (waitWord 1)).stalled = false ∧ frontOp (syncingNow 1 (waitWord 1)) = some 0x51
    ∧ (syncingNow 1 (waitWord 1)).mem.readNat .cistern 0 4 = (((1 : Word) - BitVec.ofNat 32 1).toNat * 256 + 0) % 4294967296
    ∧ (syncingNow 1 (waitWord 1)).tes.te[(0 : Fin 4)].run = some { listRun 0 with launch := ⟨3, 0, 1, 4096⟩, cmdAt := us 90000 }
    ∧ elapsed (syncingNow 1 (waitWord 1)).tb.now (us 90000) (0 * 8000 + 1) = false := by decide +kernel
theorem witness_SyncWordsAndGoldenChecks_poisoned : ({ syncingNow 1 (waitWord 1) with mem := { (syncingNow 1 (waitWord 1)).mem with cisternBad := [0] } } : State).mem.poisoned .cistern 0 4 = true
    ∧ (syncingNow 1 (waitWord 1)).mem.poisoned .cistern 0 4 = false := by decide +kernel
theorem witness_ListsStartAndEnd_ended : (∀ k, ({ (idleTe none).tes.te[(0 : Fin 4)] with chain := (Vector.replicate 4 none).set 2 (some ⟨⟨3, 0, 4, 4096⟩, 12288, true⟩) } : Te).chain[(2 : Fin 4)] = some k → k.ending = true)
    ∧ (idleTe none).tes.te[(0 : Fin 4)].flume[(2 : Fin 4)] = [] :=
  ⟨fun k h => by
      have e : ((Vector.replicate 4 none).set 2 (some (⟨⟨3, 0, 4, 4096⟩, 12288, true⟩ : Chain)) : Vector (Option Chain) 4)[(2 : Fin 4)] = some ⟨⟨3, 0, 4, 4096⟩, 12288, true⟩ := by decide +kernel
      rw [e] at h; cases h; rfl, by decide +kernel⟩
theorem witness_SyncWordsAndGoldenChecks : (∀ o ∈ [0x50, 0x51, 0x60, 0x61], frontOp (listing (cmdWord o) 0) = some o) ∧ (listing (cmdWord 0x50) 0).mem.wf = true
    ∧ frontOp (syncing 1 (waitWord 1)) = some 0x51 ∧ frontOp (syncing 1 (waitWord 0)) = some 0x51
    ∧ (syncing 1 (waitWord 1)).mem.readNat .cistern 0 4 = (((1 : Word) - BitVec.ofNat 32 1).toNat * 256 + 0) % 4294967296
    ∧ (syncing 1 (waitWord 0)).mem.readNat .cistern 0 4 ≠ (((1 : Word) - BitVec.ofNat 32 0).toNat * 256 + 0) % 4294967296
    ∧ elapsed (syncing 1 (waitWord 0)).tb.now (us 80000) 0 = true
    ∧ fieldNat ((Command.ofBytes (leBytes 32 (0x60 + 2 ^ 128))).param 0) 0 1 = 1 ∧ fieldNat ((Command.ofBytes (leBytes 32 0x60)).param 0) 0 1 = 0
    ∧ (∀ x : Tens, x.poisoned ({} : Memory) = false)
    ∧ (listRun 0).golden = (ListHeader.ofBytes ((listing 0 0).mem.read .cistern 4096 64)).expectDigest
    ∧ (listRun 0).flags = (ListHeader.ofBytes ((listing 0 0).mem.read .cistern 4096 64)).expectFlags :=
  ⟨by decide +kernel, by decide +kernel, by decide +kernel, by decide +kernel, by decide +kernel, by decide +kernel, by decide +kernel, by decide +kernel, by decide +kernel,
    fun x => by cases h : x.space <;> simp [Tens.poisoned, Memory.bad, h], by decide +kernel, by decide +kernel⟩

/-! ### Channel B, Weir and Guard Engine -/

def coreAt (z : Word) : Core := { frame := 4, sensor := 0, hg := 1, sector := 0, extrap := false, depth := false, probation := false, conf := 255, tov := us 89899, at_ := us 89899
                                  x := 0, y := 0, z := z, range := 655360, intensity := 0, sflags := 0, channel := 0, line := 0, along := 0, dx := 0, dy := 0, dpsi := 0, v := 0, omega := 0 }
def sweepRec : Rec := { hg := 1, tov := us 89899, body := .sweepEnd 0 false 0 }
def stateRec : Rec := { hg := 1, tov := us 89899, body := .state .active .waiting 0 }
/-- Channel B and the Guard Engine at work, the grid centred on cell c. -/
def guarding (c : Int) (i : List CbIn) : State := { laddered with
  cb := { up.cb with installed := true, input := i, grid := { cells := [(7, ⟨100, 100⟩)], ci := c } }
  pau := { up.pau with refs := [(4, some (poseAt 80000))] } }
theorem hitAt_origin (k : Core) (ref : PoseRec) (hx : k.x = 0) (hy : k.y = 0) (h0 : ref.x = 0) (h1 : ref.y = 0) : hitAt k ref = (0, 0, 0) := by
  have z : ∀ t, qTrig 0 t = 0 := fun t => by rw [qTrig, Int.zero_mul]; decide
  have e : (fxCarry 0 0 ref.heading 0 0).run 0 = ((0, 0), 0) := by simp only [fxCarry, z]; rfl
  have hh : hitAt k ref = (((fxCarry 0 0 ref.heading 0 0).run 0).1.1, ((fxCarry 0 0 ref.heading 0 0).run 0).1.2, ((fxCarry 0 0 ref.heading 0 0).run 0).2) := by
    unfold hitAt; rw [hx, hy, h0, h1]; rfl
  rw [hh, e]
theorem witness_GridKeepsHitsAndSeenTimes : (guarding 0 [.hit (coreAt 65536)]).cb.input = .hit (coreAt 65536) :: [] ∧ (guarding 0 []).cb.installed = true
    ∧ (guarding 0 []).cb.cfg.isHit (coreAt 65536) = true ∧ (guarding 0 []).pau.refFor 4 = some (some (poseAt 80000))
    ∧ hitAt (coreAt 65536) (poseAt 80000) = (0, 0, 0) ∧ (guarding 0 []).cb.grid.inWindow up.cb.cfg (up.cb.cfg.index 0) (up.cb.cfg.index 0) = true
    ∧ (guarding 1000 []).cb.grid.inWindow up.cb.cfg (up.cb.cfg.index 0) (up.cb.cfg.index 0) = false
    ∧ (guarding 0 [.mark stateRec 0]).cb.input = .mark stateRec 0 :: [] ∧ stateRec.body = .state .active .waiting 0 ∧ sweepRec.body = .sweepEnd 0 false 0
    ∧ (guarding 0 []).cb.streams[(0 : Fin 8)] ≠ .active ∧ (guarding 0 []).enrolled = true ∧ 0 < (guarding 0 []).cb.cfg.size
    ∧ ((guarding 0 []).pl.checked ((guarding 0 []).pl.liveAt (BitVec.ofNat 64 ((guarding 0 []).tb.now.toNat / 8000000 * 8000000))).1).valid = true
    ∧ ((guarding 0 []).cb.grid.cells.map (·.1)).Pairwise (· < ·) ∧ 131072000000 ≤ ageTicks (us 17000000) (gridGet (guarding 0 []).cb.grid.cells 7).seen
    ∧ (3 : Nat) < (guarding 0 []).cb.cfg.size :=
  ⟨rfl, rfl, by decide +kernel, by decide +kernel, hitAt_origin _ _ rfl rfl rfl rfl, by decide +kernel, by decide +kernel, rfl, rfl, rfl, by decide +kernel, by decide +kernel,
    by decide +kernel, by decide +kernel, by decide +kernel, by decide +kernel, by decide +kernel⟩
/-- An ACTIVE stream whose sweep covers sector 7, its points written at t. -/
def sweeping (t : Nat) : State := { guarding 0 [.mark { sweepRec with tov := us t, body := .sweepEnd (1 <<< 7) false 0 } 0] with
  cb := { (guarding 0 [.mark { sweepRec with tov := us t, body := .sweepEnd (1 <<< 7) false 0 } 0]).cb with streams := up.cb.streams.set 0 .active, sweep := up.cb.sweep.set 0 [⟨7, none, us t⟩] }
  pau := { up.pau with rs := up.pau.rs.set 0 (some rsCfg) } }
theorem witness_GridKeepsHitsAndSeenTimes_sweep : (sweeping 1).stalled = false ∧ (sweeping 1).cb.streams[(0 : Fin 8)] = .active ∧ (sweeping 1).cb.installed = true
    ∧ (sweeping 1).pau.rs[(0 : Fin 8)] = some rsCfg ∧ (sweeping 1).isDepth rsCfg.geo.hg = false ∧ (sweeping 200000).cb.coveredSectors 0 (1 <<< 7) (us 200000) = [⟨7, none, us 200000⟩]
    ∧ (sweeping 200000).sectorPose ⟨7, none, us 200000⟩ = none ∧ (sweeping 89899).cb.coveredSectors 0 (1 <<< 7) (us 89899) = [⟨7, none, us 89899⟩]
    ∧ (sweeping 89899).sectorPose ⟨7, none, us 89899⟩ ≠ none := by decide +kernel
def building (t : T64) : State := { guarding 0 [] with cb := { (guarding 0 []).cb with building := some { t := t } } }
def holding (run : BitVec 8) : State := { guarding 0 [] with weir := { up.weir with verdict := some .conflict, hold := true, clearRun := run, conflictRun := 2 } }
theorem witness_TablesAndVerdicts : (guarding 0 []).stalled = false ∧ (guarding 0 []).cb.building = none ∧ (guarding 0 []).cb.table.kbins = 0 ∧ (building 0).cb.building = some { t := 0 }
    ∧ (0 : T64) ≠ BitVec.ofNat 64 ((building 0).tb.now.toNat / 8000 / (building 0).cb.cfg.tablePeriod * (building 0).cb.cfg.tablePeriod * 8000)
    ∧ (building 0).cb.lateAt ≠ some 0 ∧ tLater (building 0).tb.now (0 + us 150) = true ∧ (building 0).cb.skipAt ≠ some (us 90000)
    ∧ (runs 0x13 3 .running).seq.busy[(3 : Fin 6)] = some (4, 0, 0) ∧ (runs 0x13 3 .running).seq.find 4 0 0 = some ⟨4, 0, 0, .running, us 89999, false, false, none⟩
    ∧ (holding 3).weir.hold = true ∧ (holding 3).guard.cfg.clearFrames ≤ min 255 ((holding 3).weir.clearRun.toNat + 1) ∧ (holding 3).weir.verdict = some .conflict
    ∧ (guarding 0 []).weir.verdict ≠ some .conflict := by decide +kernel
/-- 700 ns after the instant of word 90,000. -/
def sending (w : Option GuardWord) : State := { guarding 0 [] with tb := { up.tb with now := us 90000 + 5600 }, guard := { up.guard with word := w } }
theorem witness_GuardWordsPermitNoMoreThanTheCaps : (guarding 0 []).stalled = false ∧ ((guarding 0 []).atLatch (guarding 0 []).latestG).c3 = false
    ∧ (({ guarding 0 [] with safety := { up.safety with latchA := true } } : State).atLatch (us 90000)).c3 = true
    ∧ (({ guarding 0 [] with safety := { up.safety with latchC2 := true } } : State).atLatch (us 90000)).safety.latchC2 = true ∧ (guarding 0 []).guardRuns = true ∧ (guarding 0 []).guard.latched ≠ some (guarding 0 []).latestG ∧ (guarding 0 []).c3 = false
    ∧ ({ guarding 0 [] with bcc := { up.bcc with stage := 1 } } : State).guardRuns = true ∧ ({ guarding 0 [] with bcc := { up.bcc with stage := 2 } } : State).guardRuns = true
    ∧ (guarding 0 []).pl.live.valid = false ∧ (guarding 0 []).cb.table.valid = false
    ∧ ({ guarding 0 [] with guard := { up.guard with latched := some (us 90000) } } : State).guard.latched = some (us 90000) ∧ (guarding 0 []).latestG = us 90000
    ∧ (sending none).guardRuns = true ∧ tReached (sending none).tb.now ((sending none).latestG + 5600) = true ∧ (sending none).isl.cfg.replay = false
    ∧ (sending (some { valid := true, k := 90000 })).guard.word = some { valid := true, k := 90000 } ∧ (sending none).guard.sent[0] = none
    ∧ tReached (sending none).tb.now (BitVec.ofNat 64 ((90000 : BitVec 64).toNat * 8000) + 5600) = true := by decide +kernel

/-! ### Safety, twin operation, outputs, memory and observation -/

/-- A C2 and a C3 line asserted, or only the C2 line. -/
def lined (c2 c3 : Bool) : State := { laddered with ev := { up.ev with lineC2 := up.ev.lineC2.set 50 c2, lineC3 := up.ev.lineC3.set 51 c3 } }
def degraded (clear : Nat) : State := { laddered with safety := { up.safety with
  st := .degraded, latchC2 := true, clear := clear, cfg := { c2Rearm := true } } }
def safe : State := { laddered with safety := { up.safety with
  st := .safe, latchA := true, latchB := true, sup := up.safety.sup.set 1 { lost := true } } }
theorem witness_SafetyLatchesClearOnlyByReset : (∃ t, exec .resetNShortPulse safe = .next t) ∧ safe.safety.latchA = true ∧ safe.safety.latchB = true ∧ safe.safety.st = .safe
    ∧ safe.safety.sup[(1 : Fin 2)].lost = true ∧ (degraded 0).safety.latchC2 = true ∧ safe.pending = [] := ⟨⟨safe, rfl⟩, rfl, rfl, rfl, by decide, rfl, rfl⟩
theorem witness_CollectionEntersTheSafetyStates : (lined true true).stalled = false ∧ safe.stalled = false ∧ safe.safety.okStuck[(0 : Fin 2)] = false ∧ (0 : Fin 2).val = false.toNat ∧ (1 : Fin 2).val = true.toNat ∧ (lined true true).c3LinesB = false ∧ safe.c3LinesB = false ∧ laddered.c3LinesB = false ∧
    ({ laddered with ev := { up.ev with lineC3B := up.ev.lineC3B.set 51 true } } : State).c3LinesB = true ∧ (runs 0x10 0 .running).seq.busy[(0 : Fin 6)] = some (4, 0, 0) ∧ (4, 0, 0) ∉ (runs 0x10 0 .running).seq.finished ∧ laddered.safety.st ≠ .safe ∧ safe.tb.running = true
    ∧ safe.safety.latchA = true ∧ safe.safety.latchB = true ∧ (degraded 50).stalled = false ∧ (lined true true).c2Lines = true ∧ (lined true true).tb.running = true ∧ (lined true true).c3Lines = true ∧ (lined true true).safety.st ≠ .safe
    ∧ (lined true true).bcc.result = .reading ∧ (lined true false).c3Lines = false ∧ (lined true false).c2Lines = true ∧ (lined true false).safety.st = .normal
    ∧ (lined true false).safety.releaseDue = false ∧ safe.safety.st = .safe ∧ safe.c3Lines = false ∧ laddered.c2Lines = false ∧ laddered.c3Lines = false
    ∧ (degraded 50).safety.st = .degraded ∧ (degraded 50).safety.cfg.c2Rearm = true ∧ (degraded 50).safety.releases.toNat < (degraded 50).safety.cfg.c2RearmMax
    ∧ (degraded 50).safety.cfg.c2Clear ≤ (degraded 50).safety.clear ∧ (degraded 50).ev.c2InFrame = false ∧ (degraded 49).safety.clear < (degraded 49).safety.cfg.c2Clear
    ∧ laddered.safety.okStuck[(1 : Fin 2)] = false := by decide +kernel
def supervised (p : SupPair) (b : BitVec 48 × Word) : State := { laddered with safety := { up.safety with
  pair := p, sup := #v[{ beat := some b, kickAt := us 80000, beatAt := us 80000 }, {}], differ := #v[0, 1] } }
theorem witness_SupervisorsAndSelfTests : laddered.stalled = false ∧ (supervised .both (0, 7)).enrolled = true ∧ (supervised .both (0, 7)).safety.sup[(1 : Fin 2)].lost = false
    ∧ elapsed (supervised .both (0, 7)).tb.now (supervised .both (0, 7)).safety.sup[(0 : Fin 2)].beatAt 80000 = true ∧ elapsed (us 80009) (supervised .both (0, 7)).safety.sup[(0 : Fin 2)].beatAt 80000 = false
    ∧ (supervised .both (0, 7)).safety.pair = .both ∧ 2 ≤ (supervised .both (0, 7)).safety.differRun 1 (supervised .both (0, 7)).ev.current 8
    ∧ (supervised .both (0, 7)).safety.differRun 1 0 7 < 2 ∧ (supervised .both (0, 7)).safety.sup[(0 : Fin 2)].beat = some (0, 7) ∧ (0 : Fin 2) ≠ 1
    ∧ (supervised .checking (0, 7)).safety.pair = .checking ∧ elapsed (supervised .both (0, 7)).tb.now (supervised .both (0, 7)).safety.sup[(0 : Fin 2)].beatAt 240000 = true
    ∧ elapsed (supervised .both (0, 7)).tb.now (supervised .both (0, 7)).safety.sup[(0 : Fin 2)].kickAt 400000 = true ∧ safe.safety.sup[(1 : Fin 2)].lost = true
    ∧ elapsed ({ laddered with tb := { up.tb with now := us 40 } } : State).tb.now laddered.safety.sup[(0 : Fin 2)].kickAt 400000 = false
    ∧ laddered.tb.frame = some ⟨4, us 80000, us 100000, false⟩ ∧ laddered.safety.supsLost = false ∧ laddered.safety.sliceFrame ≠ some 4
    ∧ tReached laddered.tb.now (us 80000 + us laddered.safety.cfg.stOffset) = true := by decide +kernel
theorem witness_SupervisorsAndSelfTests_slice : ∃ g c isl, sliceOf ((4 : BitVec 64).toNat % 2048) = (g, c) ∧ isl = checkerIsland g c ∧ laddered.isl.powered[isl] = true
    ∧ ({ laddered with isl := { laddered.isl with powered := Vector.replicate 144 false } } : State).isl.powered[isl] = false := by
  refine ⟨(sliceOf ((4 : BitVec 64).toNat % 2048)).1, (sliceOf ((4 : BitVec 64).toNat % 2048)).2, _, rfl, rfl, ?_⟩
  simp [laddered, inStage, up]

def linked (p : PairSt) (now : T64) : State := { laddered with
  tb := { up.tb with now := now }
  qnt := { up.qnt with
    installed := true, linkUp := true, helloSeen := true, pair := p, session := some 3, peerSession := some 5, lastCell := us 90000, aliveIn := some (us 90000)
    partial_ := [⟨3, 9, 2, 1, [1]⟩], peerK := some 100 } }
def bareCell (type session : Nat) : Cell := { bytes := cellBytes type session 0 0 1 [], hello := some ⟨false, 1, 1, 1, []⟩, status := some ⟨.primary, 0, 0, 3, []⟩ }
theorem witness_QanatCellsAndMessages : laddered.twinLive = true ∧ laddered.qnt.linkUp = false ∧ laddered.qnt.session = none ∧ (linked .joining (us 90000)).qnt.session = some 3
    ∧ (linked .joining (us 90000)).qnt.linkUp = true ∧ (linked .joining (us 90000)).twinLive = true ∧ (bareCell 4 5).bytes.length = 64
    ∧ leNat ((bareCell 4 5).bytes.drop 60) = crc32c ((bareCell 4 5).bytes.take 60) ∧ fieldOf (bareCell 4 5).bytes 4 4 = 4 ∧ fieldOf (bareCell 4 5).bytes 36 4 = 0
    ∧ fieldOf (bareCell 4 5).bytes 8 8 = 5 ∧ (linked .joining (us 90000)).qnt.helloSeen = true ∧ laddered.qnt.helloSeen = false ∧ laddered.qnt.peerSession = none ∧ fieldOf (bareCell 1 5).bytes 8 8 ≠ 0 ∧ fieldOf (bareCell 1 0).bytes 8 8 = 0 ∧ fieldOf (bareCell 4 6).bytes 8 8 = 6 ∧ (linked .joining (us 90000)).qnt.peerSession = some 5 ∧ fieldOf (bareCell 1 6).bytes 4 4 = 1
    ∧ 6 ≤ fieldOf (bareCell 6 5).bytes 4 4 ∧ leNat ((List.replicate 64 (1 : BitVec 8)).drop 60) ≠ crc32c ((List.replicate 64 (1 : BitVec 8)).take 60)
    ∧ (linked .joining (us 90000)).qnt.partial_.find? (fun (x : Partial) => x.type == 3) = some ⟨3, 9, 2, 1, [1]⟩ ∧ (∀ x ∈ (linked .joining (us 90000)).qnt.partial_, x.type ≠ 2) ∧ (linked .joining (us 90000)).qnt.helloAt = none ∧ (linked .joining (us 90000)).qnt.statusAt = none
    ∧ ({ linked .joining (us 90000) with guard := { up.guard with word := some { k := 90000 } } } : State).guard.word = some { k := 90000 }
    ∧ (linked .joining (us 90000)).qnt.guardSent ≠ some 90000 := by decide +kernel
/-- A link whose latest message has one cell, on the line at 90 ms; the cell after it is an IDLE cell. -/
def sent : Qanat := { (linked .joining (us 90000)).qnt with sent := some (.idle, [[1]]), sentAt := us 90000 }
theorem witness_QanatCellsAndMessages_line : sent.linkUp = true ∧ sent.sent = some (.idle, [[1]]) ∧ 0 ≤ tDiff (us 90000) sent.sentAt ∧ ([[1]] : List Bytes)[0]? = some [1]
    ∧ 0 = (tDiff (us 90000) sent.sentAt).toNat / 65 ∧ ([[1]] : List Bytes).length ≤ (tDiff (us 90000 + 65) sent.sentAt).toNat / 65 := by decide +kernel
/-- Before the peer's HELLO of a new link-up: a cell of the session before, and a STATUS. -/
def relinked : State := { linked .seeking (us 90000) with qnt := { (linked .seeking (us 90000)).qnt with helloSeen := false } }
theorem witness_QanatCellsAndMessages_relinked : relinked.twinLive = true ∧ relinked.qnt.linkUp = true ∧ relinked.qnt.helloSeen = false ∧ (bareCell 1 5).hello.isSome = true
    ∧ relinked.qnt.peerSession.map (·.toNat) = some (fieldOf (bareCell 1 5).bytes 8 8) ∧ fieldOf (bareCell 4 5).bytes 4 4 < 6 ∧ fieldOf (bareCell 4 5).bytes 4 4 ≠ 1 := by decide +kernel
def pulsing (run : Option (Role × Nat)) : State := { linked .solo (us 90000) with qnt := { (linked .solo (us 90000)).qnt with
  run := run, lastValid := us 10000, bothSince := some (us 80000), syncAt := some (us 80000), syncOut := true } }
theorem witness_TwinLinesAndRole : laddered.stalled = false ∧ laddered.tb.frame = some ⟨4, us 80000, us 100000, false⟩ ∧ laddered.enrolled = true ∧ laddered.replaying = false ∧ laddered.qnt.aliveAt ≠ some (us (laddered.tb.now.toNat / 8000))
    ∧ laddered.qnt.syncAt ≠ some (us 80000) ∧ (pulsing none).qnt.syncAt = some (us 80000) ∧ (pulsing none).qnt.syncOut = true ∧ elapsed (pulsing none).tb.now (us 80000) 8000 = true
    ∧ upReplay.replaying = true ∧ witnessCode (tDiff (us 100) (us 0)) = some .primary ∧ witnessCode (tDiff (us 89) (us 0)) = none
    ∧ (pulsing (some (.primary, 2))).qnt.run = some (.primary, 2) ∧ (pulsing (some (.secondary, 2))).qnt.run = some (.secondary, 2) ∧ Role.primary ≠ (pulsing none).qnt.role
    ∧ (pulsing none).qnt.installed = true ∧ (pulsing none).qnt.witnessLost = false ∧ elapsed (pulsing none).tb.now (pulsing none).qnt.lastValid ((pulsing none).qnt.cfg.witnessTimeout * 8000000) = true
    ∧ (pulsing none).qnt.bothSince = some (us 80000) ∧ (pulsing none).qnt.conflict = false ∧ elapsed (pulsing none).tb.now (us 80000) 8000000 = true
    ∧ (pulsing none).twinLive = true ∧ (pulsing none).qnt.linkUp = true ∧ laddered.qnt.linkUp = false
    ∧ ({ laddered with tb := { up.tb with frame := none } } : State).twinLive = true ∧ ({ up.tb with frame := none } : Timebase).frame = none := by decide +kernel
def held (peers : List XHeld) (now : T64) : State := { linked .crossChecked now with qnt := { (linked .crossChecked now).qnt with
  own := [⟨{ bn := us 80000 }, us 80000, false, true⟩], peer := peers } }
theorem witness_PairStatesAndCrossCheck : (linked .crossChecked (us 90008)).qnt.pair.linked = true
    ∧ elapsed (linked .crossChecked (us 90008)).tb.now (linked .crossChecked (us 90008)).qnt.lastCell ((linked .crossChecked (us 90008)).qnt.cfg.linkTimeout * 8000) = true
    ∧ elapsed (linked .crossChecked (us 90008)).tb.now (linked .crossChecked (us 90008)).qnt.linkAt ((linked .crossChecked (us 90008)).qnt.cfg.linkTimeout * 8000) = true
    ∧ elapsed (us 90008) (us 90004) ((linked .crossChecked (us 90008)).qnt.cfg.linkTimeout * 8000) = false
    ∧ (linked .crossChecked (us 90008)).qnt.aliveSeen (us 90003) = true ∧ (linked .lostAlive (us 90008)).qnt.aliveSeen (linked .lostAlive (us 90008)).tb.now = false
    ∧ (linked .peerSafe (us 90008)).qnt.pair = .peerSafe
    ∧ ({ linked .crossChecked (us 90000) with out := { up.out with published := some 4 } } : State).tb.frameNo 4 = some ⟨4, us 80000, us 100000, false⟩
    ∧ (linked .crossChecked (us 90000)).qnt.cfg.twin = true ∧ (linked .crossChecked (us 90000)).qnt.own = []
    ∧ (held [⟨{ bn := us 80000 }, us 80100, false, true⟩] (us 90000)).xPair ⟨{ bn := us 80000 }, us 80000, false, true⟩ = some ⟨{ bn := us 80000 }, us 80100, false, true⟩
    ∧ (held [] (us 900000)).xPair ⟨{ bn := us 80000 }, us 80000, false, true⟩ = none
    ∧ tLater (held [] (us 900000)).tb.now (us 80000 + tick ((held [] (us 900000)).qnt.cfg.xcWait * (held [] (us 900000)).tb.cfg.period)) = true := by decide +kernel

/-- Frame 4 due for publication without assembly, a guard word, and one fragment in queue 5 of P6. -/
def message : OutMsg := { stream := 0, valid := true, stage := 3, cls := 0, pair := 0, role := 0, twinId := false, assembled := false, seq := 0, frame := 3, bn := us 60000, aoc := 0, tov := us 60000
                          too := us 60000, map := [], digest := [], body := [1] }
def fragment : Fragment := { msg := message, frag := 0, frags := 1, size := 200 }
def sendingOut : State := { laddered with
  tb := { laddered.tb with now := us 95000, frame := some ⟨4, us 70000, us 100000, false⟩ }
  bcc := { laddered.bcc with s1At := some (us 30000) }
  cb := { up.cb with installed := true }
  guard := { up.guard with word := some { k := 95000 } }
  ports := { up.ports with eth := up.ports.eth.set 6 { link := true, speed := 10000 } }
  out := { up.out with installed := true, published := some 3, cfg := { stream := up.out.cfg.stream.set 5 {} }
                       port := up.out.port.set 0 { queues := (Vector.replicate 8 []).set 5 [fragment] } } }
theorem witness_MessagesArePublishedAndLeave : sendingOut.stalled = false ∧ sendingOut.enrolled = true ∧ sendingOut.bcc.stage ≠ 0 ∧ sendingOut.nextPublished = some ⟨4, us 70000, us 100000, false⟩
    ∧ sendingOut.publishes ⟨4, us 70000, us 100000, false⟩ = some false ∧ sendingOut.out.cfg.stream[0].en = true ∧ up.nextPublished = none := by decide +kernel
theorem witness_MessagesArePublishedAndLeave_fragments : sendingOut.out.port[(0 : Fin 2)].queues[(5 : Fin 8)] = fragment :: [] ∧ sendingOut.vehicleLink 0 = true ∧ sendingOut.vehicleLink 1 = false ∧ sendingOut.replaying = false
    ∧ tReached sendingOut.tb.now sendingOut.out.port[(0 : Fin 2)].busyUntil = true ∧ sendingOut.canStart 0 5 = true ∧ sendingOut.controlHead 0 5 = none ∧ (∀ k : Fin 8, 5 < k → sendingOut.canStart 0 k = false)
    ∧ elapsed sendingOut.tb.now fragment.msg.too (sendingOut.txMaxAge fragment.msg.stream) = true ∧ sendingOut.out.cfg.qBytes[(5 : Fin 8)] < queueBytes [fragment] + queueBytes (List.replicate 700 fragment)
    ∧ sendingOut.portUp ⟨14, by omega⟩ = true ∧ sendingOut.guard.word = some { k := 95000 } ∧ sendingOut.guardRuns = true ∧ (95000 : BitVec 64).toNat % sendingOut.out.cfg.guardDiv = 0
    ∧ sendingOut.out.last[5] = none := by decide +kernel
/-- The same under C3, and with no gate of the port that opens for queue 5. -/
def sendingC3 : State := { sendingOut with safety := { up.safety with latchA := true } }
theorem witness_MessagesArePublishedAndLeave_c3 : sendingC3.c3 = true ∧ sendingC3.out.port[(0 : Fin 2)].queues[(5 : Fin 8)] = fragment :: [] ∧ sendingC3.vehicleLink 0 = true
    ∧ sendingC3.canStart 0 5 = true ∧ (∀ k : Fin 8, 5 < k → sendingC3.canStart 0 k = false) ∧ (sendingC3.out.port[(1 : Fin 2)].queues[(5 : Fin 8)] = [])
    ∧ elapsed ({ sendingC3 with tb := { sendingC3.tb with now := us 60000 } } : State).tb.now fragment.msg.too (sendingC3.txMaxAge fragment.msg.stream) = false := by decide +kernel
/-- With the output assembly of frame 4 complete. -/
def assembled : State := { sendingOut with seq := { (runs 0x14 4 .complete).seq with launches := [⟨4, 0, 0, .complete, us 80000, false, false, some (us 94000)⟩] } }
def pReq : PtpReq := { peer := true, seqId := 3, rx := us 94000 }
/-- An answer to a Pdelay_Req waits in PTP_QUEUE. -/
def asked : State := { sendingOut with out := { sendingOut.out with port := sendingOut.out.port.set 0 { sendingOut.out.port[0] with control := [.pdelayResp pReq] } } }
theorem witness_MessagesArePublishedAndLeave_control : asked.out.port[(0 : Fin 2)].control = .pdelayResp pReq :: [] ∧ asked.canStart 0 asked.out.cfg.ptpQueue = true
    ∧ (∀ k : Fin 8, asked.out.cfg.ptpQueue < k → asked.canStart 0 k = false) ∧ asked.vehicleLink 0 = true ∧ asked.replaying = false
    ∧ tReached asked.tb.now asked.out.port[(0 : Fin 2)].busyUntil = true ∧ (5 : Fin 8) ≠ asked.out.cfg.ptpQueue := by decide +kernel
theorem witness_MessagesArePublishedAndLeave_assembled : assembled.nextPublished = some ⟨4, us 70000, us 100000, false⟩ ∧ assembled.publishes ⟨4, us 70000, us 100000, false⟩ = some true
    ∧ assembled.bcc.stage ≠ 1 ∧ assembled.out.cfg.stream[2].en = true := by decide +kernel
def canBus (st : CanSt) (sm0 : Option (Sm0State × T64)) : State := { laddered with
  ports := { up.ports with can := up.ports.can.set 2 { cfg := some { active := true }, st := st } }
  guard := { up.guard with word := some { k := 90000 } }
  out := { up.out with sm0 := sm0, chan := up.out.chan.set 0 { buf := #v[some (List.replicate 32 0, us 70000), none] } } }
/-- A change of the role is seen, or kept, MIN_GAP after the SM0 before or sooner. -/
def changed (at_ : T64) : State := { canBus .active (some ((canBus .active none).sm0Now, at_)) with
  out := { (canBus .active (some ((canBus .active none).sm0Now, at_))).out with sm0Seen := { (canBus .active none).sm0Now with role := 2 } } }
theorem witness_CanSafetyMessages_change : (changed (us 80000)).out.sm0Seen ≠ (changed (us 80000)).sm0Now ∧ elapsed (changed (us 80000)).tb.now (us 80000) ((changed (us 80000)).out.can.minGap * 8000000) = true
    ∧ elapsed (changed (us 89999)).tb.now (us 89999) ((changed (us 89999)).out.can.minGap * 8000000) = false ∧ (changed 0).sm0Now = (canBus .active none).sm0Now
    ∧ ({ (changed 0).out with sm0Seen := (changed 0).sm0Now } : Outputs).sm0Due = none ∧ elapsed (us 900000) (us 80000) ((changed 0).out.can.statePeriod * 8000000) = true
    ∧ (canBus .active none).out.chan[(0 : Fin 2)].freshDue = false ∧ ({ freshDue := true } : CanOut).freshDue = true := by decide +kernel
theorem witness_CanSafetyMessages : (canBus .active none).stalled = false ∧ elapsed ({ canBus .active none with tb := { up.tb with now := us 70000 } } : State).tb.now (us 70000)
      ((canBus .active none).out.can.maxAge * 8000000) = false ∧ (canBus .active none).canSafeOn = true ∧ (canBus .active none).out.sm0 = none
    ∧ (canBus .active (some ((canBus .active none).sm0Now, us 80000))).out.sm0 = some ((canBus .active (some ((canBus .active none).sm0Now, us 80000))).sm0Now, us 80000)
    ∧ elapsed (canBus .active none).tb.now (us 80000) ((canBus .active none).out.can.statePeriod * 8000000) = false
    ∧ ({ safety := 1 } : Sm0State).safety ≠ (canBus .active none).sm0Now.safety ∧ (canBus .active none).guard.word ≠ none
    ∧ (canBus .active none).out.sm1 ≠ some ((canBus .active none).tb.now.toNat / (max 1 (canBus .active none).out.can.guardPeriod * 8000000))
    ∧ (canBus .active none).out.chan[(0 : Fin 2)].buf[(0 : Fin 2)] = some (List.replicate 32 0, us 70000)
    ∧ elapsed (canBus .active none).tb.now (us 70000) ((canBus .active none).out.can.maxAge * 8000000) = true ∧ (canBus .active none).ports.can[(2 : Fin 4)].st ≠ .busOff
    ∧ (canBus .busOff none).ports.can[(2 : Fin 4)].st = .busOff ∧ (canBus .active none).ports.can[(2 : Fin 4)].cfg = some { active := true }
    ∧ (canBus .active none).portUp ⟨30, by omega⟩ = true := by decide +kernel

def readReq : CisternReq := ⟨4, 64, 8, none⟩
def writeReq : CisternReq := ⟨0, 64, 0, some [7, 8]⟩
def stored : State := { inStage 1 with
  tb := { up.tb with now := us 60000000 }
  mem := { up.mem with cfg := { regions := [⟨.general, 0, 4096⟩, ⟨.capture, 4096, 4096⟩] }, regions := [(0, 64)] } }
def trained : State := { stored with mem := { stored.mem with trained := true } }
theorem witness_MemoriesServeScrubAndTrain : stored.stalled = false ∧ trained.stalled = false ∧ (readReq ∈ [readReq, writeReq]) ∧ readReq.port ≠ obsPort ∧ (∀ y ∈ ([] : List CisternReq), y.port = obsPort) ∧ (∃ r ∈ [(⟨0, 134217728, 8, none⟩ : CisternReq)], 134217728 ≤ r.addr) ∧ (∀ x ∈ [readReq, writeReq], x.addr < 134217728)
    ∧ stored.isl.enrolled[80 + (0 : Fin 64).val / 2]! = true ∧ stored.mem.arbitrate 0 (competing stored.replaying ([readReq, writeReq].filter fun x => x.fits 0)) = some writeReq
    ∧ stored.mem.arbitrate 0 (competing stored.replaying ([readReq].filter fun x => x.fits 0)) = some readReq ∧ stored.mem.wf = true ∧ stored.mem.cisternBad = [] ∧ 64 / 64 * 64 + 8 * (0 : Fin 8).val < 64 + 8
    ∧ elapsed stored.tb.now stored.mem.scrubAt[(0 : Fin 64)] 32768 = true ∧ stored.mem.inRegion 8 = true ∧ stored.mem.inRegion 2097152 = false ∧ stored.bcc.stage = 1
    ∧ stored.isl.enrolled[139]! = true ∧ stored.mem.trained = false ∧ stored.mem.trainFails < 3 ∧ trained.mem.trained = true
    ∧ elapsed trained.tb.now trained.mem.dramScrubAt trained.mem.cfg.scrubStep = true ∧ trained.mem.cfg.kindAt 8 = some .general ∧ trained.mem.cfg.kindAt 4104 = some .capture
    ∧ trained.mem.cfg.kindAt 8192 = none ∧ (∀ i ∈ stored.bcc.installed, (slotPlace i.entry.dest).space ≠ .dram) := by decide +kernel
def observed (f : Option T64) (n : Nat) : State := { laddered with
  tb := { up.tb with now := us 200000 }
  grt := { up.grt with samples := [⟨7, 0, 5⟩], freeze := f, cfg := up.grt.cfg.set 0 { en := true, source := 7, lo := 1, maxSamples := n } }
  obp := { up.obp with latches := [⟨0x60040, List.replicate 96 0⟩], msixPending := true } }
theorem witness_GrottoRecords : (observed none 9).stalled = false ∧ (observed none 9).grt.samples = ⟨7, 0, 5⟩ :: [] ∧ (observed none 9).grt.cfg[(0 : Fin 64)].takes ⟨7, 0, 5⟩ = true ∧ (observed none 9).grt.cfg[(1 : Fin 64)].takes ⟨7, 0, 5⟩ = false
    ∧ (observed (some (us 80000)) 9).grt.freeze ≠ none ∧ (observed none 0).grt.cfg[(0 : Fin 64)].maxSamples ≤ (observed none 0).grt.mon[(0 : Fin 64)].samples.toNat
    ∧ (observed none 9).grt.mon[(0 : Fin 64)].samples.toNat < (observed none 9).grt.cfg[(0 : Fin 64)].maxSamples ∧ (5 : Int) < (observed none 9).grt.mon[(0 : Fin 64)].min.toInt
    ∧ laddered.grt.samples = []
    ∧ elapsed (observed none 9).tb.now (us 80000) 800000000 = true ∧ elapsed (observed none 9).tb.now (us 199000) 800000000 = false := by decide +kernel
theorem witness_SamplesFallInTheBinOfTheRule : (5 : Int) < ({ lo := 6 } : MonCfg).lo ∧ ({ lo := 1, width := 2 } : MonCfg).log2 = false ∧ 0 < ({ lo := 1, width := 2 } : MonCfg).width
    ∧ ({ lo := 1, log2 := true } : MonCfg).log2 = true ∧ (0 : Int) < ({ lo := 1, log2 := true } : MonCfg).lo ∧ (1 : Int) * 2 ^ (3 - 1) ≤ 5 ∧ ∀ j : Nat, 3 < j → (5 : Int) < 1 * 2 ^ (j - 1) := by
  refine ⟨by decide, by decide, by decide, by decide, by decide, by decide, fun j h => ?_⟩
  have : (2 : Nat) ^ 3 ≤ 2 ^ (j - 1) := Nat.pow_le_pow_right (by decide) (by omega)
  have k : ((2 : Nat) ^ (j - 1) : Int) = (2 : Int) ^ (j - 1) := by push_cast; rfl
  omega
/-- A value on a step of the linear scale, a value inside a step of the logarithmic one, and one beyond its last bin. -/
theorem test_bins : (({ lo := 1, width := 2 } : MonCfg).bin 5).val = 3 ∧ (({ lo := 1, log2 := true } : MonCfg).bin 5).val = 3 ∧ (({ lo := 1, width := 2 } : MonCfg).bin 1000).val = 63 := by decide
/-- The live pose record, a record register at 0x60040. -/
theorem witness_ObserverReadsAndWrites : ((laddered.spans 6 0x40).find? fun x => decide (x.off ≤ 0x40) && decide (0x40 < x.off + x.bytes.length)) = some ⟨0x40, List.replicate 64 0, true⟩
    ∧ ((laddered.spans 6 0x44).find? fun x => decide (x.off ≤ 0x44) && decide (0x44 < x.off + x.bytes.length)) = some ⟨0x40, List.replicate 64 0, true⟩
    ∧ (((observed none 9).obp.latches.find? fun l => l.addr == 0x60044 - (0x44 - 0x40)).map (·.addr)) = some 0x60040 ∧ (observed none 9).obp.msixPending = true
    ∧ 0x10 + 2 ≤ 0x200000 ∧ observerWord 0x10 = false ∧ ({ up.ev with irqSeq := some 4 } : Sluice).irqSeq = some 4 ∧ up.ev.irqSeq = none ∧ laddered.replaying = false := by decide +kernel

/-! ### The whole device -/

theorem witness_CommandsChangeOnlyTheirParts : exec .resetNShortPulse up = .next up ∧ State.reset.canonical ∧ step ({ up with pending := [.resetNShortPulse] } : State) = .next up :=
  ⟨rfl, by refine ⟨by decide, by decide, by decide, by decide⟩, rfl⟩
theorem witness_EnginesStayInTheirBounds : (∀ t q : Fin 4, (up.tes.te[t].flume[q]).length ≤ 16) ∧ (∀ i : Fin 64, up.tes.slots[i] = none) := by decide +kernel
theorem witness_MemoryStaysCanonical : State.reset.canonical ∧ exec .resetNShortPulse State.reset = .next State.reset :=
  ⟨by refine ⟨by decide, by decide, by decide, by decide⟩, rfl⟩
theorem witness_CommandsLeaveTheQueue : exec .resetNShortPulse up = .next up ∧ (∀ b r e w, Instr.resetNShortPulse ≠ .cisternAccess b r e w) ∧ (∀ x ∈ [readReq], x.addr < 134217728) :=
  ⟨rfl, by intro b r e w h; (cases h), by decide⟩
theorem witness_DeviceTimeNeverSteps : Instr.resetNShortPulse ≠ .resetAssert ∧ (∀ x, Instr.resetNShortPulse ≠ .resetRelease x) ∧ (∀ n, Instr.resetNShortPulse ≠ .timeBusIncrement n) ∧ (∀ b, Instr.resetNShortPulse ≠ .sectionRead b) ∧ exec .resetNShortPulse up = .next up :=
  ⟨by decide, by intro x h; (cases h), by intro n h; (cases h), by intro b h; (cases h), rfl⟩
theorem witness_TimesCompareBySignedDifference : (0 : Nat) < 5 ∧ 5 < 2 ^ 31 ∧ 5 < 2 ^ 63 ∧ -(2 ^ 31 : Int) ≤ -5 := by decide
theorem witness_StepRunsTheFrontCommand : up.pending = [] ∧ ({ up with pending := [.resetNShortPulse] } : State).pending = .resetNShortPulse :: [] := ⟨rfl, rfl⟩

/-! ### The spec's worked examples, and values of its tables -/

/-- Spec 22, the example of BCC_STATUS: 490 ms after release, slot B with SVN 7 loaded over a rollback counter of 6. -/
def loadedB (stage : BitVec 2) (done committed : Bool) (rollback : Nat) : State := { State.reset with bcc := { State.reset.bcc with
  stage := stage, slot := some 1, slots := #v[{}, slotOk 7], result := if done then .complete else .reading, svnCommitted := committed, otp := { rollback := rollback } } }
def statusOf (s : State) : Option Nat := (s.bccSpans.head?).map fun x => leNat x.bytes
theorem test_bcc_status_loading : statusOf (loadedB 2 false false 6) = some 0x0386000A := by decide +kernel
theorem test_bcc_status_loaded : statusOf (loadedB 2 true false 6) = some 0x0386100E := by decide +kernel
theorem test_bcc_status_s3 : statusOf (loadedB 3 true true 7) = some 0x0387900F := by decide +kernel

/-- Spec 02, the example of a stretched frame: the offset 1,750,000,123.456789250 s, and a frame that opens at 1.520 s. -/
def anchored : Timebase := { map := { sec := 1750000123, ns := 456789250, sub := 0 } }
theorem test_stretch : anchored.stretchAt (us 1520000) = 25686000 := by decide +kernel
theorem test_mapped_boundary : anchored.map.mapped (us 1540000 + tick 25686000) = 1750000125 * 8000000000 := by decide +kernel

/-- Spec 05, the example of a parser template: block 5 and channel 17 of a 1,080-byte payload; channel 18 has range 0. -/
def lidarTemplate : Template := {
  payloadLen := 1080, blockCount := 8, blockOffset0 := 24, blockStride := 132, channels := 32, channelOffset0 := 4, channelStride := 4
  blockDt := 400000, channelDt := 12000, pktLatency := 3680000, elev := List.replicate 17 0 ++ [273]
  extractors := [{ dest := 1, type := 1, expect := 0xA55A }, { dest := 2, type := 1, offset := 2 }, { dest := 5, type := 1, scope := 1, scale := 0x3C23D70A },
    { dest := 6, type := 1, scope := 2, scale := 0x3B83126F }, { dest := 7, type := 0, scope := 2, offset := 2 }, { dest := 9, type := 0, scope := 2, offset := 3 }] }
def lidarPayload : Bytes :=
  leBytes 2 0xA55A ++ List.replicate 682 0 ++ leBytes 2 18000 ++ List.replicate 70 0 ++ leBytes 2 625 ++ [200, 1] ++ List.replicate 320 0
theorem test_parser_example : lidarPayload.length = 1080 ∧ lidarTemplate.blockPoints (hgOf .points 8 0) lidarPayload (0x00000003B9ACA000 - 3680000) 5
    = [.point 0x00000003B9961A60 (.point 0x8000 0x0111 0x00028000 200 17 0 1 180) 0] := by decide +kernel

/-- Spec 09, the example: that point with the mounting of the scrubber, 15.85 mm after the reference pose. -/
def scrubberLidar : RsCfg := { geo := { hg := 1, rotBound := 1, ext := { x := 26214, z := 22938 } } }
def straight : Pau := { rs := (Vector.replicate 8 none).set 0 (some scrubberLidar), refs := [(99, some { valid := true, mode := .full })] }
def compensatedPoint : Option (Word × Word × Word) :=
  match straight.compensate scrubberLidar ⟨{ hg := 1, tov := 0x00000003B9961A60, body := .point 0x8000 0x0111 0x00028000 200 17 0 1 180 }, 0, false⟩
      (some ⟨99, us 1980000, us 2000000, false⟩) false (fun _ _ => some { valid := true, mode := .full, x := BitVec.ofNat 64 68085540 }) with
  | .core q _ => some (q.x, q.y, q.z)
  | _ => none
theorem test_compensation_example : compensatedPoint = some (0xFFFDEAAD, 0, 0x00006A5A) := by decide +kernel

/-- Spec 07, the example: an MX block of 10.0, 7.0, −2.75 and 0.3, and 460.0, 464.0 and 500.0 to E4M3 under SAT and NAN. -/
theorem test_mx_block : (toMxBlock {} [0x41200000, 0x40E00000, 0xC0300000, 0x3E99999A, 0]).go = ((0x80, [6, 6, 0xB, 0, 0]), flagUF ||| flagNX) := by decide +kernel
theorem test_e4m3_saturates : [0x43E60000, 0x43E80000, 0x43FA0000].map (fun (w : Word) => (fromF32 {} 9 w).go)
    = [(0x7E, flagNX), (0x7E, flagNX), (0x7E, flagOF ||| flagNX ||| flagST)] := by decide +kernel
theorem test_e4m3_nan : (fromF32 (.ofNat 2) 9 (0x43FA0000 : Word)).go = (0x7F, flagOF ||| flagNX) := by decide +kernel

/-- Spec 12, the example: the 32 bytes of a MATMUL with GELU, and dimension 1 of A bound to a count word of 600 (TENSOR_CLAMP carries 600). -/
def matmulBytes : Bytes := leBytes 4 0x00000110 ++ leBytes 12 0xFFFFFF003002FFFFFF001000 ++ leBytes 4 4 ++ List.replicate 12 0
theorem test_matmul_command : (Command.ofBytes matmulBytes).opcode = 0x10 ∧ (Command.ofBytes matmulBytes).op = [0, 1, 0xFFF, 0xFFF, 2, 3, 0xFFF, 0xFFF]
    ∧ (Command.ofBytes matmulBytes).p = [4, 0, 0, 0] := by decide +kernel
def descA : Desc := { format := 11, rank := 2, space := 0, bindDim := 1, base := 0x03000000, countAddr := 0x03040000, parity := 0, dim := [256, 512, 1, 1, 1, 1], stride := [1, 256, 0, 0, 0, 0] }
theorem test_bound_dimension : (descA.resolve ⟨3, none, false⟩ (({} : Memory).write .cistern 0x03040000 (leBytes 4 240))).1.dim = [256, 240, 1, 1, 1, 1]
    ∧ (descA.resolve ⟨3, none, false⟩ (({} : Memory).write .cistern 0x03040000 (leBytes 4 600))).2 = some 600 := by decide +kernel

/-- Spec 14, the example of the assignment: row 0 takes detection 0 and row 1 detection 1 in 4 steps, row 2 its miss column (3 + 2). -/
def exampleCosts (i : Nat) : List (Nat × Nat) :=
  if i = 0 then [(0, 65536), (1, 393216), (3, 589824)] else if i = 1 then [(0, 131072), (1, 196608), (4, 589824)] else [(5, 589824)]
theorem test_assignment_example : (Assign.solve exampleCosts [0, 1, 2] {}).1.owner = [(0, 0), (1, 1), (5, 2)] ∧ (Assign.solve exampleCosts [0, 1, 2] {}).1.steps = 4
    ∧ quantise 0x41100000 = 589824 := by decide +kernel
theorem test_lifecycle_example : lifeStep {} .tentative 2 0 true = (.confirmed, 3, 0) ∧ (lifeStep {} .coasting 9 24 false).1 = .retired ∧ (({ ({ slot := 0, gen := 0, st := .tentative, x := 0, y := 0, vx := 0, vy := 0, p := [], conf := 0, hits := 0, misses := 0, length := 0, width := 0, heading := 0, cls := 0, masks := [], matched := false, orphaned := false, det := none, cost := 0, age := 0 } : Track) with slot := 0, gen := 13 } : Track).id) = 0x3400 := by
  decide +kernel

/-- Spec 16, the example of the guard word: FREE_F 700 mm in bin 8, moved 0.038 mm, entry 27 of SPEED_TABLE 846 mm/s. -/
def guardExample : State := { guarding 0 [] with
  cb := { (guarding 0 []).cb with cfg := { speedTable := List.replicate 27 800 ++ [846, 867] ++ List.replicate 227 3050 }
                                  table := { valid := true, kbins := 17, t := us 10000500, entries := (List.replicate 8 (6400, 6400)) ++ [(700, 6400)] ++ List.replicate 8 (6400, 6400) } }
  tb := { up.tb with now := us 10000539 }
  pl := { laddered.pl with live := { valid := true, x := BitVec.ofNat 64 163209 } }
  weir := { up.weir with summary := { valid := true, bn := us 9980000, free := List.replicate 17 (6400, 6400) }, verdict := some .agree }
  seq := up.seq }
def exampleWord : GuardWord := (guardExample.guardWord (us 10000539) false).1
theorem test_guard_example : exampleWord.vFwd = 0x034E ∧ exampleWord.limit = .table ∧ exampleWord.kappaLo = 0xFB4C ∧ exampleWord.kappaHi = 0x04B4 ∧ exampleWord.k = 10000539
    ∧ exampleWord.k.toNat % 10 = 9 ∧ exampleWord.k.toNat % 256 = 0x9B := by decide +kernel

/-- Spec 20, the example of the lidar flume: write cycles 66 to 68, in each of which the reader frees one record. -/
def flumeAt (occ : Nat) (full : Bool) : Headgate :=
  { cfg := some (hgOf .points 8 0), st := .active, occ := occ, full := full, freed := 32, out := List.replicate 32 (.data { pointRec 89990 with itemNo := 1 }) }
def flumeCycle (g : Headgate) : Headgate := (g.writeCycle 5 { now := us 90000, tb := up.tb, closeTicks := fun _ => 16000000, read := true }).1
theorem test_flume_example : (flumeCycle (flumeAt 65536 true)).occ = 65504 ∧ (flumeCycle (flumeAt 65536 true)).full = true ∧ (flumeCycle (flumeAt 65504 true)).occ = 65472
    ∧ (flumeCycle (flumeAt 65504 true)).full = false ∧ (flumeCycle (flumeAt 65472 false)).occ = 65504 ∧ (flumeCycle (flumeAt 65472 false)).full = true := by decide +kernel

/-- Spec 21, the example of a monitor: LO 350 and WIDTH 10, a gap of 400 in bin 6 and one of 488,444 in bin 63. -/
theorem test_grotto_bins : ({ lo := 350, width := 10 } : MonCfg).bin 400 = 6 ∧ ({ lo := 350, width := 10 } : MonCfg).bin 488444 = 63 := by decide +kernel

/-- Spec 10, the example of POINT_CAP: 60 sectors of 1,344 points and 300 of 64 keep 46,336 points in the forward sectors; here 3 sectors of 5
points and 1 of 2 lose 7: the lowest index loses first on a tie. -/
def setPoints (n : Nat) : List SetPoint := List.replicate n ⟨⟨coreAt 0, []⟩, 0, 0, 0⟩
theorem test_cap_example : (evict 7 [setPoints 5, setPoints 2, setPoints 5, setPoints 5]).map List.length = [2, 2, 3, 3] := by decide +kernel

/-- Check value of CRC-32C over the ASCII digits 1 to 9, by its standard. -/
theorem test_crc32c : crc32c [0x31, 0x32, 0x33, 0x34, 0x35, 0x36, 0x37, 0x38, 0x39] = 0xE3069283 := by decide +kernel

/-- Spec 13, the example of a memory build, with its pages 12, 30, 31, 44 and 50 numbered 0 to 4 and one staging slot: tracks A, B and C. -/
def buildKv : KvCfg := { heads := 4, hdim := 64, regionBytes := 655360, stageSlots := 1 }
def trackIn (slot : Nat) (gen : BitVec 6) (x : Word) : Track :=
  { slot := slot, gen := gen, st := .confirmed, x := x, y := 0, vx := 0, vy := 0, p := [], conf := 0, hits := 3, misses := 0, length := 0, width := 0, heading := 0, cls := 0
    masks := [], matched := true, orphaned := false, det := none, cost := 0, age := 0 }
def buildMem : Vector TrackMem 1024 := ((Vector.replicate 1024 {}).set 3 { live := true, next := 255, pages := #v[some 0, none, none, none], staged := true, slot := some 0 }).set 17
  { live := true, next := 1024, pages := #v[some 1, some 2, some 3, some 4], base := 1280 }
def built : Vector TrackMem 1024 × List BuildTrack × Nat := memoryBuild buildKv buildMem [trackIn 3 2 0x3F99999A, trackIn 17 0 0x40800000, trackIn 40 6 0x40200000] false
theorem test_memory_build : built.1[3].pages = #v[some 0, none, none, none] ∧ built.1[3].slot = some 0 ∧ built.1[40].pages = #v[some 1, none, none, none]
    ∧ built.1[17].pages = #v[some 3, some 4, some 2, none] ∧ built.1[17].base = 1792 ∧ built.1[17].next = 513 ∧ built.1[40].slot = none ∧ built.1[17].slot = none ∧ built.2.2 = 1 := by
  decide +kernel

end Sys2Proof.Tests
end

section
/-! The observation port: what its writes and its reads of BAR0 do (spec 19 R464, R465; spec 22 R498 to R503). -/

namespace Sys2Proof.Machine

open Sys2Proof

/-! ### Frames of the observer's blocks -/

theorem State.withObp_only (s : State) (o : Observation) : Only [.obp] s { s with obp := o } := by
  intro p hp
  cases p with
  | obp => exact absurd hp (by decide)
  | _ => rfl

theorem State.withEvObp_only (s : State) (q : Sluice) (o : Observation) : Only [.ev, .obp] s { s with ev := q, obp := o } := by
  intro p hp
  cases p with
  | ev | obp => exact absurd hp (by decide)
  | _ => rfl

/-! ### Acknowledging events (R72, R78, R508) -/

/-- The acknowledge puts the low half of the value written above the staged word. -/
theorem ackWord_toNat (v low : Word) : (v.setWidth 16 ++ low : BitVec 48).toNat = v.toNat % 65536 * 4294967296 + low.toNat := by
  rw [BitVec.toNat_append, ← Nat.shiftLeft_add_eq_or_of_lt low.isLt, Nat.shiftLeft_eq, BitVec.toNat_setWidth]

theorem execSluiceIrqAckHighWrite_spec (v : Word) (s : State) : ∃ t, execSluiceIrqAckHighWrite v s = .next t ∧ t.ev = { s.ev with ack := t.ev.ack } ∧
    t.ev.ack.toNat = v.toNat % 65536 * 4294967296 + s.ev.ackLow.toNat ∧ Only [.ev, .obp] s t :=
  ⟨_, rfl, rfl, ackWord_toNat v s.ev.ackLow, s.withEvObp_only _ _⟩

theorem seqLater_iff (a b : BitVec 48) : seqLater a b = true ↔ 0 < (a - b).toInt := decide_eq_true_iff

theorem seqLater_self (a : BitVec 48) : seqLater a a = false := by simp [seqLater]

theorem Sluice.irqLow_of_none {q : Sluice} (h : q.irqSeq = none) : q.irqLow = false := by simp [Sluice.irqLow, h]

theorem Sluice.irqLow_of_some {q : Sluice} {x : BitVec 48} (h : q.irqSeq = some x) : q.irqLow = seqLater x q.ack := by simp [Sluice.irqLow, h]

/-! ### The capture window and the MSI-X table (R464, R465, R503) -/

theorem execObpCapWinWrite_spec (v : Word) (s : State) : ∃ t, execObpCapWinWrite v s = .next t ∧ t.obp = { s.obp with capWin := t.obp.capWin } ∧
    t.obp.capWin.toNat = v.toNat % 128 ∧ Only [.obp] s t :=
  ⟨_, rfl, rfl, BitVec.toNat_setWidth 7 v, s.withObp_only _⟩

/-- The message that waits for the mask of its vector goes out once the table no longer masks it (log entry 18). -/
def Observation.unmask (o : Observation) : Observation :=
  if o.msixPending && !o.msix[3].getLsbD 0 then { o with msixPending := false, msixSent := some (o.msix[1] ++ o.msix[0], o.msix[2]) } else o

theorem Observation.unmask_msix (o : Observation) : o.unmask.msix = o.msix := by unfold Observation.unmask; split <;> rfl

theorem Observation.unmask_readData (o : Observation) : o.unmask.readData = o.readData := by unfold Observation.unmask; split <;> rfl

theorem Observation.unmask_of_not_pending (o : Observation) (h : o.msixPending = false) : o.unmask = o :=
  if_neg (by simp [h])

theorem Observation.unmask_of_masked (o : Observation) (h : o.unmask.msix[3].getLsbD 0 = true) : o.unmask = o := by
  rw [unmask_msix] at h
  exact if_neg (by rw [h]; simp)

theorem Observation.unmask_sends (o : Observation) (h : o.msixPending = true) (k : o.unmask.msix[3].getLsbD 0 = false) :
    o.unmask.msixPending = false ∧ o.unmask.msixSent = some (o.unmask.msix[1] ++ o.unmask.msix[0], o.unmask.msix[2]) := by
  rw [unmask_msix] at k
  have hsend : o.unmask = { o with msixPending := false, msixSent := some (o.msix[1] ++ o.msix[0], o.msix[2]) } :=
    if_pos (by rw [h, k]; rfl)
  rw [hsend]
  exact ⟨rfl, rfl⟩

/-- Word w of the table's entry 0 replaced. -/
def Observation.setMsix (o : Observation) (w : Fin 4) (v : Word) : Observation := { o with msix := o.msix.set w v }

theorem execMsiXTableWrite_eq (w : Fin 4) (v : Word) (s : State) : execMsiXTableWrite w v s = .next { s with obp := (s.obp.setMsix w v).unmask } := rfl

theorem execMsiXTableWrite_spec (w : Fin 4) (v : Word) (s : State) : ∃ t, execMsiXTableWrite w v s = .next t ∧ Only [.obp] s t ∧
    t.obp.msix = s.obp.msix.set w v ∧ t.obp.readData = s.obp.readData ∧
    (s.obp.msixPending = false → t.obp = { s.obp with msix := s.obp.msix.set w v }) ∧
    (t.obp.msix[3].getLsbD 0 = true → t.obp.msixPending = s.obp.msixPending ∧ t.obp.msixSent = s.obp.msixSent) ∧
    (s.obp.msixPending = true → t.obp.msix[3].getLsbD 0 = false →
      t.obp.msixPending = false ∧ t.obp.msixSent = some (t.obp.msix[1] ++ t.obp.msix[0], t.obp.msix[2])) := by
  refine ⟨_, execMsiXTableWrite_eq w v s, s.withObp_only _, Observation.unmask_msix _, Observation.unmask_readData _,
    (s.obp.setMsix w v).unmask_of_not_pending, fun hm => ?_, (s.obp.setMsix w v).unmask_sends⟩
  have hkeep := (s.obp.setMsix w v).unmask_of_masked hm
  have hpending := congrArg Observation.msixPending hkeep
  have hsent := congrArg Observation.msixSent hkeep
  exact ⟨hpending, hsent⟩

/-! ### Record registers and reads of BAR0 (R498, R501) -/

/-- The span that covers an aligned word of BAR0. -/
def State.spanAt (s : State) (a : Nat) : Option Span :=
  (s.spans (a / 0x10000) (a % 0x10000)).find? fun x => decide (x.off ≤ a % 0x10000) && decide (a % 0x10000 < x.off + x.bytes.length)

/-- The lowest word of a record register captures the record and answers from it. -/
theorem State.readWord_lowest {s : State} {a : Nat} {bs : Bytes} (h : s.spanAt a = some ⟨a % 0x10000, bs, true⟩) :
    s.readWord a = ({ s with obp := { s.obp with latches := ⟨a, bs⟩ :: s.obp.latches.filter fun l => l.addr != a } }, padTo 4 (bs.take 4)) := by
  unfold State.spanAt at h
  simp [State.readWord, h, slice]

/-- A later word of a record register answers from the capture, whatever the record is now. -/
theorem State.readWord_later {s : State} {a : Nat} {x : Span} {l : RecLatch} (h : s.spanAt a = some x) (hx : x.record = true)
    (hlt : x.off < a % 0x10000) (hl : (s.obp.latches.find? fun l => l.addr == a - (a % 0x10000 - x.off)) = some l) :
    s.readWord a = (s, padTo 4 (slice l.bytes (a % 0x10000 - x.off) 4)) := by
  unfold State.spanAt at h
  have hne : a ≠ a - (a % 0x10000 - x.off) := by omega
  simp [State.readWord, h, hx, hne, hl]

/-- Of the observation port's own fields, a word read changes the captures. -/
theorem State.readWord_obp (s : State) (a : Nat) : (s.readWord a).1.obp = { s.obp with latches := (s.readWord a).1.obp.latches } := by
  unfold State.readWord
  dsimp only
  repeat' split
  all_goals rfl

theorem State.readWords_obp (s : State) (a n : Nat) : (s.readWords a n).1.obp = { s.obp with latches := (s.readWords a n).1.obp.latches } := by
  induction n generalizing s a with
  | zero => rfl
  | succ n ih =>
    have hw := s.readWord_obp a
    have ht := ih (s.readWord a).1 (a + 4)
    rw [hw] at ht
    exact ht

theorem execRecordRegisterRead_spec (a n : Nat) (s : State) : ∃ t, execRecordRegisterRead a n s = .next t ∧ Only [.obp] s t ∧
    t.obp = { s.obp with latches := t.obp.latches, readData := t.obp.readData } ∧ ((n = 0 ∨ 0x200000 < a + n) → t = s) := by
  unfold execRecordRegisterRead bar0Bytes
  by_cases hout : n = 0 ∨ 0x200000 < a + n
  · rw [if_pos hout]
    exact ⟨s, rfl, Only.refl _ s, rfl, fun _ => rfl⟩
  · rw [if_neg hout]
    refine ⟨_, rfl, (s.readWords_only _ _).trans (State.withObp_only _ _), ?_, fun h => absurd h hout⟩
    dsimp only
    rw [s.readWords_obp]

/-! ### Writes that are only counted (R465, R498) -/

theorem execBar0WriteDiscard_counts {a n : Nat} (s : State) (h0 : 0 < n) (hin : a + n ≤ 0x200000) (hw : ¬ (n = 4 ∧ observerWord a = true)) :
    execBar0WriteDiscard a n s = .next { s with obp := { s.obp with bar0Drop := bump s.obp.bar0Drop } } := by
  have hdrop : ¬ (n = 0 ∨ bar0Bytes < a + n ∨ (n = 4 ∧ observerWord a = true)) := by
    rintro (h | h | h)
    · omega
    · exact absurd hin (Nat.not_le.mpr h)
    · exact hw h
  rw [execBar0WriteDiscard, if_neg hdrop]

theorem execBar2WriteDiscard_counts {a n : Nat} {s : State} (h : s.replaying = false ∨ a < 0x400000 ∨ 0x400000 + windowBytes < a + n) :
    execBar2WriteDiscard a n s = .next { s with obp := { s.obp with writeDrop := bump s.obp.writeDrop } } := by
  have hdrop : ¬ (s.replaying && decide (0x400000 ≤ a) && decide (a + n ≤ 0x400000 + windowBytes)) = true := by
    simp only [Bool.and_eq_true, decide_eq_true_eq]
    rintro ⟨⟨hr, hlo⟩, hhi⟩
    rcases h with h | h | h
    · simp [hr] at h
    · omega
    · omega
  rw [execBar2WriteDiscard, if_neg hdrop]

/-- Settles O59: each command's own lemma above says what it changes; a capture is a latch that `readWord` writes at a record's lowest word and
reads back at the others. -/
theorem observerReadsAndWrites : Obligations.ObserverReadsAndWrites := by
  unfold Obligations.ObserverReadsAndWrites
  refine ⟨fun v s => rfl, execSluiceIrqAckHighWrite_spec, fun q x => ⟨fun h => ?_, Sluice.irqLow_of_none, fun h ha => ?_⟩, execObpCapWinWrite_spec,
    execMsiXTableWrite_spec, execRecordRegisterRead_spec, fun s t base off bs hread hspan => ?_,
    fun s a x l hspan hrec hlt hl => State.readWord_later hspan hrec hlt hl,
    fun a n s => execBar0WriteDiscard_counts s, fun a n s => execBar2WriteDiscard_counts⟩
  · rw [Sluice.irqLow_of_some h, seqLater_iff]
  · rw [Sluice.irqLow_of_some h, ha, seqLater_self]
  · rw [State.readWord_lowest hspan] at hread
    cases hread
    exact ⟨List.find?_cons_of_pos (beq_self_eq_true base), rfl⟩

end Sys2Proof.Machine
end

section
/-! Bring-up: the slots and their selection, and the sections of the selected slot (spec 04 R95, R98, R103 to R107). -/

namespace Sys2Proof.Machine

open Sys2Proof

/-! ### Frames of the BCC -/

theorem State.withBcc_only (s : State) (b : Bcc) : Only [.bcc] s { s with bcc := b } := by
  intro p hp
  cases p with
  | bcc => exact absurd hp (by decide)
  | _ => rfl

theorem State.withBccEv_only (s : State) (b : Bcc) (q : Sluice) : Only [.bcc, .ev] s { s with bcc := b, ev := q } := by
  intro p hp
  cases p with
  | bcc | ev => exact absurd hp (by decide)
  | _ => rfl

theorem State.result_of_loading {s : State} (h : s.loading = true) : s.bcc.result = .reading := by
  simp only [State.loading, Bool.and_eq_true, beq_iff_eq] at h
  exact h.2

theorem modAt_getElem_self {α : Type} {n : Nat} (v : Vector α n) (i : Fin n) (f : α → α) : (modAt v i f)[i] = f v[i] :=
  Vector.getElem_set_self i.isLt

/-! ### Selection (R106) -/

theorem chooseSlot_a {x y : Slot} (hx : x.candidate = true) (h : y.candidate = false ∨ y.svn ≤ x.svn) : chooseSlot x y = some 0 := by
  have hy : ¬ (y.candidate && decide (x.svn < y.svn)) = true := by
    rw [Bool.and_eq_true, decide_eq_true_eq]
    rintro ⟨hc, hlt⟩
    rcases h with h | h
    · exact absurd (hc.symm.trans h) (by decide)
    · omega
  rw [chooseSlot, if_pos hx, if_neg hy]

theorem chooseSlot_b {x y : Slot} (hy : y.candidate = true) (h : x.candidate = false ∨ x.svn < y.svn) : chooseSlot x y = some 1 := by
  rcases h with h | h <;> simp [chooseSlot, hy, h]

theorem chooseSlot_none {x y : Slot} (hx : x.candidate = false) (hy : y.candidate = false) : chooseSlot x y = none := by
  simp [chooseSlot, hx, hy]

section
variable {b : Bcc} (h0 : b.slots[0].checked = true) (h1 : b.slots[1].checked = true) (hs : b.slot = none)
include h0 h1 hs

theorem Bcc.select_chosen {k : Fin 2} (hc : chooseSlot b.slots[0] b.slots[1] = some k) : b.select.slot = some k := by
  simp [Bcc.select, h0, h1, hs, hc]

theorem Bcc.select_noCandidate (hc : chooseSlot b.slots[0] b.slots[1] = none) : b.select = b.noCandidate := by
  simp [Bcc.select, h0, h1, hs, hc]
end

/-- Selection marks the slot that it selects as tried and leaves all else of both slots. -/
theorem Bcc.select_slots (b : Bcc) (j : Fin 2) : ∃ tried, b.select.slots[j] = { b.slots[j] with tried := tried } := by
  unfold Bcc.select
  split
  · cases chooseSlot b.slots[0] b.slots[1] with
    | none => exact ⟨_, rfl⟩
    | some k =>
      by_cases hk : k = j
      · subst hk
        exact ⟨true, modAt_getElem_self _ _ _⟩
      · exact ⟨_, Vector.getElem_set_ne k.isLt j.isLt fun h => hk (Fin.ext h)⟩
  · exact ⟨_, rfl⟩

/-- A slot that is changed just before selection keeps the change. -/
theorem Bcc.select_modAt (b : Bcc) (k : Fin 2) (f : Slot → Slot) :
    ∃ tried, ({ b with slots := modAt b.slots k f } : Bcc).select.slots[k] = { f b.slots[k] with tried := tried } := by
  obtain ⟨tried, h⟩ := Bcc.select_slots { b with slots := modAt b.slots k f } k
  exact ⟨tried, h.trans (congrArg (fun x : Slot => { x with tried := tried }) (modAt_getElem_self _ _ _))⟩

/-! ### The slots' commands (R95, R98, R105) -/

theorem execSfdpRead_answers {s : State} {k : Fin 2} (n : Nat) (hl : s.loading = true) (ha : s.bcc.slots[k].answered = none)
    (ht : tReached (us 500) s.tb.now = true) :
    execSfdpRead k n s = .next { s with bcc := { s.bcc with slots := s.bcc.slots.set k { s.bcc.slots[k] with answered := some true, bytes := n } } } := by
  rw [execSfdpRead, if_pos (by rw [hl, ha, ht]; rfl)]
  rfl

theorem execSfdpRead_late {s : State} (k : Fin 2) (n : Nat) (ht : tReached (us 500) s.tb.now = false) : execSfdpRead k n s = .next s := by
  rw [execSfdpRead, if_neg (by simp [ht])]

theorem execNoDeviceTimeout_spec {s : State} {k : Fin 2} (hl : s.loading = true) (ha : s.bcc.slots[k].answered = none)
    (ht : tReached s.tb.now (us 500) = true) : ∃ t, execNoDeviceTimeout k s = .next t ∧
      Only [.bcc] s t ∧ t.bcc.slots[k].fail = 1 ∧ t.bcc.slots[k].checked = true ∧ t.bcc.slots[k].candidate = false := by
  obtain ⟨tried, hslot⟩ := s.bcc.select_modAt k fun x => { x with answered := some false, fail := 1, checked := true, candidate := false }
  rw [execNoDeviceTimeout, if_pos (by rw [hl, ha, ht]; rfl)]
  refine ⟨_, rfl, s.withBcc_only _, ?_⟩
  rw [hslot]
  exact ⟨rfl, rfl, rfl⟩

theorem Slot.check_candidate (x : Slot) (otp : Otp) (hdr tab : Bytes) :
    (x.check otp hdr tab).candidate = true ↔ (x.check otp hdr tab).fail = 0 :=
  decide_eq_true_iff

theorem execHeaderCheck_spec {s : State} {k : Fin 2} (hdr tab : Bytes) (hl : s.loading = true) (ha : s.bcc.slots[k].answered = some true)
    (hc : s.bcc.slots[k].checked = false) : ∃ t, execHeaderCheck k hdr tab s = .next t ∧ Only [.bcc] s t ∧ t.bcc.slots[k].checked = true ∧
      t.bcc.slots[k].header = some (Manifest.ofBytes hdr) ∧ t.bcc.slots[k].fail = headerReason s.bcc.otp s.bcc.slots[k].bytes hdr tab ∧
      (t.bcc.slots[k].candidate = true ↔ t.bcc.slots[k].fail = 0) ∧ t.bcc.slots[k].digest = sha256 (hdr.take 192) ∧
      t.bcc.slots[k].table = sectionTable (Manifest.ofBytes hdr).sections tab := by
  obtain ⟨tried, hslot⟩ := s.bcc.select_modAt k fun x => x.check s.bcc.otp hdr tab
  rw [execHeaderCheck, if_pos (by rw [hl, ha, hc]; rfl)]
  refine ⟨_, rfl, s.withBcc_only _, ?_⟩
  rw [hslot]
  exact ⟨rfl, rfl, rfl, Slot.check_candidate _ _ _ _, rfl, rfl⟩

/-- Settles O19: the commands' own lemmas say what a slot holds, and selection is the choice of R106 between the two checked slots. -/
theorem slotsAnswerAndOneIsChosen : Obligations.SlotsAnswerAndOneIsChosen := by
  unfold Obligations.SlotsAnswerAndOneIsChosen
  refine ⟨fun k n s => execSfdpRead_answers n, fun k n s => execSfdpRead_late k n, fun k s => execNoDeviceTimeout_spec,
    fun k hdr tab s => execHeaderCheck_spec hdr tab, fun b h0 h1 hs => ⟨fun ha h => ?_, fun hb h => ?_, fun ha hb => ?_⟩⟩
  · exact Bcc.select_chosen h0 h1 hs (chooseSlot_a ha h)
  · exact Bcc.select_chosen h0 h1 hs (chooseSlot_b hb h)
  · rw [Bcc.select_noCandidate h0 h1 hs (chooseSlot_none ha hb)]
    exact ⟨hs, rfl, rfl⟩

/-! ### What a section's content changes in memory (R107) -/

/-- The settings of a memory, its regions and its LPDDR5X parameters, are no bytes of it. -/
theorem Memory.get_settings (m : Memory) (rs : List (Nat × Nat)) (c : MemCfg) (sp : Space) (a : Nat) :
    ({ m with regions := rs, cfg := c } : Memory).get sp a = m.get sp a := by
  cases sp <;> rfl

/-- A section's content writes no byte of memory. -/
def SectionContent.writesNothing (c : SectionContent) : Prop := (∀ q, c ≠ .qsa q) ∧ c ≠ .modelSlot

theorem State.apply_memory (s : State) {i : Installed} (h : i.content.writesNothing) :
    ∃ rs c, (s.apply i).mem = { s.mem with regions := rs, cfg := c } := by
  obtain ⟨hqsa, hslot⟩ := h
  unfold State.apply
  cases hc : i.content with
  | qsa q => exact absurd hc (hqsa q)
  | modelSlot => exact absurd hc hslot
  | headgate | te => dsimp only; split <;> exact ⟨_, _, rfl⟩
  | _ => exact ⟨_, _, rfl⟩

theorem State.apply_bcc (s : State) (i : Installed) : (s.apply i).bcc = s.bcc := s.apply_only i .bcc (by decide)

theorem State.apply_get (s : State) {i : Installed} (h : i.content.writesNothing) (sp : Space) (a : Nat) : (s.apply i).mem.get sp a = s.mem.get sp a := by
  obtain ⟨rs, c, hm⟩ := s.apply_memory h
  rw [hm, Memory.get_settings]

theorem State.foldl_apply_get {l : List Installed} (h : ∀ i ∈ l, i.content.writesNothing) (s : State) (sp : Space) (a : Nat) :
    (l.foldl State.apply s).mem.get sp a = s.mem.get sp a := by
  induction l generalizing s with
  | nil => rfl
  | cons i l ih => rw [List.foldl_cons, ih fun j hj => h j (List.mem_cons_of_mem _ hj), s.apply_get (h i List.mem_cons_self)]

theorem State.releaseS1_get (s : State) (h : ∀ i ∈ s.bcc.installed, i.entry.stage = 1 → i.content.writesNothing) (sp : Space) (a : Nat) :
    s.releaseS1.mem.get sp a = s.mem.get sp a := by
  unfold State.releaseS1
  dsimp only
  rw [State.foldl_apply_get]
  intro i hi
  obtain ⟨hmem, hstage⟩ := List.mem_filter.mp hi
  exact h i hmem (beq_iff_eq.mp hstage)

theorem State.releaseS1_bcc (s : State) : s.releaseS1.bcc = s.bcc.release 1 := by
  have hkeep : ((s.bcc.ofStage 1).foldl State.apply s).bcc = s.bcc :=
    List.foldlRecOn _ State.apply (motive := fun t => t.bcc = s.bcc) rfl fun t ht i _ => (t.apply_bcc i).trans ht
  exact congrArg (Bcc.release · 1) hkeep

theorem State.installLater_bcc (s : State) (i : Installed) : (s.installLater i).bcc = s.bcc :=
  s.installLater_only i .bcc (by decide)

theorem State.installLater_mem (s : State) (i : Installed) : (s.installLater i).mem = (s.apply i).mem := by
  unfold State.installLater
  dsimp only
  split <;> rfl

/-! ### The judgement of a section (R103, R107) -/

theorem Bcc.judge_digest (b : Bcc) {e : SectionEntry} {st : Bytes} (h : sha256 st ≠ e.digest) : b.judge e st = .error 10 := by
  rw [Bcc.judge, if_pos h]

theorem Bcc.judge_content {b : Bcc} {e : SectionEntry} {st p : Bytes} {c : SectionContent} (h : b.judge e st = .ok (p, c)) :
    SectionContent.ofBytes e.type e.inst p = some c := by
  unfold Bcc.judge at h
  split at h
  · cases h
  · split at h
    · cases h
    · split at h
      · cases h
      next d hd =>
        split at h
        · cases h
        · cases h
          exact hd

/-! ### A section that passes (R107, R112) -/

/-- What an installed section records of its reading. -/
def Installed.read (x : Installed) : Nat × SectionEntry × Bytes × SectionContent := (x.index, x.entry, x.bytes, x.content)

theorem Bcc.mem_release {b : Bcc} (n : Nat) {i : Installed} (h : i ∈ b.installed) : ∃ x ∈ (b.release n).installed, x.entry = i.entry ∧ x.content = i.content := by
  refine ⟨_, List.mem_map_of_mem h, ?_⟩
  split <;> exact ⟨rfl, rfl⟩

theorem Bcc.release_read (b : Bcc) (n : Nat) : (b.release n).installed.map Installed.read = b.installed.map Installed.read := by
  refine List.map_map.trans (List.map_congr_left fun i _ => ?_)
  dsimp only [Function.comp_apply]
  split <;> rfl

theorem Bcc.pass_read (b : Bcc) (e : SectionEntry) (p : Bytes) (c : SectionContent) :
    (b.pass e p c).installed.map Installed.read = b.installed.map Installed.read ++ [(b.next, e, p, c)] :=
  List.map_append

theorem Bcc.pass_complete (b : Bcc) (e : SectionEntry) (p : Bytes) (c : SectionContent) :
    (b.pass e p c).result = .complete ↔ b.next + 1 = b.sel.table.length := by
  simp only [Bcc.pass]
  split <;> simp [*]

/-- The state after a section that passes: kept by the BCC, and its settings released with those of STAGE 1 or put into their block. -/
def State.keepSection (s : State) (b : Bcc) (e : SectionEntry) (p : Bytes) (c : SectionContent) : State :=
  let s1 : State := { s with bcc := b.pass e p c }
  if e.stage = 1 then (if s1.bcc.stageRead 1 then s1.releaseS1 else s1)
  else s1.installLater { index := s.bcc.next, entry := e, bytes := p, content := c }

section
variable (s : State) (b : Bcc) (e : SectionEntry) (p : Bytes) (c : SectionContent)

/-- Beyond keeping the section, the BCC only marks sections released. -/
theorem State.keepSection_bcc : (s.keepSection b e p c).bcc = { b.pass e p c with installed := (s.keepSection b e p c).bcc.installed } ∧
    (s.keepSection b e p c).bcc.installed.map Installed.read = b.installed.map Installed.read ++ [(b.next, e, p, c)] := by
  rw [← Bcc.pass_read]
  unfold State.keepSection
  dsimp only
  split
  · split
    · rw [State.releaseS1_bcc]
      exact ⟨rfl, Bcc.release_read _ 1⟩
    · exact ⟨rfl, rfl⟩
  · rw [State.installLater_bcc]
    exact ⟨rfl, rfl⟩

theorem State.keepSection_length : (s.keepSection b e p c).bcc.installed.length = b.installed.length + 1 := by
  have h := congrArg List.length (s.keepSection_bcc b e p c).2
  simpa using h

theorem State.keepSection_last : (s.keepSection b e p c).bcc.installed.getLast?.map Installed.read = some (b.next, e, p, c) := by
  rw [← List.getLast?_map, (s.keepSection_bcc b e p c).2, List.getLast?_concat]

variable {e c}

theorem State.keepSection_get_later (he : e.stage ≠ 1) (hc : c.writesNothing) (sp : Space) (a : Nat) :
    (s.keepSection b e p c).mem.get sp a = s.mem.get sp a := by
  rw [State.keepSection, if_neg he, State.installLater_mem, State.apply_get _ hc]

theorem State.keepSection_get_stage1 (he : e.stage = 1)
    (h : ∀ x ∈ (s.keepSection b e p c).bcc.installed, x.entry.stage = 1 → x.content.writesNothing) (sp : Space) (a : Nat) :
    (s.keepSection b e p c).mem.get sp a = s.mem.get sp a := by
  rw [State.keepSection, if_pos he] at h ⊢
  split at h
  case isTrue hread =>
    rw [if_pos hread]
    refine State.releaseS1_get _ (fun i hi hstage => ?_) sp a
    obtain ⟨x, hx, hentry, hcontent⟩ := Bcc.mem_release 1 hi
    exact hcontent ▸ h x (State.releaseS1_bcc _ ▸ hx) (hentry ▸ hstage)
  case isFalse hread => rw [if_neg hread]
end

/-! ### A section that fails (R106, R107) -/

/-- The slot beside a slot. -/
def otherSlot (k : Fin 2) : Fin 2 := if k = 0 then 1 else 0

theorem eq_otherSlot_iff (k j : Fin 2) : j = otherSlot k ↔ k ≠ j := by
  revert k j
  decide

/-- A slot that a failure in STAGE 1 can still go to. -/
def Slot.untried (x : Slot) : Bool := x.candidate && !x.tried

theorem Slot.untried_iff (x : Slot) : x.untried = true ↔ x.candidate = true ∧ x.tried = false := by
  simp [Slot.untried]

theorem Slot.untried_eq_false_iff (x : Slot) : x.untried = false ↔ x.candidate = false ∨ x.tried = true := by
  rw [Slot.untried, Bool.and_eq_false_iff, Bool.not_eq_false']

theorem Bcc.fail_stage (b : Bcc) (e : SectionEntry) (r : BitVec 4) : (b.fail e r).1.stage = b.stage := by
  unfold Bcc.fail
  dsimp only
  repeat' split
  all_goals rfl

section
variable {b : Bcc} {e : SectionEntry} {r : BitVec 4}

theorem Bcc.fail_stage1_other {k : Fin 2} (he : e.stage = 1) (hk : b.slot = some k) (h : b.slots[otherSlot k].untried = true) :
    ∃ x, b.fail e r = (x, false) ∧ x.slot = some (otherSlot k) ∧ x.next = 0 ∧ x.installed = [] ∧ x.result = b.result := by
  rw [Bcc.fail, if_pos he, hk]
  exact ⟨_, if_pos h, rfl, rfl, rfl, rfl⟩

theorem Bcc.fail_stage1_held {k : Fin 2} (he : e.stage = 1) (hk : b.slot = some k) (h : b.slots[otherSlot k].untried = false) :
    ∃ x, b.fail e r = (x, false) ∧ x.result = .noCandidate ∧ x.held = true ∧ x.installed = [] := by
  rw [Bcc.fail, if_pos he, hk]
  exact ⟨_, if_neg (Bool.eq_false_iff.mp h), rfl, rfl, rfl⟩

theorem Bcc.fail_again (he : e.stage ≠ 1) (hr : r = 10) (h : b.retry = false) : b.fail e r = ({ b with retry := true }, false) := by
  rw [Bcc.fail, if_neg he, if_pos ⟨hr, h⟩]

theorem Bcc.fail_ends (he : e.stage ≠ 1) (h : r ≠ 10 ∨ b.retry = true) :
    b.fail e r = ({ b with failed := some b.next, reason := r, result := .sectionFail }, true) := by
  rw [Bcc.fail, if_neg he, if_neg]
  rintro ⟨hr, hretry⟩
  rcases h with h | h
  · exact h hr
  · exact absurd (h.symm.trans hretry) (by decide)
end

/-- The state after a section that fails. -/
def State.failSection (s : State) (b : Bcc) (e : SectionEntry) (r : BitVec 4) : State :=
  { s with bcc := (b.fail e r).1, ev := if (b.fail e r).2 then s.ev.raise (evt .imgSectionFail bccIsland 0 s.bcc.next) else s.ev }

/-! ### SECTION_READ (R107) -/

/-- The BCC with the bytes of a section counted. -/
def State.counting (s : State) (st : Bytes) : Bcc := { s.bcc with readBytes := bumpBy s.bcc.readBytes st.length, condAt := s.tb.now }

/-- The state after the next section has been judged. -/
def State.judged (s : State) (b : Bcc) (e : SectionEntry) (st : Bytes) : State :=
  match b.judge e st with
  | .error r => s.failSection b e r
  | .ok (p, c) => s.keepSection b e p c

theorem execSectionRead_judged {s : State} {st : Bytes} {e : SectionEntry} (hl : s.loading = true) (hs : s.bcc.slot.isSome = true)
    (he : s.bcc.sel.table[s.bcc.next]? = some e) (hn : st.length = e.length) : execSectionRead st s = .next (s.judged (s.counting st) e st) := by
  rw [execSectionRead, if_pos (by rw [hl, hs]; rfl)]
  split
  next h => cases he.symm.trans h
  next h =>
    cases he.symm.trans h
    rw [if_neg fun h => h hn]
    rfl

theorem State.judged_ok {s : State} {b : Bcc} {e : SectionEntry} {st p : Bytes} {c : SectionContent} (h : b.judge e st = .ok (p, c)) :
    s.judged b e st = s.keepSection b e p c := by
  rw [State.judged, h]

theorem State.judged_error {s : State} {b : Bcc} {e : SectionEntry} {st : Bytes} {r : BitVec 4} (h : b.judge e st = .error r) :
    s.judged b e st = s.failSection b e r := by
  rw [State.judged, h]

theorem State.failSection_quiet {s : State} {b x : Bcc} {e : SectionEntry} {r : BitVec 4} (h : b.fail e r = (x, false)) :
    s.failSection b e r = { s with bcc := x } := by
  rw [State.failSection, h, if_neg Bool.false_ne_true]

/-- A failure in STAGE 1 goes to the other slot's first section or holds the device in S0, and raises nothing. -/
theorem State.failSection_stage1 {s : State} {e : SectionEntry} (st : Bytes) (r : BitVec 4) (hl : s.loading = true) (hs : s.bcc.slot.isSome = true)
    (he : e.stage = 1) : ∃ x, s.failSection (s.counting st) e r = { s with bcc := x } ∧
      ((∃ k : Fin 2, s.bcc.slot ≠ some k ∧ x.slot = some k ∧ s.bcc.slots[k].candidate = true ∧ s.bcc.slots[k].tried = false ∧
        x.next = 0 ∧ x.installed = [] ∧ x.result = .reading) ∨
      (x.result = .noCandidate ∧ x.held = true ∧ x.installed = [] ∧
        ∀ k : Fin 2, s.bcc.slot ≠ some k → s.bcc.slots[k].candidate = false ∨ s.bcc.slots[k].tried = true)) := by
  obtain ⟨k, hk⟩ := Option.isSome_iff_exists.mp hs
  have hother (j : Fin 2) : s.bcc.slot ≠ some j ↔ j = otherSlot k := by
    rw [hk, eq_otherSlot_iff, ne_eq, Option.some_inj]
  cases h : s.bcc.slots[otherSlot k].untried with
  | true =>
    obtain ⟨x, hfail, hslot, hnext, hinstalled, hresult⟩ := Bcc.fail_stage1_other (b := s.counting st) (r := r) he hk h
    obtain ⟨hcandidate, htried⟩ := (Slot.untried_iff _).mp h
    exact ⟨x, State.failSection_quiet hfail, .inl ⟨otherSlot k, (hother _).mpr rfl, hslot, hcandidate, htried, hnext, hinstalled,
      hresult.trans (State.result_of_loading hl)⟩⟩
  | false =>
    obtain ⟨x, hfail, hresult, hheld, hinstalled⟩ := Bcc.fail_stage1_held (b := s.counting st) (r := r) he hk h
    refine ⟨x, State.failSection_quiet hfail, .inr ⟨hresult, hheld, hinstalled, fun j hj => ?_⟩⟩
    obtain rfl := (hother j).mp hj
    exact (Slot.untried_eq_false_iff _).mp h

theorem State.failSection_again {s : State} {e : SectionEntry} (st : Bytes) (he : e.stage ≠ 1) {r : BitVec 4} (hr : r = 10)
    (h : s.bcc.retry = false) : s.failSection (s.counting st) e r = { s with bcc := { s.counting st with retry := true } } :=
  State.failSection_quiet (Bcc.fail_again he hr h)

theorem State.failSection_ends {s : State} {e : SectionEntry} (st : Bytes) (he : e.stage ≠ 1) {r : BitVec 4} (h : r ≠ 10 ∨ s.bcc.retry = true) :
    s.failSection (s.counting st) e r =
      { s with bcc := { s.counting st with failed := some s.bcc.next, reason := r, result := .sectionFail }
               ev := s.ev.raise (evt .imgSectionFail bccIsland 0 s.bcc.next) } := by
  rw [State.failSection, Bcc.fail_ends (b := s.counting st) he h, if_pos rfl]
  rfl

/-- Settles O20: SECTION_READ is the judgement of the next section; what a pass and what a failure leave are the lemmas above. -/
theorem sectionsAreReadInOrder : Obligations.SectionsAreReadInOrder := by
  unfold Obligations.SectionsAreReadInOrder
  refine ⟨fun st s e p c hl hs he hn hj => ?_, fun b e st => Bcc.judge_digest b, fun st s e r hl hs he hn hj => ?_⟩
  · have hrun := execSectionRead_judged hl hs he hn
    rw [State.judged_ok (b := s.counting st) hj] at hrun
    have hbcc := (s.keepSection_bcc (s.counting st) e p c).1
    refine ⟨_, _, hrun, rfl, s.keepSection_length _ e p c, s.keepSection_last _ e p c, Bcc.judge_content hj,
      (congrArg Bcc.next hbcc :), (congrArg Bcc.last hbcc :), ?_, (congrArg Bcc.stage hbcc :),
      fun h1 hq hm => s.keepSection_get_later _ p h1 ⟨hq, hm⟩, fun hx h1 => s.keepSection_get_stage1 _ p h1 hx⟩
    rw [hbcc]
    exact Bcc.pass_complete _ e p c
  · have hrun := execSectionRead_judged hl hs he hn
    rw [State.judged_error (b := s.counting st) hj] at hrun
    refine ⟨_, hrun, s.withBccEv_only _ _, Bcc.fail_stage _ _ _, fun h1 => ?_, fun h1 hr hretry => ?_, fun h1 h => ?_⟩
    · obtain ⟨x, hx, hslots⟩ := State.failSection_stage1 st r hl hs h1
      rw [hx]
      exact ⟨rfl, hslots⟩
    · rw [State.failSection_again st h1 hr hretry]
      exact ⟨rfl, rfl, State.result_of_loading hl, rfl⟩
    · rw [State.failSection_ends st h1 h]
      exact ⟨rfl, rfl, rfl, rfl, rfl⟩

end Sys2Proof.Machine
end

section
/-! Command lists: how an engine takes a list, ends one and flushes a queue (spec 11 R280 to R284; spec 12 R323; spec 20 R473). -/

namespace Sys2Proof.Machine

open Sys2Proof

/-! ### A write leaves every other byte, whatever the form of the memory -/

theorem cellsGet_cellsSet_ne (m : List Host.Cell) (v : Byte) {a x : Nat} (h : x ≠ a) : cellsGet (cellsSet m a v) x = cellsGet m x := by
  induction m with
  | nil => rw [cellsSet]; split <;> simp [cellsGet, h.symm]
  | cons c r ih =>
    obtain ⟨k, b⟩ := c
    rw [cellsSet]
    split
    · rw [cellsGet, cellsGet, ih]
    · split
      next _ hk =>
        subst hk
        split <;> simp [cellsGet, h.symm]
      next =>
        split
        · rfl
        · rw [cellsGet, if_neg h.symm]

theorem cellsGet_cellsPut_out (m : List Host.Cell) {a : Nat} {bs : Bytes} {x : Nat} (h : x < a ∨ a + bs.length ≤ x) :
    cellsGet (cellsPut m a bs) x = cellsGet m x := by
  induction bs generalizing m a with
  | nil => rfl
  | cons b bs ih =>
    rw [List.length_cons] at h
    rw [cellsPut, ih _ (by omega), cellsGet_cellsSet_ne _ _ (by omega)]

/-- A byte that a write does not cover keeps its value, in a word that the write does not touch and, where no word of the space is poisoned, in every
word (R472). -/
theorem Memory.get_write_off (m : Memory) (sp : Space) {a : Nat} {bs : Bytes} {x : Nat} (hne : bs ≠ []) (hout : x < a ∨ a + bs.length ≤ x)
    (hword : (x / 8 < a / 8 ∨ (a + bs.length - 1) / 8 < x / 8) ∨ m.bad sp = []) : (m.write sp a bs).get sp x = m.get sp x := by
  have hbad : ((m.write sp a bs).bad sp).contains (x / 8) = (m.bad sp).contains (x / 8) := by
    rw [Bool.eq_iff_iff, List.contains_iff_mem, List.contains_iff_mem, m.write_bad sp a bs _ hne]
    rcases hword with hword | hclean
    · exact and_iff_left hword
    · simp [hclean]
  have hcell : cellsGet ((m.write sp a bs).cells sp) x = cellsGet (m.cells sp) x := by
    rw [Memory.write, if_neg (by simpa using hne), Memory.withSpace_cells, cellsGet_cellsPut_out _ hout]
  rw [Memory.get, Memory.get, hbad, hcell]

theorem Memory.write_cistern_dram (m : Memory) (a : Nat) (bs : Bytes) : (m.write .cistern a bs).dram = m.dram := by
  unfold Memory.write; split <;> rfl

theorem Memory.write_cistern_local (m : Memory) (a : Nat) (bs : Bytes) : (m.write .cistern a bs).local_ = m.local_ := by
  unfold Memory.write; split <;> rfl

@[simp] theorem leBytes_length (n v : Nat) : (leBytes n v).length = n := by
  induction n generalizing v with
  | zero => rfl
  | succ n ih => rw [leBytes, List.length_cons, ih]

@[simp] theorem ListRun.record_length (r : ListRun) (t : Fin 4) (now : T64) : (r.record t now).length = 32 := leBytes_length _ _

/-! ### Putting one engine back -/

/-- The state with engine t and the events of its command put back. -/
def State.putTe (s : State) (t : Fin 4) (r : Te × List Ev) : State :=
  { s with tes := { s.tes with te := s.tes.te.set t r.1 }, ev := s.ev.raiseAll r.2 }

section
variable (s : State) (t : Fin 4) (r : Te × List Ev)

@[simp] theorem State.putTe_te : (s.putTe t r).tes.te[t] = r.1 := Vector.getElem_set_self t.isLt

theorem State.putTe_te_other {k : Fin 4} (h : k ≠ t) : (s.putTe t r).tes.te[k] = s.tes.te[k] :=
  Vector.getElem_set_ne t.isLt k.isLt fun e => h (Fin.ext e.symm)

theorem State.putTe_only : Only [.ev, .tes] s (s.putTe t r) := by
  intro p hp
  cases p with
  | ev | tes => exact absurd hp (by decide)
  | _ => rfl

theorem State.putTe_only_quiet (te : Te) : Only [.tes] s (s.putTe t (te, [])) := by
  intro p hp
  cases p with
  | tes => exact absurd hp (by decide)
  | _ => rfl

theorem State.putTe_self : s.putTe t (s.tes.te[t], []) = s := by
  unfold State.putTe
  rw [show s.tes.te.set t s.tes.te[t] = s.tes.te from Vector.set_getElem_self t.isLt]
  rfl
end

theorem execListStart_eq {s : State} (hs : s.stalled = false) (t : Fin 4) (ue : Bool) :
    exec (.listStart t ue) s = .next (s.putTe t (s.tes.te[t].start t s.mem s.tb.now ue)) :=
  State.gate_run hs _

theorem execQueueFlush_eq {s : State} (hs : s.stalled = false) (t q : Fin 4) : exec (.queueFlush t q) s = .next (s.putTe t (s.tes.te[t].flush t q)) :=
  State.gate_run hs _

/-! ### LIST_START (R280 to R282, R473) -/

theorem Te.ready_eq {te : Te} {q : Fin 4} (hbefore : ∀ p : Fin 4, p < q → te.chain[p] = none ∧ te.flume[p] = [])
    (hq : (te.chain[q].isSome || !te.flume[q].isEmpty) = true) : te.ready = some q := by
  refine List.find?_eq_some_iff_getElem.mpr ⟨hq, q.val, by simp, by simp, fun j hj => ?_⟩
  obtain ⟨hchain, hflume⟩ := hbefore ⟨j, Nat.lt_trans hj q.isLt⟩ hj
  simp only [List.getElem_finRange, Fin.cast_mk, hchain, hflume]
  rfl

section
variable {te : Te} {q : Fin 4} (t : Fin 4) (m : Memory) (now : T64) (hrun : te.run = none)
  (hbefore : ∀ p : Fin 4, p < q → te.chain[p] = none ∧ te.flume[p] = [])
include hrun hbefore

/-- A chain's next list. -/
theorem Te.start_next (ue : Bool) {k : Chain} (hk : te.chain[q] = some k) :
    te.start t m now ue = ({ te with
      chain := te.chain.set q (some { k with next := (ListHeader.ofBytes (m.read .cistern k.next.toNat 64)).next })
      run := some { queue := q, launch := k.launch, addr := k.next.toNat, startAt := now, cmdAt := now } }, []) := by
  have hready : te.ready = some q := te.ready_eq hbefore (by rw [hk]; rfl)
  simp only [Te.start, hrun, hready, hk]

/-- The first list of the oldest launch entry. -/
theorem Te.start_first {l : LaunchEntry} {rest : List LaunchEntry} (hk : te.chain[q] = none) (hl : te.flume[q] = l :: rest) :
    te.start t m now false = ({ te with
      flume := te.flume.set q rest, chain := te.chain.set q (some ⟨l, (ListHeader.ofBytes (m.read .cistern l.list.toNat 64)).next, false⟩)
      run := some { queue := q, launch := l, addr := l.list.toNat, startAt := now, cmdAt := now } }, []) := by
  have hready : te.ready = some q := te.ready_eq hbefore (by rw [hl]; simp)
  simp only [Te.start, hrun, hready, hk, hl]
  rfl

theorem Te.start_uncorrectable {l : LaunchEntry} {rest : List LaunchEntry} (hk : te.chain[q] = none) (hl : te.flume[q] = l :: rest) :
    te.start t m now true = ({ te with flume := te.flume.set q rest }, [evtOpen .cmdFlumeUe (teIsland t) (teInst t q.val)]) := by
  have hready : te.ready = some q := te.ready_eq hbefore (by rw [hl]; simp)
  simp only [Te.start, hrun, hready, hk, hl, if_true]
end

/-! ### LIST_COMPLETION (R187, R280, R284, R323) -/

/-- A chain goes on after a list that ran to its end with a next list, where no flush has ended it. -/
def ListRun.goesOn (r : ListRun) (h : ListHeader) (c : Option Chain) : Bool :=
  r.status != .stopped && h.next != 0xFFFFFFFF && c.any fun k => !k.ending

theorem ListRun.goesOn_iff (r : ListRun) (h : ListHeader) (c : Option Chain) :
    r.goesOn h c = true ↔ r.status ≠ .stopped ∧ h.next ≠ 0xFFFFFFFF ∧ ∃ k, c = some k ∧ k.ending = false := by
  cases c <;> simp [ListRun.goesOn, and_assoc]

/-- An engine whose list ends. -/
def Te.afterList (te : Te) (r : ListRun) (h : ListHeader) : Te :=
  { te with run := none, qflags := te.qflags.set r.queue r.flags, lists := te.lists.set r.queue (bump te.lists[r.queue])
            chain := if r.goesOn h te.chain[r.queue] then te.chain else te.chain.set r.queue none }

theorem Te.afterList_chain (te : Te) (r : ListRun) (h : ListHeader) : (te.afterList r h).chain[r.queue].isSome = r.goesOn h te.chain[r.queue] := by
  unfold Te.afterList
  dsimp only
  cases hgo : r.goesOn h te.chain[r.queue] with
  | false =>
    rw [if_neg Bool.false_ne_true]
    exact congrArg Option.isSome (Vector.getElem_set_self r.queue.isLt)
  | true =>
    rw [if_pos rfl]
    obtain ⟨-, -, k, hk, -⟩ := (r.goesOn_iff h _).mp hgo
    rw [hk]
    rfl

theorem Te.afterList_chain_other (te : Te) (r : ListRun) (h : ListHeader) {q : Fin 4} (hq : q ≠ r.queue) :
    (te.afterList r h).chain[q] = te.chain[q] := by
  unfold Te.afterList
  dsimp only
  split
  · rfl
  · exact Vector.getElem_set_ne r.queue.isLt q.isLt fun e => hq (Fin.ext e.symm)

/-- A list that has run out or stopped ends, and its record is written where the header names a place. -/
theorem Te.finish_ends {te : Te} {r : ListRun} {h : ListHeader} (t : Fin 4) (m : Memory) (now : T64) (hrun : te.run = some r)
    (hh : h = ListHeader.ofBytes (m.read .cistern r.addr 64)) (hend : r.status ≠ .complete ∨ h.cmdCount ≤ r.ran) :
    (te.finish t m now).1 = te.afterList r h ∧
    (te.finish t m now).2.1 = if h.completion = 0xFFFFFFFF then m else m.write .cistern h.completion (r.record t now) := by
  have hover : ¬ (r.status = .complete ∧ r.ran < h.cmdCount) := by
    rintro ⟨hc, hlt⟩
    exact hend.elim (fun hne => hne hc) (Nat.not_le.mpr hlt)
  simp only [Te.finish, hrun, ← hh, if_neg hover, Te.afterList, ListRun.goesOn, and_true]
  cases te.chain[r.queue] with
  | none => simp
  | some k =>
    by_cases hs : r.status = .stopped
    · simp [hs]
    · obtain ⟨-, -, ending⟩ := k
      by_cases hn : h.next = 0xFFFFFFFF#32 <;> cases ending <;> simp [hs, hn]

/-- The end of the list in progress on engine t, before its task hears of it. -/
def State.endList (s : State) (t : Fin 4) : State :=
  let r := s.tes.te[t].finish t s.mem s.tb.now
  { s.putTe t (r.1, r.2.2.1) with mem := r.2.1 }

theorem State.endList_only (s : State) (t : Fin 4) : Only [.ev, .tes, .mem] s (s.endList t) := by
  intro p hp
  cases p with
  | ev | tes | mem => exact absurd hp (by decide)
  | _ => rfl

/-- The end of a list leaves its engine and the memory as the engine's own rule says; the end of a task changes neither. -/
theorem execListCompletion_spec {s : State} (hs : s.stalled = false) (t : Fin 4) : ∃ u, exec (.listCompletion t) s = .next u ∧
    Only [.ev, .tes, .mem, .seq] s u ∧ u.tes.te[t] = (s.tes.te[t].finish t s.mem s.tb.now).1 ∧ u.mem = (s.tes.te[t].finish t s.mem s.tb.now).2.1 := by
  have hend := (s.endList t).taskEnd_only (s.tes.te[t].finish t s.mem s.tb.now).2.2.2
  have htes : _ = (s.endList t).tes := hend .tes (by decide)
  refine ⟨_, State.gate_run hs _, ((s.endList_only t).mono (by decide)).trans (hend.mono (by decide)), ?_, hend .mem (by decide)⟩
  exact (congrArg (fun x : Tes => x.te[t]) htes).trans (s.putTe_te t _)

/-- What a completion record's write changes: its 32 bytes, and of a poisoned word that it covers in part the poison (R323, R472). -/
theorem Memory.write_record (m : Memory) (a : Nat) (r : ListRun) (t : Fin 4) (now : T64) :
    (m.wf = true → ∀ i, i < 32 → (m.write .cistern a (r.record t now)).get .cistern (a + i) = (r.record t now).getD i 0) ∧
    (∀ x, (x / 8 < a / 8 ∨ (a + 31) / 8 < x / 8) → (m.write .cistern a (r.record t now)).get .cistern x = m.get .cistern x) ∧
    (m.cisternBad = [] → ∀ x, (x < a ∨ a + 32 ≤ x) → (m.write .cistern a (r.record t now)).get .cistern x = m.get .cistern x) ∧
    (m.write .cistern a (r.record t now)).dram = m.dram ∧ (m.write .cistern a (r.record t now)).local_ = m.local_ := by
  have hlen := r.record_length t now
  have hne : r.record t now ≠ [] := List.ne_nil_of_length_pos (by omega)
  refine ⟨fun hwf i hi => Memory.get_write .cistern a _ i hwf (by omega), fun x hx => ?_, fun hclean x hx => ?_,
    m.write_cistern_dram _ _, m.write_cistern_local _ _⟩
  · exact m.get_write_off .cistern hne (by omega) (.inl (by rw [hlen]; omega))
  · exact m.get_write_off .cistern hne (by omega) (.inr hclean)

/-! ### QUEUE_FLUSH (R284) -/

/-- A queue has what a flush removes or ends: an entry, or a chain that no flush has ended yet. -/
def Te.flushable (te : Te) (q : Fin 4) : Prop := te.flume[q] ≠ [] ∨ ∃ k, te.chain[q] = some k ∧ k.ending = false

/-- DATA of QUEUE_FLUSH: the entries removed, and 65,536 for a chain that is ended. -/
def Te.flushData (te : Te) (q : Fin 4) : Nat :=
  te.flume[q].length + match te.chain[q] with | some k => if k.ending then 0 else 65536 | none => 0

theorem Te.flush_removes {te : Te} {q : Fin 4} (t : Fin 4) (h : te.flushable q) : ∃ c : Option Chain, (∀ k, c = some k → k.ending = true) ∧
    te.flush t q = ({ te with flume := te.flume.set q [], flushes := te.flushes.set q (bump te.flushes[q]), chain := te.chain.set q c },
      [evt .queueFlush (teIsland t) (teInst t q.val) (te.flushData q)]) := by
  have hsome : ¬ (te.flume[q].length = 0 ∧ (te.chain[q].any fun c => !c.ending) = false) := by
    rintro ⟨hlen, hchain⟩
    rcases h with h | ⟨k, hk, he⟩
    · exact h (List.length_eq_zero_iff.mp hlen)
    · simp [hk, he] at hchain
  have hdata : te.flume[q].length + (if (te.chain[q].any fun c => !c.ending) = true then 65536 else 0) = te.flushData q := by
    unfold Te.flushData
    cases te.chain[q] with
    | none => rfl
    | some k => cases he : k.ending <;> simp [he]
  simp only [Te.flush, if_neg hsome, hdata]
  refine ⟨_, fun k hk => ?_, rfl⟩
  split at hk
  · obtain ⟨c, -, rfl⟩ := Option.map_eq_some_iff.mp hk
    rfl
  · cases hk

theorem Te.flush_nothing {te : Te} {q : Fin 4} (t : Fin 4) (hl : te.flume[q] = []) (hk : ∀ k, te.chain[q] = some k → k.ending = true) :
    te.flush t q = (te, []) := by
  have hends : (te.chain[q].any fun c => !c.ending) = false := by
    cases hc : te.chain[q] with
    | none => rfl
    | some k => simp [hk k hc]
  simp only [Te.flush, hl, hends, List.length_nil, and_self, if_true]

/-- Settles O42: an engine's own lemma says what its start, its list's end and its flush make of it, and the rest of the state is put back. -/
theorem listsStartAndEnd : Obligations.ListsStartAndEnd := by
  unfold Obligations.ListsStartAndEnd
  refine ⟨fun t q ue s k hs hrun hbefore hk => ?_, fun t q s l rest hs hrun hbefore hk hl => ⟨?_, ?_⟩, fun t s r h hs hrun hh hend => ?_,
    fun t q s hs hsome => ?_, fun t q s hl hk => ?_⟩
  · have hstart := Te.start_next t s.mem s.tb.now hrun hbefore ue hk
    rw [execListStart_eq hs, hstart]
    refine ⟨_, _, rfl, congrArg Te.run (s.putTe_te t _), rfl, rfl, rfl, rfl, rfl, rfl, rfl, (congrArg Te.flume (s.putTe_te t _)).trans rfl, rfl,
      s.putTe_only_quiet t _⟩
  · have hstart := Te.start_first t s.mem s.tb.now hrun hbefore hk hl
    rw [execListStart_eq hs, hstart]
    refine ⟨_, _, rfl, congrArg Te.run (s.putTe_te t _), rfl, rfl, rfl, rfl, rfl, rfl, congrArg Te.flume (s.putTe_te t _),
      ⟨_, (congrArg (fun x : Te => x.chain[q]) (s.putTe_te t _)).trans (Vector.getElem_set_self q.isLt), rfl, rfl⟩, s.putTe_only_quiet t _⟩
  · rw [execListStart_eq hs, Te.start_uncorrectable t s.mem s.tb.now hrun hbefore hk hl]
    rfl
  · obtain ⟨hte, hmem⟩ := Te.finish_ends t s.mem s.tb.now hrun hh hend
    obtain ⟨u, hu, honly, hute, humem⟩ := execListCompletion_spec hs t
    rw [hte] at hute
    rw [hmem] at humem
    refine ⟨u, hu, honly, ?_⟩
    rw [hute]
    refine ⟨rfl, rfl, rfl, rfl, fun hc => humem.trans (if_pos hc), fun hc => ?_, ?_, fun q => Te.afterList_chain_other _ r h⟩
    · rw [humem, if_neg hc]
      exact s.mem.write_record h.completion r t s.tb.now
    · rw [Te.afterList_chain]
      exact r.goesOn_iff h _
  · obtain ⟨c, hended, hflush⟩ := Te.flush_removes t (q := q) hsome
    rw [execQueueFlush_eq hs, hflush]
    refine ⟨_, rfl, s.putTe_only t _, ?_, congrArg Te.flushes (s.putTe_te t _), (congrArg Te.run (s.putTe_te t _)).trans rfl, fun p hp => ?_,
      fun k => s.putTe_te_other t _, fun k hk => hended k ?_, rfl⟩
    · rw [State.putTe_te]
      exact Vector.getElem_set_self q.isLt
    · have hpq : q.val ≠ p.val := fun e => hp (Fin.ext e.symm)
      rw [State.putTe_te]
      exact ⟨Vector.getElem_set_ne q.isLt p.isLt hpq, Vector.getElem_set_ne q.isLt p.isLt hpq⟩
    · rw [State.putTe_te] at hk
      exact (Vector.getElem_set_self q.isLt).symm.trans hk
  · cases hs : s.stalled with
    | true => exact if_pos hs
    | false => rw [execQueueFlush_eq hs, Te.flush_nothing t hl hk, State.putTe_self]

end Sys2Proof.Machine
end

section
/-! DIGEST of a tensor whose count word is poisoned (spec 11 R287; spec 12 R321; spec 20 R472): the command reads the count word first, so that it
stops its list although no element of its source is poisoned. -/

namespace Sys2Proof.Machine

open Sys2Proof

/-! ### What a tensor command does to its engine -/

/-- An engine after its next command, which is of the opcode run. -/
theorem Tes.run_of_front {x : Tes} {t : Fin 4} {m : Memory} {kv : KvCfg} {r : ListRun} {h : ListHeader} {c : Command} {e : CmdEnv}
    (hfront : x.front t m kv = some (r, h, c, e)) (now : T64) (f : CmdEnv → Command → CmdOut) :
    ((x.run t m kv now c.opcode f).1.te[t]).run = some (r.after (f e c) now) := by
  simp only [Tes.run, hfront, if_true]
  exact congrArg Te.run (Vector.getElem_set_self t.isLt)

/-- A decoder that finds nothing leaves the command as it is (R473, R476). -/
theorem Tes.runEcc_clean (x : Tes) (t : Fin 4) (m : Memory) (kv : KvCfg) (now : T64) (opcode : Nat) (f : CmdEnv → Command → CmdOut) :
    x.runEcc t m kv now opcode .clean f = x.run t m kv now opcode f := by
  unfold Tes.runEcc
  split
  · rfl
  · split
    · rfl
    · simp [Memory.dramFind]

theorem CmdEnv.digest_of_countBad {e : CmdEnv} {c : Command} (h : e.countBad c = true) (golden : Bytes) : (e.digest c golden).1.poisoned = true := by
  simp [CmdEnv.digest, h]

theorem ListRun.after_poisoned (r : ListRun) {o : CmdOut} (h : o.poisoned = true) (now : T64) : (r.after o now).status = .stopped :=
  if_pos h

/-- DIGEST stops its list where a count word that it reads is poisoned (R287, R472). -/
theorem Tes.digest_stops_of_countBad {x : Tes} {t : Fin 4} {m : Memory} {kv : KvCfg} {r : ListRun} {h : ListHeader} {c : Command} {e : CmdEnv}
    (hfront : x.front t m kv = some (r, h, c, e)) (hop : c.opcode = 0x60) (hbad : e.countBad c = true) (now : T64) :
    ((x.digest t m kv now .clean).1.te[t].run.map ListRun.status) = some .stopped := by
  have hrun := Tes.run_of_front hfront now fun e c => (e.digest c r.golden).1
  rw [hop] at hrun
  simp only [Tes.digest, hfront, hop, if_true, Tes.runEcc_clean]
  refine (congrArg (fun z : Te => z.run.map ListRun.status) (modAt_getElem_self _ _ _)).trans ?_
  simp only [hrun, Option.map_some]
  exact congrArg some (r.after_poisoned (CmdEnv.digest_of_countBad hbad _) now)

theorem execDigest_eq {s : State} (hs : s.stalled = false) (t : Fin 4) (ecc : EccFind) :
    exec (.digest t ecc) s = .next (s.withTes (s.tes.digest t s.mem s.kv s.tb.now ecc)) :=
  State.gate_run hs _

/-! ### The counterexample -/

/-- A list of one command, with one descriptor (R297, R298): no next list, no completion record. -/
def digestHeader : Nat := packNat [(4, 1), (4, 1), (7, 127), (1, 0), (12, 1), (12, 1), (24, 0), (32, 0xFFFFFFFF), (32, 0xFFFFFFFF)]

/-- A U8 vector of at most 32 elements at LOCAL 0, its dimension bound to the count word at Cistern 0 (R285). -/
def countedDesc : Nat :=
  packNat [(4, 1), (4, 2), (3, 1), (2, 1), (3, 0), (8, 0), (40, 0), (32, 0), (32, 0), (24, 32), (24, 1), (24, 1), (24, 1), (24, 1), (24, 1), (32, 1)]

/-- DIGEST of that vector into the golden digest: FOLD 1, OP0 0 and no other operand (R301, R303). -/
def digestCommand : Nat := packNat [(8, 0x60), (4, 1), (8, 0), (12, 0), (12, 0), (84, 2 ^ 84 - 1), (32, 1)]

/-- The list at Cistern 4096; the word of the Cistern that holds the count word is poisoned, and no other word is. -/
def countPoisonedMem : Memory :=
  { ({} : Memory).write .cistern 4096 (leBytes 64 digestHeader ++ leBytes 64 countedDesc ++ leBytes 32 digestCommand) with cisternBad := [0] }

/-- The list in progress, at its first command. -/
def digestRun : ListRun := { queue := 0, launch := ⟨3, 0, 4, 4096⟩, addr := 4096, startAt := 0, cmdAt := 0 }

/-- Engine 0 with DIGEST of the counted vector next. -/
def countPoisoned : State :=
  { State.reset with mem := countPoisonedMem, tes := { te := (Vector.replicate 4 {}).set 0 { run := some digestRun } } }

def digestHeaderRec : ListHeader := ListHeader.ofBytes (countPoisonedMem.read .cistern 4096 64)
def digestCommandRec : Command := Command.ofBytes (cmdBytes countPoisonedMem 4096 digestHeaderRec 0)
def digestEnv : CmdEnv := ⟨countPoisonedMem, ⟨0, none, false⟩, 4096, {}, State.reset.kv⟩

theorem countPoisoned_front : countPoisoned.tes.front 0 countPoisoned.mem countPoisoned.kv = some (digestRun, digestHeaderRec, digestCommandRec, digestEnv) := by
  decide +kernel

theorem digestCommandRec_opcode : digestCommandRec.opcode = 0x60 := by decide +kernel

theorem countPoisoned_source : (digestEnv.tens digestCommandRec 0).poisoned countPoisonedMem = false := by decide +kernel

theorem countPoisoned_countBad : digestEnv.countBad digestCommandRec = true := by decide +kernel

/-- Refutes O43: its DIGEST clause asks of the source's elements alone that they are clean. Where the source's count word is poisoned, the command
stops the list (R287, R472), and the list's STATUS changes. -/
theorem not_syncWordsAndGoldenChecks : ¬ Obligations.SyncWordsAndGoldenChecks := by
  unfold Obligations.SyncWordsAndGoldenChecks
  rintro ⟨-, -, -, hdigest, -⟩
  obtain ⟨u, z, hu, -, hz, -, -, hstatus, -⟩ := hdigest 0 countPoisoned _ _ _ _ rfl countPoisoned_front digestCommandRec_opcode countPoisoned_source
  have hstop := Tes.digest_stops_of_countBad countPoisoned_front digestCommandRec_opcode countPoisoned_countBad countPoisoned.tb.now
  rw [execDigest_eq rfl] at hu
  cases hu
  rw [State.withTes_tes] at hz
  rw [hz] at hstop
  have hcontra : digestRun.status = .stopped := hstatus.symm.trans (Option.some.inj hstop)
  exact absurd hcontra (by decide)

end Sys2Proof.Machine
end

section
/-! The Pose Ladder (spec 08 R192 to R211): the estimator computes a rung and touches neither the rungs written nor the settings; what a query is
answered from, and how the queries that wait are answered. -/

namespace Sys2Proof.Machine

open Sys2Proof

/-! ### What an answer is computed from (R207) -/

/-- What an answer is computed from, beside its times: the settings, the first and the next rung, the rungs kept, and the mismatch (R192, R207). -/
def PoseLadder.answerBasis (pl : PoseLadder) : PlCfg × Option Nat × Option Nat × List PoseRec × Bool :=
  (pl.cfg, pl.start, pl.nextK, pl.ladder, pl.dead)

theorem PoseLadder.answerBasis_eq_iff {p q : PoseLadder} : q.answerBasis = p.answerBasis ↔
    q.cfg = p.cfg ∧ q.start = p.start ∧ q.nextK = p.nextK ∧ q.ladder = p.ladder ∧ q.dead = p.dead := by
  simp only [answerBasis, Prod.mk.injEq]

theorem PoseLadder.answer_congr {p q : PoseLadder} (h : q.answerBasis = p.answerBasis) (t α now : T64) : q.answer t α now = p.answer t α now := by
  obtain ⟨hcfg, hstart, hnext, hladder, hdead⟩ := answerBasis_eq_iff.mp h
  simp only [answer, rungAt, head, hcfg, hstart, hnext, hladder, hdead]
  rfl

/-- An update of other fields keeps it. -/
theorem PoseLadder.keep_answerBasis {pl q : PoseLadder} (f : PoseLadder → PoseLadder) (hf : ∀ q, (f q).answerBasis = q.answerBasis)
    (h : q.answerBasis = pl.answerBasis) : (f q).answerBasis = pl.answerBasis := (hf q).trans h

/-! ### The estimator keeps it (R200 to R205) -/

@[simp] theorem PoseLadder.propagate_answerBasis (pl : PoseLadder) (t : T64) : (pl.propagate t).answerBasis = pl.answerBasis := by
  unfold propagate
  dsimp only
  split <;> rfl

@[simp] theorem PoseLadder.predict_answerBasis (pl : PoseLadder) (d : Rat) : (pl.predict d).answerBasis = pl.answerBasis := by
  unfold predict
  dsimp only
  split
  rfl

@[simp] theorem PoseLadder.measure2_answerBasis (pl : PoseLadder) (h0 h1 : List Rat) (r0 r1 n0 n1 : Rat) :
    (pl.measure2 h0 h1 r0 r1 n0 n1).answerBasis = pl.answerBasis := by
  unfold measure2
  dsimp only
  split
  rfl

@[simp] theorem PoseLadder.setPrimary_answerBasis (pl : PoseLadder) : pl.setPrimary.answerBasis = pl.answerBasis := by
  unfold setPrimary
  dsimp only
  split
  · rfl
  · split <;> rfl

@[simp] theorem PoseLadder.maskEnc_answerBasis (pl : PoseLadder) (i : Fin 8) (t : T64) : (pl.maskEnc i t).1.answerBasis = pl.answerBasis := rfl

@[simp] theorem PoseLadder.maskImu_answerBasis (pl : PoseLadder) (i : Fin 4) (t : T64) : (pl.maskImu i t).1.answerBasis = pl.answerBasis := rfl

@[simp] theorem PoseLadder.toMode_answerBasis (pl : PoseLadder) (m : PlMode) (t : T64) : (pl.toMode m t).answerBasis = pl.answerBasis := rfl

@[simp] theorem PoseLadder.modeStep_answerBasis (pl : PoseLadder) (t : T64) : (pl.modeStep t).1.answerBasis = pl.answerBasis := by
  unfold modeStep
  dsimp only
  repeat' split
  all_goals rfl

@[simp] theorem PoseLadder.expire_answerBasis (pl : PoseLadder) (t : T64) : (pl.expire t).1.answerBasis = pl.answerBasis := by
  unfold expire
  dsimp only
  generalize (_ || _) = b
  cases b
  · rfl
  · rfl

@[simp] theorem PoseLadder.applyWheel_answerBasis (pl : PoseLadder) (u : T64) (vw ww aw vL vR : Rat) (still : Bool) :
    (pl.applyWheel u vw ww aw vL vR still).answerBasis = pl.answerBasis := by
  unfold applyWheel
  dsimp only
  refine keep_answerBasis (fun q => { q with wheelRef := some (u, aw, ww) }) (fun q => rfl) ?_
  repeat' split
  all_goals exact measure2_answerBasis _ _ _ _ _ _ _

@[simp] theorem PoseLadder.primarySample_answerBasis (pl : PoseLadder) (t : T64) (w a : Rat) : (pl.primarySample t w a).answerBasis = pl.answerBasis := by
  unfold primarySample
  dsimp only
  split
  refine keep_answerBasis (fun q => { q with lastPrimary := some t }) (fun q => rfl) ?_
  split
  · exact predict_answerBasis _ _
  · rfl

@[simp] theorem PoseLadder.exitInit_answerBasis (pl : PoseLadder) (k : Nat) : (pl.exitInit k).answerBasis = pl.answerBasis := by
  unfold exitInit
  dsimp only
  split
  rfl

/-- A fold whose steps keep what an answer is computed from keeps it. -/
theorem PoseLadder.foldl_answerBasis {α β : Type} (f : PoseLadder × β → α → PoseLadder × β) (hf : ∀ acc x, (f acc x).1.answerBasis = acc.1.answerBasis)
    (l : List α) (acc : PoseLadder × β) : (l.foldl f acc).1.answerBasis = acc.1.answerBasis := by
  induction l generalizing acc with
  | nil => rfl
  | cons x l ih => exact (ih (f acc x)).trans (hf acc x)

@[simp] theorem PoseLadder.arbitrate_answerBasis (pl : PoseLadder) (t : T64) : (pl.arbitrate t).1.answerBasis = pl.answerBasis := by
  unfold arbitrate
  dsimp only
  split
  · rfl
  · refine foldl_answerBasis _ (fun acc x => ?_) _ _
    repeat' split
    all_goals rfl

@[simp] theorem PoseLadder.input_answerBasis (pl : PoseLadder) (origin : Bool) (t : T64) (x : PlInput) :
    (pl.input origin t x).1.answerBasis = pl.answerBasis := by
  cases x with
  | enc i code =>
    simp only [input]
    split
    · split <;> rfl
    · rfl
  | imu i w a =>
    simp only [input]
    split
    · split
      · split
        · simp only [modeStep_answerBasis, setPrimary_answerBasis, arbitrate_answerBasis]
          cases origin
          · rfl
          · exact (primarySample_answerBasis _ _ _ _).trans (propagate_answerBasis _ _)
        · rfl
      · rfl
    · rfl
  | state isImu i st =>
    have hkept : (if origin then pl.propagate t else pl).answerBasis = pl.answerBasis := by
      cases origin
      · rfl
      · exact pl.propagate_answerBasis t
    simp only [input, modeStep_answerBasis, setPrimary_answerBasis]
    split
    · split <;> exact hkept
    · split <;> exact hkept

theorem PoseLadder.answerBasis_of_modeStep {pl q : PoseLadder} {t : T64} {es : List Ev} (h : pl.modeStep t = (q, es)) :
    q.answerBasis = pl.answerBasis := by
  rw [← pl.modeStep_answerBasis t, h]

@[simp] theorem PoseLadder.wheelUpdate_answerBasis (pl : PoseLadder) (u : T64) : (pl.wheelUpdate u).1.answerBasis = pl.answerBasis := by
  unfold wheelUpdate
  extract_lets
  split
  split
  extract_lets
  split
  next left _ _ hleft =>
  have hleftMasked : left.answerBasis = pl.answerBasis := by split at hleft <;> cases hleft <;> rfl
  split
  next right _ _ hright =>
  have hmasked : right.answerBasis = pl.answerBasis := by split at hright <;> cases hright <;> exact hleftMasked
  extract_lets
  split
  next pl3 _ hmode =>
  have hjudged : pl3.answerBasis = pl.answerBasis := (answerBasis_of_modeStep hmode).trans hmasked
  split
  · exact hjudged
  extract_lets
  split
  extract_lets _ _ _ _ _ applied
  split
  · split
    exact hjudged
  · have happlied : applied.answerBasis = pl.answerBasis := by
      unfold applied
      split
      · exact hjudged
      · split
        · split
          · exact (applyWheel_answerBasis _ _ _ _ _ _ _ _).trans hjudged
          · exact hjudged
        · exact (applyWheel_answerBasis _ _ _ _ _ _ _ _).trans hjudged
    split
    next hlast => exact (answerBasis_of_modeStep hlast).trans happlied

/-- The computation of rung k: what came before it is kept, the new rung goes first, and the next rung is k + 1 (R197, R199). -/
theorem PoseLadder.writeRung_eq (pl : PoseLadder) (k : Nat) : ∃ q : PoseLadder, q.answerBasis = pl.answerBasis ∧
    (pl.writeRung k).1 = { q with ladder := (q.rung k :: pl.ladder).take 131072, nextK := some (k + 1), sat := bumpBy q.sat (q.rates.run 0).2 } := by
  unfold writeRung
  extract_lets t first due rest pl0 step wheel before after fed wheeled
  have hstep : ∀ acc e, (step acc e).1.answerBasis = acc.1.answerBasis := fun acc e =>
    (input_answerBasis _ _ _ _).trans (expire_answerBasis _ _)
  have hbefore : fed.1.answerBasis = pl.answerBasis := foldl_answerBasis step hstep _ _
  have hwheel : wheeled.1.answerBasis = pl.answerBasis := by
    unfold wheeled
    split
    · simp only [wheelUpdate_answerBasis, propagate_answerBasis, expire_answerBasis]
      exact hbefore
    · exact hbefore
  have hafter : (after.foldl step wheeled).1.answerBasis = pl.answerBasis := (foldl_answerBasis step hstep _ _).trans hwheel
  split
  next taken _ _ htaken =>
  rw [htaken] at hafter
  extract_lets moved
  have hmoved : moved.answerBasis = pl.answerBasis := by
    unfold moved
    split
    · exact (exitInit_answerBasis _ _).trans hafter
    · exact (propagate_answerBasis _ _).trans hafter
  split
  next judged _ hjudged =>
  have hmode : judged.answerBasis = pl.answerBasis := by
    split at hjudged
    · exact (answerBasis_of_modeStep hjudged).trans ((setPrimary_answerBasis _).trans hmoved)
    · cases hjudged
      exact hmoved
  split
  next q _ hq =>
  have hexpired : q.answerBasis = pl.answerBasis := by
    rw [← hmode, ← expire_answerBasis judged t, hq]
  obtain ⟨-, -, -, hladder, -⟩ := answerBasis_eq_iff.mp hexpired
  refine ⟨q, hexpired, ?_⟩
  rw [hladder]

/-! ### The record of a rung (R206) -/

@[simp] theorem PoseLadder.rung_tov (pl : PoseLadder) (k : Nat) : (pl.rung k).tov = BitVec.ofNat 64 (k * 8000) := rfl

theorem PoseLadder.rung_valid_iff (pl : PoseLadder) (k : Nat) : (pl.rung k).valid = true ↔ (pl.rung k).mode ≠ .init ∧ (pl.rung k).mode ≠ .lost := by
  show (pl.mode != .init && pl.mode != .lost) = true ↔ pl.mode ≠ .init ∧ pl.mode ≠ .lost
  simp only [Bool.and_eq_true, bne_iff_ne]

end Sys2Proof.Machine
end

section
/-! The queries of the Pose Ladder that wait for a rung, and its commands (spec 08 R192, R197 to R207). -/

namespace Sys2Proof.Machine

open Sys2Proof

/-! ### Frames of the Pose Ladder's blocks -/

theorem State.withPl_only (s : State) (pl : PoseLadder) : Only [.pl] s { s with pl := pl } := by
  intro p hp
  cases p with
  | pl => exact absurd hp (by decide)
  | _ => rfl

theorem State.withEvPl_only (s : State) (q : Sluice) (pl : PoseLadder) : Only [.ev, .pl] s { s with ev := q, pl := pl } := by
  intro p hp
  cases p with
  | ev | pl => exact absurd hp (by decide)
  | _ => rfl

theorem State.withPlHgs_only (s : State) (pl : PoseLadder) (hs : Vector Headgate 64) : Only [.pl, .hgs] s { s with pl := pl, hgs := hs } := by
  intro p hp
  cases p with
  | pl | hgs => exact absurd hp (by decide)
  | _ => rfl

/-! ### Answering the queries that wait (R207) -/

/-- Counting what a query met changes two counters of the Pose Ladder (R200, R207). -/
theorem State.countQueryAt_pl (s : State) (t α issued : T64) :
    ∃ sat evicted, (s.countQueryAt t α issued).pl = { s.pl with sat := sat, evicted := evicted } := by
  unfold State.countQueryAt
  split
  · exact ⟨s.pl.sat, s.pl.evicted, rfl⟩
  · exact ⟨_, _, rfl⟩

/-- No query at the front of a port's queue can be answered: its head is not visible, or none waits. -/
def State.frontWaits (s : State) (p : Fin 8) : Prop :=
  ∀ x α a rest, s.pl.waiting[p] = (x, α, a) :: rest → s.pl.answer x α a = none

/-- The effect of answering queries of port p: what answers are computed from and the other ports' queues stay. -/
structure State.Answers (p : Fin 8) (s t : State) : Prop where
  basis : t.pl.answerBasis = s.pl.answerBasis
  only : Only [.ev, .pl] s t
  others : ∀ q : Fin 8, q ≠ p → t.pl.waiting[q] = s.pl.waiting[q]

theorem State.Answers.refl (p : Fin 8) (s : State) : State.Answers p s s := ⟨rfl, Only.refl _ s, fun _ _ => rfl⟩

theorem State.Answers.trans {p : Fin 8} {s t u : State} (h : State.Answers p s t) (k : State.Answers p t u) : State.Answers p s u :=
  ⟨k.basis.trans h.basis, h.only.trans k.only, fun q hq => (k.others q hq).trans (h.others q hq)⟩

theorem State.Answers.frontWaits {p q : Fin 8} {s t : State} (h : State.Answers p s t) (hq : q ≠ p) (hs : s.frontWaits q) : t.frontWaits q := by
  intro x α a rest hw
  rw [PoseLadder.answer_congr h.basis]
  exact hs x α a rest ((h.others q hq).symm.trans hw)

theorem State.frontWaits_of_nil {s : State} {p : Fin 8} (h : s.pl.waiting[p] = []) : s.frontWaits p := by
  intro x α a rest hw
  rw [h] at hw
  cases hw

theorem State.frontWaits_cons {s : State} {p : Fin 8} {x α a : T64} {rest : List (T64 × T64 × T64)} (hw : s.pl.waiting[p] = (x, α, a) :: rest) :
    s.frontWaits p ↔ s.pl.answer x α a = none := by
  refine ⟨fun h => h x α a rest hw, fun h x' α' a' rest' hw' => ?_⟩
  cases hw.symm.trans hw'
  exact h

theorem State.answerNext_of_frontWaits {s : State} {p : Fin 8} (h : s.frontWaits p) : s.answerNext p = s := by
  unfold State.answerNext
  split
  · rfl
  next hw => rw [h _ _ _ _ hw]

theorem State.answerNext_eq {s : State} {p : Fin 8} {x α a : T64} {rest : List (T64 × T64 × T64)} {r : PoseRec × Nat × Bool}
    (hw : s.pl.waiting[p] = (x, α, a) :: rest) (h : s.pl.answer x α a = some r) : s.answerNext p = { s.countQueryAt x α a with
      pl := { (s.countQueryAt x α a).pl with
        answers := (s.countQueryAt x α a).pl.answers.set p ((s.countQueryAt x α a).pl.answers[p] ++ [r.1])
        waiting := (s.countQueryAt x α a).pl.waiting.set p rest } } := by
  unfold State.answerNext
  simp only [hw, h]

/-- The query at the front leaves its queue once it has an answer. -/
theorem State.answerNext_of_answer {s : State} {p : Fin 8} {x α a : T64} {rest : List (T64 × T64 × T64)}
    (hw : s.pl.waiting[p] = (x, α, a) :: rest) (h : s.pl.answer x α a ≠ none) :
    (s.answerNext p).pl.waiting = s.pl.waiting.set p rest ∧ State.Answers p s (s.answerNext p) := by
  obtain ⟨r, hr⟩ := Option.ne_none_iff_exists'.mp h
  obtain ⟨sat, evicted, hcount⟩ := s.countQueryAt_pl x α a
  have hbasis : (s.countQueryAt x α a).pl.answerBasis = s.pl.answerBasis := by rw [hcount]; rfl
  have hwaiting : (s.countQueryAt x α a).pl.waiting = s.pl.waiting := by rw [hcount]
  have hset : (s.answerNext p).pl.waiting = s.pl.waiting.set p rest := by rw [State.answerNext_eq hw hr, hwaiting]
  refine ⟨hset, ?_, ?_, fun q hq => ?_⟩
  · rw [State.answerNext_eq hw hr]
    exact hbasis
  · rw [State.answerNext_eq hw hr]
    exact (s.countQueryAt_only x α a).trans ((State.withPl_only _ _).mono (by decide))
  · rw [hset]
    exact Vector.getElem_set_ne _ _ (fun heq => hq (Fin.ext heq.symm))

theorem State.answerNext_answers (s : State) (p : Fin 8) : State.Answers p s (s.answerNext p) := by
  rcases hw : s.pl.waiting[p] with _ | ⟨⟨x, α, a⟩, rest⟩
  · rw [State.answerNext_of_frontWaits (State.frontWaits_of_nil hw)]
    exact State.Answers.refl p s
  · by_cases h : s.pl.answer x α a = none
    · rw [State.answerNext_of_frontWaits ((State.frontWaits_cons hw).mpr h)]
      exact State.Answers.refl p s
    · exact (State.answerNext_of_answer hw h).2

/-- Answering as often as a list is long. -/
def State.answerTimes (s : State) (p : Fin 8) (l : List (T64 × T64 × T64)) : State := l.foldl (fun (s : State) _ => s.answerNext p) s

theorem State.answerTimes_cons (s : State) (p : Fin 8) (e : T64 × T64 × T64) (l : List (T64 × T64 × T64)) :
    s.answerTimes p (e :: l) = (s.answerNext p).answerTimes p l := rfl

theorem State.answerTimes_answers (s : State) (p : Fin 8) (l : List (T64 × T64 × T64)) : State.Answers p s (s.answerTimes p l) := by
  induction l generalizing s with
  | nil => exact State.Answers.refl p s
  | cons e l ih => exact (s.answerNext_answers p).trans (ih _)

theorem State.answerTimes_of_frontWaits {s : State} {p : Fin 8} (h : s.frontWaits p) (l : List (T64 × T64 × T64)) : s.answerTimes p l = s := by
  induction l with
  | nil => rfl
  | cons e l ih => rw [State.answerTimes_cons, State.answerNext_of_frontWaits h, ih]

/-- Once it has been asked for as many answers as the queue has queries, no query at its front can be answered. -/
theorem State.answerTimes_frontWaits (l : List (T64 × T64 × T64)) (p : Fin 8) (s : State) (hl : s.pl.waiting[p].length ≤ l.length) :
    (s.answerTimes p l).frontWaits p := by
  induction l generalizing s with
  | nil => exact State.frontWaits_of_nil (List.length_eq_zero_iff.mp (Nat.le_zero.mp hl))
  | cons e l ih =>
    rcases hw : s.pl.waiting[p] with _ | ⟨⟨x, α, a⟩, rest⟩
    · have hfront := State.frontWaits_of_nil hw
      rwa [State.answerTimes_of_frontWaits hfront]
    · by_cases h : s.pl.answer x α a = none
      · have hfront := (State.frontWaits_cons hw).mpr h
        rwa [State.answerTimes_of_frontWaits hfront]
      · have hrest : (s.answerNext p).pl.waiting[p] = rest := by
          simp [(State.answerNext_of_answer hw h).1]
        rw [hw] at hl
        exact ih _ (by rw [hrest]; exact Nat.le_of_succ_le_succ hl)

/-- The answers that left a port before are gone. -/
def State.clearAnswers (s : State) (p : Fin 8) : State := { s with pl := { s.pl with answers := s.pl.answers.set p [] } }

theorem State.clearAnswers_answers (s : State) (p : Fin 8) : State.Answers p s (s.clearAnswers p) :=
  ⟨rfl, (s.withPl_only _).mono (by decide), fun _ _ => rfl⟩

/-- A port whose front query has no answer yet stays; else its queue is answered from the front on. -/
theorem State.answerPort_cases (s : State) (p : Fin 8) :
    s.frontWaits p ∧ s.answerPort p = s ∨ s.answerPort p = (s.clearAnswers p).answerTimes p s.pl.waiting[p] := by
  unfold State.answerPort
  rcases hw : s.pl.waiting[p] with _ | ⟨⟨x, α, a⟩, rest⟩
  · exact .inl ⟨State.frontWaits_of_nil hw, rfl⟩
  · cases ha : s.pl.answer x α a with
    | none => exact .inl ⟨(State.frontWaits_cons hw).mpr ha, by simp [ha]⟩
    | some r => exact .inr (by simp only [ha]; rfl)

theorem State.answerPort_answers (s : State) (p : Fin 8) : State.Answers p s (s.answerPort p) := by
  rcases s.answerPort_cases p with ⟨-, h⟩ | h
  · rw [h]
    exact State.Answers.refl p s
  · rw [h]
    exact (s.clearAnswers_answers p).trans (State.answerTimes_answers _ p _)

theorem State.answerPort_frontWaits (s : State) (p : Fin 8) : (s.answerPort p).frontWaits p := by
  rcases s.answerPort_cases p with ⟨hfront, h⟩ | h
  · rwa [h]
  · rw [h]
    exact State.answerTimes_frontWaits _ p _ (Nat.le_refl _)

/-- A port that waits stays so while the ports are answered in turn. -/
theorem State.answerPort_keeps_frontWaits {s : State} {p : Fin 8} (h : s.frontWaits p) (q : Fin 8) : (s.answerPort q).frontWaits p := by
  by_cases hpq : p = q
  · exact hpq ▸ s.answerPort_frontWaits p
  · exact (s.answerPort_answers q).frontWaits hpq h

theorem State.foldl_answerPort_frontWaits (l : List (Fin 8)) (s : State) (p : Fin 8) (h : p ∈ l ∨ s.frontWaits p) :
    (l.foldl State.answerPort s).frontWaits p := by
  induction l generalizing s with
  | nil => exact h.resolve_left List.not_mem_nil
  | cons q l ih =>
    refine ih _ ?_
    rcases h with hmem | hfront
    · rcases List.mem_cons.mp hmem with rfl | hmem
      · exact .inr (s.answerPort_frontWaits p)
      · exact .inl hmem
    · exact .inr (State.answerPort_keeps_frontWaits hfront q)

theorem State.answerWaiting_frontWaits (s : State) (p : Fin 8) : s.answerWaiting.frontWaits p :=
  State.foldl_answerPort_frontWaits _ s p (.inl (List.mem_finRange p))

theorem State.answerWaiting_only (s : State) : Only [.ev, .pl] s s.answerWaiting :=
  Only.foldl _ _ (fun s p => (s.answerPort_answers p).only) _ s

theorem State.answerWaiting_answerBasis (s : State) : s.answerWaiting.pl.answerBasis = s.pl.answerBasis :=
  List.foldlRecOn (motive := fun t : State => t.pl.answerBasis = s.pl.answerBasis) _ State.answerPort rfl
    fun t ht p _ => (t.answerPort_answers p).basis.trans ht

/-! ### RUNG_WRITE (R192, R197) -/

theorem State.rungDue_dead {s : State} (h : s.pl.dead = true) : s.rungDue = none := by
  unfold State.rungDue
  split
  · simp [h]
  · rfl

theorem State.dead_of_rungDue {s : State} {k : Nat} (h : s.rungDue = some k) : s.pl.dead = false := by
  cases hd : s.pl.dead with
  | false => rfl
  | true => cases (State.rungDue_dead hd).symm.trans h

/-- Rung k written, before the queries that wait for it are answered. -/
def State.rungWritten (s : State) (k : Nat) : State :=
  ({ s with pl := (s.pl.writeRung k).1, ev := s.ev.raiseAll (s.pl.writeRung k).2.2 } : State).maskStreams (s.pl.writeRung k).2.1 reasonExternal

theorem State.rungWritten_only (s : State) (k : Nat) : Only [.ev, .hgs, .pl] s (s.rungWritten k) :=
  ((s.withEvPl_only _ _).mono (by decide)).trans ((State.maskStreams_only _ _ _).mono (by decide))

theorem execRungWrite_due {s : State} {k : Nat} (hs : s.stalled = false) (hk : s.rungDue = some k) :
    exec (.rungWrite true) s = .next (s.rungWritten k).answerWaiting :=
  (State.gate_run hs _).trans (by rw [hk]; rfl)

theorem execRungWrite_mismatch {s : State} {k : Nat} (hs : s.stalled = false) (hk : s.rungDue = some k) :
    exec (.rungWrite false) s = .next s.keepLive.plMismatch :=
  (State.gate_run hs _).trans (by rw [hk]; rfl)

theorem execRungWrite_dead {s : State} (h : s.pl.dead = true) (b : Bool) : exec (.rungWrite b) s = .next s := by
  have hwrite : exec (.rungWrite b) s = s.gate (.next s) := by
    show execRungWrite b s = _
    unfold execRungWrite
    rw [State.rungDue_dead h]
  rw [hwrite]
  unfold State.gate
  exact ite_self _

/-- What RUNG_WRITE leaves where the rung is due. -/
theorem execRungWrite_spec {s : State} {k : Nat} (hs : s.stalled = false) (hk : s.rungDue = some k) : ∃ t r, exec (.rungWrite true) s = .next t ∧
    t.pl.ladder = (r :: s.pl.ladder).take 131072 ∧ r.tov = BitVec.ofNat 64 (k * 8000) ∧ t.pl.nextK = some (k + 1) ∧ t.pl.dead = false ∧
    t.pl.start = s.pl.start ∧ t.pl.cfg = s.pl.cfg ∧ Only [.ev, .hgs, .pl] s t ∧ (r.valid = true ↔ r.mode ≠ .init ∧ r.mode ≠ .lost) ∧
    ∀ (p : Fin 8) x α a rest, t.pl.waiting[p] = (x, α, a) :: rest → t.pl.answer x α a = none := by
  obtain ⟨q, hq, hwritten⟩ := s.pl.writeRung_eq k
  obtain ⟨hcfg, hstart, -, -, hdead⟩ := PoseLadder.answerBasis_eq_iff.mp hq
  have hpl : (s.rungWritten k).pl = { q with ladder := (q.rung k :: s.pl.ladder).take 131072, nextK := some (k + 1), sat := bumpBy q.sat (q.rates.run 0).2 } :=
    hwritten
  obtain ⟨hcfg', hstart', hnext, hladder, hdead'⟩ := PoseLadder.answerBasis_eq_iff.mp (s.rungWritten k).answerWaiting_answerBasis
  rw [hpl] at hcfg' hstart' hnext hladder hdead'
  exact ⟨_, q.rung k, execRungWrite_due hs hk, hladder, q.rung_tov k, hnext, hdead'.trans (hdead.trans (State.dead_of_rungDue hk)),
    hstart'.trans hstart, hcfg'.trans hcfg, (s.rungWritten_only k).trans ((State.answerWaiting_only _).mono (by decide)), q.rung_valid_iff k,
    State.answerWaiting_frontWaits _⟩

/-! ### A lockstep mismatch (R192) -/

@[simp] theorem State.keepLive_pl (s : State) : s.keepLive.pl = s.pl := s.keepLive_only .pl (by decide)

@[simp] theorem State.keepLive_ev (s : State) : s.keepLive.ev = s.ev := s.keepLive_only .ev (by decide)

/-- What a mismatch of a rung, an answer or a live record leaves. -/
theorem State.keepLive_plMismatch_spec (s : State) : s.keepLive.plMismatch.pl.dead = true ∧ s.keepLive.plMismatch.pl.ladder = s.pl.ladder ∧
    s.keepLive.plMismatch.pl.live.valid = false ∧ s.keepLive.plMismatch.ev = s.ev.raise (evtOpen .plLockstep 44 0) ∧
    Only [.ev, .pl, .guard] s s.keepLive.plMismatch := by
  have hladder : s.keepLive.plMismatch.pl.ladder = s.keepLive.pl.ladder := rfl
  have hev : s.keepLive.plMismatch.ev = s.keepLive.ev.raise (evtOpen .plLockstep 44 0) := rfl
  refine ⟨rfl, ?_, rfl, ?_, ((s.keepLive_only).mono (by decide)).trans ((State.plMismatch_only _).mono (by decide))⟩
  · rw [hladder, s.keepLive_pl]
  · rw [hev, s.keepLive_ev]

theorem PoseLadder.answer_dead {pl : PoseLadder} (h : pl.dead = true) (t α now : T64) : pl.answer t α now = some (poseFail 0 t, 0, false) := by
  unfold answer
  rw [if_pos h]

theorem execPoseQuery_dead {s : State} (hs : s.stalled = false) (h : s.pl.dead = true) (port : Fin 8) (x α : T64) (b : Bool) :
    exec (.poseQuery port x α b) s = .next { s with pl := { s.pl with answers := s.pl.answers.set port [] } } :=
  (State.gate_run hs _).trans (by rw [if_pos h])

/-! ### PL_INPUT_RECORD (R198) -/

theorem PoseLadder.mem_insert (pl : PoseLadder) (t : T64) (x : PlInput) (l : List (T64 × PlInput)) : (t, x) ∈ pl.insert t x l := by
  induction l with
  | nil => exact List.mem_singleton_self _
  | cons e l ih =>
    unfold insert
    split
    · exact List.mem_cons_self
    · exact List.mem_cons_of_mem _ ih

theorem PoseLadder.length_insert (pl : PoseLadder) (t : T64) (x : PlInput) (l : List (T64 × PlInput)) : (pl.insert t x l).length = l.length + 1 := by
  induction l with
  | nil => rfl
  | cons e l ih =>
    unfold insert
    split
    · rfl
    · exact congrArg (· + 1) ih

/-- The input with the saturations met, once the record has left the flume (R198). -/
def State.inputTaken (s : State) (rest : List Rec) (t : T64) (x : PlInput × Nat) : State :=
  let pl : PoseLadder := { s.pl with inbox := rest }
  { s with pl := { pl with inputs := pl.insert t x.1 pl.inputs, sat := bumpBy pl.sat x.2 } }

/-- The input that comes after the rung of its time only counts (R198). -/
def State.inputBehind (s : State) (rest : List Rec) : State :=
  { s with pl := { s.pl with inbox := rest, behind := bump s.pl.behind }, ev := s.ev.raise (evtOpen .poseInputBehind 44 0) }

section
variable {s : State} {r : Rec} {rest : List Rec} (hs : s.stalled = false) (hr : s.pl.inbox = r :: rest)
include hs hr

theorem execPlInputRecord_unused (h : s.pl.inputFx s.hgs[r.hg].cfg r = none) :
    exec .plInputRecord s = .next { s with pl := { s.pl with inbox := rest } } := by
  refine (State.gate_run hs _).trans ?_
  have hfx : ({ s.pl with inbox := rest } : PoseLadder).inputFx s.hgs[r.hg].cfg r = none := h
  simp only [hr, hfx]

theorem execPlInputRecord_behind {m : Fx PlInput} {k : Nat} (h : s.pl.inputFx s.hgs[r.hg].cfg r = some m) (hk : s.pl.head = some k)
    (hlate : tLater r.tov (rungT k) = false) : exec .plInputRecord s = .next (s.inputBehind rest) := by
  refine (State.gate_run hs _).trans ?_
  have hfx : ({ s.pl with inbox := rest } : PoseLadder).inputFx s.hgs[r.hg].cfg r = some m := h
  have hhead : ({ s.pl with inbox := rest } : PoseLadder).head = some k := hk
  simp only [hr, hfx, hhead, hlate]
  rfl

theorem execPlInputRecord_taken {m : Fx PlInput} (h : s.pl.inputFx s.hgs[r.hg].cfg r = some m)
    (hlater : ∀ k, s.pl.head = some k → tLater r.tov (rungT k) = true) : exec .plInputRecord s = .next (s.inputTaken rest r.tov (m.run 0)) := by
  refine (State.gate_run hs _).trans ?_
  have hfx : ({ s.pl with inbox := rest } : PoseLadder).inputFx s.hgs[r.hg].cfg r = some m := h
  cases hk : s.pl.head with
  | none =>
    have hhead : ({ s.pl with inbox := rest } : PoseLadder).head = none := hk
    simp only [hr, hfx, hhead]
    rfl
  | some k =>
    have hhead : ({ s.pl with inbox := rest } : PoseLadder).head = some k := hk
    simp only [hr, hfx, hhead, hlater k hk]
    rfl

theorem execPlInputRecord_spec : ∃ t, exec .plInputRecord s = .next t ∧ t.pl.inbox = rest ∧ t.pl.ladder = s.pl.ladder ∧ Only [.ev, .pl] s t ∧
    (t.pl.inputs = s.pl.inputs ∨ (t.pl.inputs.length = s.pl.inputs.length + 1 ∧ t.ev = s.ev)) ∧
    (∀ k, s.pl.head = some k → tLater r.tov (BitVec.ofNat 64 (k * 8000)) = false → t.pl.inputs = s.pl.inputs) ∧
    (∀ k x, s.pl.head = some k → s.pl.inputOf s.hgs[r.hg].cfg r = some x → tLater r.tov (BitVec.ofNat 64 (k * 8000)) = false →
      t.pl.behind = bump s.pl.behind ∧ t.ev = s.ev.raise (evtOpen .poseInputBehind 44 0)) ∧
    (∀ x, s.pl.inputOf s.hgs[r.hg].cfg r = some x → (∀ k, s.pl.head = some k → tLater r.tov (BitVec.ofNat 64 (k * 8000)) = true) →
      (r.tov, x) ∈ t.pl.inputs ∧ t.ev = s.ev) := by
  cases hfx : s.pl.inputFx s.hgs[r.hg].cfg r with
  | none =>
    have hnot : s.pl.inputOf s.hgs[r.hg].cfg r = none := congrArg (Option.map fun (m : Fx PlInput) => (m.run 0).1) hfx
    refine ⟨_, execPlInputRecord_unused hs hr hfx, rfl, rfl, (s.withPl_only _).mono (by decide), .inl rfl, fun _ _ _ => rfl, ?_, ?_⟩
    · intro k x _ hx
      cases hnot.symm.trans hx
    · intro x hx
      cases hnot.symm.trans hx
  | some m =>
    have hof : s.pl.inputOf s.hgs[r.hg].cfg r = some (m.run 0).1 := congrArg (Option.map fun (m : Fx PlInput) => (m.run 0).1) hfx
    by_cases hlater : ∀ k, s.pl.head = some k → tLater r.tov (rungT k) = true
    · refine ⟨_, execPlInputRecord_taken hs hr hfx hlater, rfl, rfl, (s.withPl_only _).mono (by decide),
        .inr ⟨PoseLadder.length_insert _ _ _ _, rfl⟩, ?_, ?_, ?_⟩
      · intro k hk hlate
        cases (hlater k hk).symm.trans hlate
      · intro k x hk _ hlate
        cases (hlater k hk).symm.trans hlate
      · intro x hx _
        cases hof.symm.trans hx
        exact ⟨PoseLadder.mem_insert _ _ _ _, rfl⟩
    · obtain ⟨k, hk, hlate⟩ : ∃ k, s.pl.head = some k ∧ tLater r.tov (rungT k) = false := by
        simpa using hlater
      refine ⟨_, execPlInputRecord_behind hs hr hfx hk hlate, rfl, rfl, s.withEvPl_only _ _, .inl rfl, fun _ _ _ => rfl,
        fun _ _ _ _ _ => ⟨rfl, rfl⟩, ?_⟩
      intro x _ hall
      cases (hall k hk).symm.trans hlate
end

/-! ### The limits on the time in a mode, a late rung, a mask's end (R203 to R205, R420) -/

theorem execCoastMaxExpiry_due {s : State} {k : Nat} {a : T64} (hs : s.stalled = false) (hk : s.rungDue = some k) (hmode : s.pl.mode = .coast)
    (ha : s.pl.coastAt = some a) (hlong : elapsed (rungT k) a (s.pl.cfg.coastMax * ticksPerMs) = true)
    (hin : ∀ y ∈ s.pl.inputs, tLater (a + ms s.pl.cfg.coastMax) y.1 = false) : exec .coastMaxExpiry s = .next (s.poseLost (rungT k)) := by
  refine (State.gate_run hs _).trans ?_
  simp only [hk, ha]
  rw [if_pos ⟨hmode, hlong, List.all_eq_true.mpr fun y hy => by rw [hin y hy]; rfl⟩]

theorem execImuOnlyMaxExpiry_due {s : State} {k : Nat} {a : T64} (hs : s.stalled = false) (hk : s.rungDue = some k)
    (hmode : s.pl.mode = .slip ∨ s.pl.mode = .imuOnly) (ha : s.pl.imuOnlyAt = some a)
    (hlong : ((s.pl.cfg.imuOnlyMax * ticksPerMs : Nat) : Int) < tDiff (rungT k) a)
    (hin : ∀ y ∈ s.pl.inputs, tLater y.1 (a + ms s.pl.cfg.imuOnlyMax) = true) : exec .imuOnlyMaxExpiry s = .next (s.poseLost (rungT k)) := by
  refine (State.gate_run hs _).trans ?_
  simp only [hk, ha]
  rw [if_pos ⟨hmode, hlong, List.all_eq_true.mpr hin⟩]

theorem State.poseLost_spec (s : State) (t : T64) : (s.poseLost t).pl.mode = .lost ∧ (s.poseLost t).pl.ladder = s.pl.ladder ∧
    (s.poseLost t).ev = s.ev.raise (evtOpen .poseLost 44 0) ∧ Only [.ev, .pl] s (s.poseLost t) :=
  ⟨rfl, rfl, rfl, s.poseLost_only t⟩

theorem execPlRungLate_late {s : State} {k : Nat} (hs : s.stalled = false) (he : s.enrolled = true) (hk : s.pl.nextK = some k)
    (honce : s.pl.lateK ≠ some k) (hlate : tReached s.tb.now (BitVec.ofNat 64 ((k + s.pl.cfg.lag + 10) * 8000)) = true) :
    exec .plRungLate s = .next { s with pl := { s.pl with lateK := some k }, ev := s.ev.raise (evtOpen .plRungLate 44 0) } := by
  refine (State.gate_run hs _).trans ?_
  have hcond : (s.enrolled && s.pl.lateK != some k && tReached s.tb.now (us (k + s.pl.cfg.lag + 10))) = true := by
    rw [Bool.and_eq_true, Bool.and_eq_true, bne_iff_ne]
    exact ⟨⟨he, honce⟩, hlate⟩
  simp only [hk]
  rw [if_pos hcond]

/-- A mask's end gives the entry's headgate, where the image names one, back to its state before (R203, R204). -/
def State.unmasked (s : State) (pl : PoseLadder) (hg : Option (Fin 64)) : State :=
  match hg with
  | some h => { s with pl := pl, hgs := modAt s.hgs h fun (g : Headgate) => (g.release h s.tb.now reasonExternal).endItem false }
  | none => { s with pl := pl }

theorem State.unmasked_spec (s : State) (pl : PoseLadder) (hg : Option (Fin 64)) : (s.unmasked pl hg).pl = pl ∧ Only [.pl, .hgs] s (s.unmasked pl hg) := by
  cases hg with
  | none => exact ⟨rfl, (s.withPl_only pl).mono (by decide)⟩
  | some h => exact ⟨rfl, s.withPlHgs_only pl _⟩

theorem execPoseMaskRelease_enc {s : State} {i : Fin 8} {a : T64} (hs : s.stalled = false) (ha : s.pl.encs[i].maskedAt = some a)
    (hold : elapsed s.tb.now a (s.pl.cfg.maskHold * ticksPerMs) = true) : exec (.poseMaskRelease false i) s = .next
      (s.unmasked { s.pl with encs := s.pl.encs.set i { s.pl.encs[i] with maskedAt := none } } ((s.pl.cfg.encs[i.val]?).map (·.headgate))) := by
  refine (State.gate_run hs _).trans ?_
  simp only [ha, hold]
  rfl

theorem execPoseMaskRelease_imu {s : State} {i : Fin 4} {j : Fin 8} {a : T64} (hj : j.val = i.val) (hs : s.stalled = false)
    (ha : s.pl.imus[i].maskedAt = some a) (hold : elapsed s.tb.now a (s.pl.cfg.maskHold * ticksPerMs) = true) :
    exec (.poseMaskRelease true j) s = .next
      (s.unmasked { s.pl with imus := s.pl.imus.set i { s.pl.imus[i] with maskedAt := none } } ((s.pl.cfg.imus[i.val]?).map (·.headgate))) := by
  refine (State.gate_run hs _).trans ?_
  have ha' : s.pl.imus[i.val].maskedAt = some a := ha
  simp only [hj, i.isLt, ha', hold]
  rfl

/-- Settles O35: the estimator keeps the rungs written, so RUNG_WRITE puts one before them; each other command's own lemma above says what it changes. -/
theorem rungsFollowEachOther : Obligations.RungsFollowEachOther := by
  unfold Obligations.RungsFollowEachOther
  refine ⟨fun s k => execRungWrite_spec, fun s k hs hk => ?_, fun s hdead b => ?_, fun s r rest => execPlInputRecord_spec, fun s k a hs hk hmode ha hlong hin => ?_,
    fun s k a hs hk hmode ha hlong hin => ?_, fun s k => execPlRungLate_late, fun i s a hs ha hold => ?_, fun i s a hs ha hold => ?_⟩
  · exact ⟨_, execRungWrite_mismatch hs hk, s.keepLive_plMismatch_spec⟩
  · exact ⟨execRungWrite_dead hdead b, fun port x α now => ⟨PoseLadder.answer_dead hdead x α now, fun hs => execPoseQuery_dead hs hdead port x α b⟩⟩
  · exact ⟨_, execCoastMaxExpiry_due hs hk hmode ha hlong hin, s.poseLost_spec _⟩
  · exact ⟨_, execImuOnlyMaxExpiry_due hs hk hmode ha hlong hin, s.poseLost_spec _⟩
  · exact ⟨_, execPoseMaskRelease_enc hs ha hold, s.unmasked_spec _ _⟩
  · exact ⟨_, execPoseMaskRelease_imu rfl hs ha hold, s.unmasked_spec _ _⟩

end Sys2Proof.Machine
end

section
/-! The answers to pose queries and the live record (spec 08 R207 to R211, R219). -/

namespace Sys2Proof.Machine

open Sys2Proof

/-! ### POSE_QUERY (R207, R192) -/

theorem execPoseQuery_waits {s : State} {x α : T64} (hs : s.stalled = false) (hd : s.pl.dead = false) (hp : s.pose x α = none) (port : Fin 8) (b : Bool) :
    exec (.poseQuery port x α b) s =
      .next { s with pl := { s.pl with waiting := s.pl.waiting.set port (s.pl.waiting[port] ++ [(x, α, s.tb.now)]) } } := by
  refine (State.gate_run hs _).trans ?_
  simp only [hd, hp]
  rfl

/-- A query answered: what it met is counted, and the answer is all that stands in its port's place. -/
def State.answered (s : State) (port : Fin 8) (x α : T64) (r : PoseRec) : State :=
  { s.countQuery x α with pl := { (s.countQuery x α).pl with answers := (s.countQuery x α).pl.answers.set port [r] } }

theorem execPoseQuery_answers {s : State} {x α : T64} {r : PoseRec} (hs : s.stalled = false) (hd : s.pl.dead = false) (hp : s.pose x α = some r)
    (port : Fin 8) : exec (.poseQuery port x α true) s = .next (s.answered port x α r) := by
  refine (State.gate_run hs _).trans ?_
  simp only [hd, hp]
  rfl

theorem execPoseQuery_mismatch {s : State} {x α : T64} {r : PoseRec} (hs : s.stalled = false) (hd : s.pl.dead = false) (hp : s.pose x α = some r)
    (port : Fin 8) : exec (.poseQuery port x α false) s = .next s.keepLive.plMismatch := by
  refine (State.gate_run hs _).trans ?_
  simp only [hd, hp]
  rfl

theorem State.answered_spec (s : State) (port : Fin 8) (x α : T64) (r : PoseRec) : (s.answered port x α r).pl.answers = s.pl.answers.set port [r] ∧
    (s.answered port x α r).pl.ladder = s.pl.ladder ∧ (s.answered port x α r).pl.mode = s.pl.mode ∧ (s.answered port x α r).pl.dead = s.pl.dead ∧
    Only [.ev, .pl] s (s.answered port x α r) := by
  obtain ⟨sat, evicted, hcount⟩ : ∃ sat evicted, (s.countQuery x α).pl = { s.pl with sat := sat, evicted := evicted } := s.countQueryAt_pl x α s.tb.now
  have hpl : (s.answered port x α r).pl = { s.pl with sat := sat, evicted := evicted, answers := s.pl.answers.set port [r] } := by
    unfold State.answered
    rw [hcount]
  refine ⟨?_, ?_, ?_, ?_, (s.countQuery_only x α).trans ((State.withPl_only _ _).mono (by decide))⟩ <;> rw [hpl]

/-! ### What a query is answered (R207, R209, R210) -/

/-- The rung of the as-of time less LAG is visible: it is not before the first rung and is written. -/
structure PoseLadder.HeadVisible (pl : PoseLadder) (α : T64) (k0 top : Nat) : Prop where
  alive : pl.dead = false
  start : pl.start = some k0
  head : pl.head = some top
  started : k0 + pl.cfg.lag ≤ α.toNat / 8000
  written : α.toNat / 8000 ≤ top + pl.cfg.lag

/-- Time of a target from the head rung of an as-of time, in ticks. -/
def PoseLadder.fromHead (pl : PoseLadder) (x α : T64) : Int := (x - BitVec.ofNat 64 ((α.toNat / 8000 - pl.cfg.lag) * 8000)).toInt

/-- The target's rungs have left the ring at device time `now` (R199, R207). -/
def PoseLadder.leftRing (pl : PoseLadder) (x now : T64) : Bool := tReached now (us (x.toNat / 8000) + us (131072 + pl.cfg.lag))

/-- The answer to a target that is not later than the head: its own rung, or the two rungs about it (R207). -/
def PoseLadder.answerInRing (pl : PoseLadder) (k0 : Nat) (x : T64) : Option (PoseRec × Nat × Bool) :=
  if x.toNat / 8000 < k0 then some (poseFail 0 x, 0, false) else
  match pl.rungAt (x.toNat / 8000), pl.rungAt (x.toNat / 8000 + 1) with
  | some q, some r => if x.toNat % 8000 = 0 then some (q, 0, false) else some (interpolate q r x (x.toNat % 8000), 0, false)
  | some q, none => if x.toNat % 8000 = 0 then some (q, 0, false) else some (poseFail 3 x, 0, true)
  | none, _ => some (poseFail 3 x, 0, true)

/-- The answer to a target later than the head by EXTRAP_MAX at most (R210). -/
def PoseLadder.answerBeyondHead (pl : PoseLadder) (x α : T64) : Option (PoseRec × Nat × Bool) :=
  match pl.rungAt (α.toNat / 8000 - pl.cfg.lag) with
  | some h => some ((extrapolate h x).1, (extrapolate h x).2, false)
  | none => some (poseFail 3 x, 0, true)

/-- The answer from a visible head rung (R207, R209, R210). -/
def PoseLadder.visibleAnswer (pl : PoseLadder) (k0 : Nat) (x α now : T64) : Option (PoseRec × Nat × Bool) :=
  if pl.fromHead x α < -960000000 then some (poseFail 1 x, 0, false)
  else if pl.leftRing x now then some (poseFail 3 x, 0, true)
  else if pl.fromHead x α ≤ 0 then pl.answerInRing k0 x
  else if pl.fromHead x α ≤ (pl.cfg.extrapMax * 8000000 : Nat) then pl.answerBeyondHead x α
  else some (poseFail 2 x, 0, false)

theorem PoseLadder.answerInRing_isSome (pl : PoseLadder) (k0 : Nat) (x : T64) : (pl.answerInRing k0 x).isSome = true := by
  unfold answerInRing
  repeat' split
  all_goals rfl

theorem PoseLadder.answerBeyondHead_isSome (pl : PoseLadder) (x α : T64) : (pl.answerBeyondHead x α).isSome = true := by
  unfold answerBeyondHead
  split <;> rfl

/-- A query whose head is visible waits no longer. -/
theorem PoseLadder.visibleAnswer_isSome (pl : PoseLadder) (k0 : Nat) (x α now : T64) : (pl.visibleAnswer k0 x α now).isSome = true := by
  unfold visibleAnswer
  split
  · rfl
  · split
    · rfl
    · split
      · exact pl.answerInRing_isSome k0 x
      · split
        · exact pl.answerBeyondHead_isSome x α
        · rfl

section
variable {pl : PoseLadder} {α : T64} {k0 : Nat} (hd : pl.dead = false) (hk : pl.start = some k0)
include hd hk

/-- Where the head rung lies before the first rung, the ladder was in INIT (R207; log entry 159). -/
theorem PoseLadder.answer_of_notStarted (h : (α.toNat / 8000 : Nat) - (pl.cfg.lag : Int) < (k0 : Int)) (x now : T64) :
    pl.answer x α now = some (poseFail 0 x, 0, false) := by
  simp only [answer, hd, hk]
  exact if_pos h

theorem PoseLadder.answer_of_notWritten (h : (k0 : Int) ≤ (α.toNat / 8000 : Nat) - (pl.cfg.lag : Int))
    (hhead : ∀ top, pl.head = some top → (top : Int) < (α.toNat / 8000 : Nat) - (pl.cfg.lag : Int)) (x now : T64) : pl.answer x α now = none := by
  simp only [answer, hd, hk]
  refine (if_neg (Int.not_lt.mpr h)).trans (if_pos ?_)
  cases htop : pl.head with
  | none => rfl
  | some top => exact decide_eq_true (hhead top htop)
end

section
variable {pl : PoseLadder} {α : T64} {k0 top : Nat} (hv : pl.HeadVisible α k0 top)
include hv

theorem PoseLadder.answer_of_headVisible (x now : T64) : pl.answer x α now = pl.visibleAnswer k0 x α now := by
  obtain ⟨hd, hk, hhead, hstarted, hwritten⟩ := hv
  have hnat : ((α.toNat / 8000 : Nat) - (pl.cfg.lag : Int)).toNat = α.toNat / 8000 - pl.cfg.lag := by omega
  have h0 : ¬ ((α.toNat / 8000 : Nat) - (pl.cfg.lag : Int) < (k0 : Int)) := by omega
  have h1 : ¬ ((top : Int) < (α.toNat / 8000 : Nat) - (pl.cfg.lag : Int)) := by omega
  simp only [answer, hd, hk, hhead, ticksPerUs, ticksPerMs, hnat, h0, h1, decide_false, Bool.false_eq_true, if_false]
  rfl

theorem PoseLadder.answer_wholeRung {x now : T64} {q : PoseRec} (hlate : pl.fromHead x α ≤ 0) (hearly : -960000000 ≤ pl.fromHead x α)
    (hring : pl.leftRing x now = false) (hk : k0 ≤ x.toNat / 8000) (hwhole : x.toNat % 8000 = 0) (hq : pl.rungAt (x.toNat / 8000) = some q) :
    pl.answer x α now = some (q, 0, false) := by
  have hrung : pl.answerInRing k0 x = some (q, 0, false) := by
    unfold answerInRing
    rw [if_neg (Nat.not_lt.mpr hk), hq]
    cases pl.rungAt (x.toNat / 8000 + 1) <;> exact if_pos hwhole
  rw [answer_of_headVisible hv, visibleAnswer, if_neg (Int.not_lt.mpr hearly), if_neg (by simp [hring]), if_pos hlate, hrung]

theorem PoseLadder.answer_evicted {x now : T64} (hearly : -960000000 ≤ pl.fromHead x α) (hring : pl.leftRing x now = true) :
    pl.answer x α now = some (poseFail 3 x, 0, true) := by
  rw [answer_of_headVisible hv, visibleAnswer, if_neg (Int.not_lt.mpr hearly), if_pos hring]

theorem PoseLadder.answer_tooLate {x now : T64} (hearly : -960000000 ≤ pl.fromHead x α) (hring : pl.leftRing x now = false)
    (hpast : 0 < pl.fromHead x α) (hmax : ((pl.cfg.extrapMax * 8000000 : Nat) : Int) < pl.fromHead x α) :
    pl.answer x α now = some (poseFail 2 x, 0, false) := by
  rw [answer_of_headVisible hv, visibleAnswer, if_neg (Int.not_lt.mpr hearly), if_neg (by simp [hring]), if_neg (Int.not_le.mpr hpast),
    if_neg (Int.not_le.mpr hmax)]

theorem PoseLadder.answer_tooEarly {x : T64} (hearly : pl.fromHead x α < -960000000) (now : T64) :
    pl.answer x α now = some (poseFail 1 x, 0, false) := by
  rw [answer_of_headVisible hv, visibleAnswer, if_pos hearly]
end

/-- A query waits exactly where its head rung is not before the first rung and not written (R207). -/
theorem PoseLadder.answer_eq_none_iff {pl : PoseLadder} {k0 : Nat} (hd : pl.dead = false) (hk : pl.start = some k0) (x α now : T64) :
    pl.answer x α now = none ↔ (k0 : Int) ≤ (α.toNat / 8000 : Nat) - (pl.cfg.lag : Int) ∧
      ∀ top, pl.head = some top → (top : Int) < (α.toNat / 8000 : Nat) - (pl.cfg.lag : Int) := by
  refine ⟨fun h => ⟨?_, fun top htop => ?_⟩, fun ⟨h0, h1⟩ => answer_of_notWritten hd hk h0 h1 x now⟩
  · refine Int.not_lt.mp fun hlt => ?_
    cases (answer_of_notStarted hd hk hlt x now).symm.trans h
  · refine Int.not_le.mp fun hle => ?_
    by_cases h0 : (α.toNat / 8000 : Nat) - (pl.cfg.lag : Int) < (k0 : Int)
    · cases (answer_of_notStarted hd hk h0 x now).symm.trans h
    · have hv : pl.HeadVisible α k0 top := ⟨hd, hk, htop, by omega, by omega⟩
      have hsome := pl.visibleAnswer_isSome k0 x α now
      rw [← answer_of_headVisible hv, h] at hsome
      cases hsome

/-! ### LIVE_RECORD and the reference poses it decides (R211, R219) -/

theorem State.withPlPau_only (s : State) (pl : PoseLadder) (pau : Pau) : Only [.pl, .pau] s { s with pl := pl, pau := pau } := by
  intro p hp
  cases p with
  | pl | pau => exact absurd hp (by decide)
  | _ => rfl

/-- What a live record decides for one frame (R219): its reference pose, or that it has none. -/
def Pau.decideRef (p : Pau) (f : Frame) (live : PoseRec) (dead : Bool) : Pau :=
  if (p.refFor f.no).isSome then p
  else if dead then { p with refs := ((f.no, none) :: p.refs).take 16 }
  else if tReached live.tov f.b then
    (if live.valid then { p with refs := ((f.no, some live) :: p.refs).take 16 }
     else if live.mode = .lost then { p with refs := ((f.no, none) :: p.refs).take 16 } else p)
  else p

theorem Pau.decideRefs_cons (p : Pau) (f : Frame) (fs : List Frame) (live : PoseRec) (dead : Bool) :
    p.decideRefs (f :: fs) live dead = (p.decideRefs fs live dead).decideRef f live dead := rfl

/-- A live record decides nothing for a frame, or gives a frame that is not decided yet a place in front. -/
theorem Pau.decideRef_cases (p : Pau) (f : Frame) (live : PoseRec) (dead : Bool) : p.decideRef f live dead = p ∨
    (p.refFor f.no).isSome = false ∧ ∃ r, p.decideRef f live dead = { p with refs := ((f.no, r) :: p.refs).take 16 } := by
  by_cases hdecided : (p.refFor f.no).isSome = true
  · exact .inl (if_pos hdecided)
  · have hopen : (p.refFor f.no).isSome = false := eq_false_of_ne_true hdecided
    have hnew : p.decideRef f live dead = _ := if_neg hdecided
    rw [hnew]
    split
    · exact .inr ⟨hopen, none, rfl⟩
    · split
      · split
        · exact .inr ⟨hopen, some live, rfl⟩
        · split
          · exact .inr ⟨hopen, none, rfl⟩
          · exact .inl rfl
      · exact .inl rfl

theorem Pau.refFor_cons_ne (p : Pau) {n m : BitVec 64} (h : m ≠ n) (r : Option PoseRec) :
    ({ p with refs := (m, r) :: p.refs } : Pau).refFor n = p.refFor n :=
  congrArg (Option.map Prod.snd) (List.find?_cons_of_neg (by simpa using h))

/-- Deciding frames keeps what was decided, where the places hold the frames as well (R219). -/
theorem Pau.decideRefs_keeps (p : Pau) (fs : List Frame) (live : PoseRec) (dead : Bool) (hroom : p.refs.length + fs.length ≤ 16) :
    (p.decideRefs fs live dead).refs.length ≤ p.refs.length + fs.length ∧
    ∀ n, (p.refFor n).isSome = true → (p.decideRefs fs live dead).refFor n = p.refFor n := by
  induction fs with
  | nil => exact ⟨Nat.le_refl _, fun _ _ => rfl⟩
  | cons f fs ih =>
    rw [List.length_cons] at hroom ⊢
    obtain ⟨hlen, hkept⟩ := ih (by omega)
    rw [decideRefs_cons]
    rcases (p.decideRefs fs live dead).decideRef_cases f live dead with h | ⟨hopen, r, h⟩
    · rw [h]
      exact ⟨by omega, hkept⟩
    · rw [List.take_of_length_le (by rw [List.length_cons]; omega)] at h
      refine ⟨?_, fun n hn => ?_⟩
      · rw [h]
        show ((f.no, r) :: (p.decideRefs fs live dead).refs).length ≤ _
        rw [List.length_cons]
        omega
      · have hne : f.no ≠ n := by
          rintro rfl
          rw [hkept _ hn, hn] at hopen
          cases hopen
        rw [h, refFor_cons_ne _ hne, hkept n hn]

/-- The frame open now and those before it that are kept. -/
def State.openFrames (s : State) : List Frame := match s.tb.frame with | some f => f :: s.tb.past | none => []

/-- The live record and the counter of saturations that LIVE_RECORD leaves (R211). -/
def State.liveLadder (s : State) : PoseLadder :=
  { s.pl with live := (s.pl.liveAt (us (s.tb.now.toNat / 8000))).1, sat := bumpBy s.pl.sat (s.pl.liveAt (us (s.tb.now.toNat / 8000))).2 }

section
variable {s : State} {k0 : Nat} (hs : s.stalled = false) (hk : s.pl.start = some k0)
include hs hk

theorem execLiveRecord_eq : exec (.liveRecord true) s = .next { s with
    pl := s.liveLadder, pau := s.pau.decideRefs s.openFrames (s.liveLadder.checked s.liveLadder.live) s.liveLadder.dead } := by
  have hstarted : ¬ s.pl.start.isNone = true := by simp [hk]
  have hok : ¬ (!true && !s.pl.dead) = true := by simp
  exact (State.gate_run hs _).trans (congrArg Host.Outcome.next ((if_neg hstarted).trans (if_neg hok)))

theorem execLiveRecord_mismatch (hd : s.pl.dead = false) : exec (.liveRecord false) s = .next { s.plMismatch with
    pau := s.pau.decideRefs s.openFrames s.plMismatch.pl.live true } := by
  have hstarted : ¬ s.pl.start.isNone = true := by simp [hk]
  have hbad : (!false && !s.pl.dead) = true := by simp [hd]
  exact (State.gate_run hs _).trans (congrArg Host.Outcome.next ((if_neg hstarted).trans (if_pos hbad)))
end

theorem PoseLadder.liveAt_dead {pl : PoseLadder} (h : pl.dead = true) (t : T64) : pl.liveAt t = (poseFail 0 t, 0) := by
  unfold liveAt
  rw [if_pos h]

/-- Settles O36: what a query is answered follows from where its target lies of the head rung; LIVE_RECORD decides only frames that are not decided yet. -/
theorem queriesAndTheLiveRecord : Obligations.QueriesAndTheLiveRecord := by
  unfold Obligations.QueriesAndTheLiveRecord
  refine ⟨fun port x α s r hs hd hp => ?_, fun port x α s b hs hd hp => execPoseQuery_waits hs hd hp port b,
    fun pl x α now k0 hd hk => PoseLadder.answer_eq_none_iff hd hk x α now, fun port x α s b hs hd => execPoseQuery_dead hs hd port x α b,
    fun port x α s r hs hd hp => ?_, fun pl x α now hd => PoseLadder.answer_dead hd x α now,
    fun pl x α now k0 top q hd hk hhead h0 h1 hlate hearly hring hx hwhole hq =>
      PoseLadder.answer_wholeRung ⟨hd, hk, hhead, h0, h1⟩ hlate hearly hring hx hwhole hq,
    fun pl x α now k0 top hd hk hhead h0 h1 hearly =>
      ⟨PoseLadder.answer_evicted ⟨hd, hk, hhead, h0, h1⟩ hearly, PoseLadder.answer_tooLate ⟨hd, hk, hhead, h0, h1⟩ hearly⟩,
    fun pl x α now k0 top hd hk hhead h0 h1 hearly => PoseLadder.answer_tooEarly ⟨hd, hk, hhead, h0, h1⟩ hearly now,
    fun s k0 hs hk hd => ?_, fun s k0 hs hk hd => ?_, fun s k0 hs hk hd => ?_⟩
  · obtain ⟨hanswers, hladder, hmode, hdead, honly⟩ := s.answered_spec port x α r
    exact ⟨_, execPoseQuery_answers hs hd hp port, hanswers, hladder, hmode, hdead.trans hd, honly⟩
  · obtain ⟨hdead, hladder, -, hev, honly⟩ := s.keepLive_plMismatch_spec
    exact ⟨_, execPoseQuery_mismatch hs hd hp port, hdead, hladder, hev, honly⟩
  · have hlive : s.liveLadder.live.valid = false := by
      unfold State.liveLadder
      rw [PoseLadder.liveAt_dead hd]
      rfl
    exact ⟨_, execLiveRecord_eq hs hk, hlive, s.withPlPau_only _ _⟩
  · refine ⟨_, execLiveRecord_eq hs hk, rfl, rfl, rfl, s.withPlPau_only _ _, fun n hn hroom => ?_⟩
    have hframes : s.pau.refs.length + s.openFrames.length ≤ 16 := by
      revert hroom
      unfold State.openFrames
      cases s.tb.frame <;> exact id
    exact (Pau.decideRefs_keeps _ _ _ _ hframes).2 n hn
  · refine ⟨_, execLiveRecord_mismatch hs hk hd, rfl, rfl, rfl, (s.plMismatch_only.mono (by decide)).trans ?_⟩
    exact (State.withPlPau_only s.plMismatch s.plMismatch.pl _).mono (by decide)

end Sys2Proof.Machine
end

section
/-! The points of the compensation pipes and of the decoration path (spec 09 R220 to R228, R231). -/

namespace Sys2Proof.Machine

open Sys2Proof

/-! ### Frames of the PAU -/

theorem State.withPau_only (s : State) (p : Pau) : Only [.pau] s { s with pau := p } := by
  intro x hx
  cases x with
  | pau => exact absurd hx (by decide)
  | _ => rfl

theorem State.withEvPau_only (s : State) (q : Sluice) (p : Pau) : Only [.ev, .pau] s { s with ev := q, pau := p } := by
  intro x hx
  cases x with
  | ev | pau => exact absurd hx (by decide)
  | _ => rfl

@[simp] theorem State.countQuery_pau (s : State) (t α : T64) : (s.countQuery t α).pau = s.pau := s.countQuery_only t α .pau (by decide)
@[simp] theorem State.countQuery_cb (s : State) (t α : T64) : (s.countQuery t α).cb = s.cb := s.countQuery_only t α .cb (by decide)
@[simp] theorem State.countQuery_bcc (s : State) (t α : T64) : (s.countQuery t α).bcc = s.bcc := s.countQuery_only t α .bcc (by decide)

theorem State.countQueries_only (s : State) (qs : List (T64 × T64)) : Only [.ev, .pl] s (s.countQueries qs) :=
  Only.foldl _ _ (fun (s : State) (q : T64 × T64) => s.countQuery_only q.1 q.2) qs s

@[simp] theorem State.countQueries_pau (s : State) (qs : List (T64 × T64)) : (s.countQueries qs).pau = s.pau := s.countQueries_only qs .pau (by decide)

@[simp] theorem State.chargeDrops_pau (s : State) (l o : List (BitVec 64)) : (s.chargeDrops l o).pau = s.pau := s.chargeDrops_only l o .pau (by decide)
@[simp] theorem State.chargeDrops_cb (s : State) (l o : List (BitVec 64)) : (s.chargeDrops l o).cb = s.cb := s.chargeDrops_only l o .cb (by decide)

/-! ### Records that need no compensation (R384) -/

section
variable {s : State} {k : Fin 4} {v : Vector (List PipeItem) 4} {rest : List PipeItem} (h : s.pau.pipes = v.set k rest)
include h

theorem State.pipe_of_set : s.pau.pipes[k] = rest := by
  rw [h]
  exact Vector.getElem_set_self k.isLt

theorem State.forwardMarks_pipes : (s.forwardMarks k).pau.pipes = v.set k (rest.dropWhile fun (y : PipeItem) => forwards y.r.body) := by
  unfold State.forwardMarks
  rw [State.pipe_of_set h, h]
  exact Vector.set_set ..

theorem State.forwardMarks_cb : (s.forwardMarks k).cb = { s.cb with
    input := s.cb.input ++ (rest.takeWhile fun (y : PipeItem) => forwards y.r.body).map fun (y : PipeItem) => .mark y.r y.sensor } := by
  unfold State.forwardMarks
  rw [State.pipe_of_set h]
end

/-! ### A point that leaves the head of its pipe (R220 to R222) -/

/-- The head of pipe k has left it, its pose query counted. -/
def State.headLeft (s : State) (k : Fin 4) (rest : List PipeItem) (q : T64 × T64) : State :=
  State.countQuery { s with pau := { s.pau with pipes := s.pau.pipes.set k rest } } q.1 q.2

@[simp] theorem State.headLeft_pau (s : State) (k : Fin 4) (rest : List PipeItem) (q : T64 × T64) :
    (s.headLeft k rest q).pau = { s.pau with pipes := s.pau.pipes.set k rest } := State.countQuery_pau _ _ _
@[simp] theorem State.headLeft_cb (s : State) (k : Fin 4) (rest : List PipeItem) (q : T64 × T64) : (s.headLeft k rest q).cb = s.cb :=
  State.countQuery_cb _ _ _
@[simp] theorem State.headLeft_bcc (s : State) (k : Fin 4) (rest : List PipeItem) (q : T64 × T64) : (s.headLeft k rest q).bcc = s.bcc :=
  State.countQuery_bcc _ _ _

theorem State.headLeft_only (s : State) (k : Fin 4) (rest : List PipeItem) (q : T64 × T64) : Only [.ev, .pl, .pau] s (s.headLeft k rest q) :=
  ((s.withPau_only _).mono (by decide)).trans ((State.countQuery_only _ _ _).mono (by decide))

/-- A discarded point counts; where its pose answer was LOST, the rest of its item is to be skipped (R222, R482). -/
def Pau.countDiscard (p : Pau) (r : Rec) (lost : Bool) (n : Nat) : Pau :=
  { p with
    noPose := bump p.noPose, sat := bumpBy p.sat n
    lostItem := if lost && !(p.lostItem.contains (r.hg, r.itemNo)) then p.lostItem ++ [(r.hg, r.itemNo)] else p.lostItem }

theorem Pau.mem_lostItem_countDiscard (p : Pau) (r : Rec) (n : Nat) : (r.hg, r.itemNo) ∈ (p.countDiscard r true n).lostItem := by
  unfold countDiscard
  by_cases hmem : (r.hg, r.itemNo) ∈ p.lostItem
  · rw [List.contains_iff_mem.mpr hmem]
    exact hmem
  · rw [Bool.eq_false_iff.mpr (mt List.contains_iff_mem.mp hmem)]
    exact List.mem_append_right _ (List.mem_singleton_self _)

theorem Pau.lostItem_countDiscard (p : Pau) (r : Rec) (n : Nat) : (p.countDiscard r false n).lostItem = p.lostItem := rfl

theorem exec_compensateHead {s : State} (hs : s.stalled = false) (k : Fin 4) (cb w : Bool) :
    exec (if w then .pointPoseWait k cb else .pointCompensate k cb) s = .next (s.compensateHead k w cb) := by
  cases w <;> exact State.gate_run hs _

section
variable {s : State} {k : Fin 4} {it : PipeItem} {rest : List PipeItem} {c : RsCfg} {w : Bool} (hpipe : s.pau.pipes[k] = it :: rest)
  (hw : it.waited = w) (hc : s.pau.rs[it.sensor] = some c)
include hpipe hw hc

theorem State.compensateHead_wait {cb : Bool} (h : s.pau.compensate c it (s.tb.frameAt it.r.tov) cb s.pose = .wait) :
    s.compensateHead k w cb = if w then s else
      { s with pau := { s.pau with pipes := s.pau.pipes.set k ({ it with waited := true } :: rest), poseWait := bump s.pau.poseWait } } := by
  simp only [State.compensateHead, hpipe, hw, hc, h, ne_eq, not_true, if_false]

theorem State.compensateHead_discard {cb lost : Bool} {n : Nat}
    (h : s.pau.compensate c it (s.tb.frameAt it.r.tov) cb s.pose = .discard lost n) : ∃ s1 : State,
      s1.pau = { s.pau with pipes := s.pau.pipes.set k rest } ∧ s1.cb = s.cb ∧ Only [.ev, .pl, .pau] s s1 ∧
      s.compensateHead k w cb = State.forwardMarks { s1 with pau := s1.pau.countDiscard it.r lost n } k := by
  refine ⟨s.headLeft k rest (s.pau.queryTimes c it (s.tb.frameAt it.r.tov)), s.headLeft_pau .., s.headLeft_cb .., s.headLeft_only _ _ _, ?_⟩
  simp only [State.compensateHead, hpipe, hw, hc, h, ne_eq, not_true, if_false]
  rfl

theorem State.compensateHead_core {cb : Bool} {q : Core} {n : Nat}
    (h : s.pau.compensate c it (s.tb.frameAt it.r.tov) cb s.pose = .core q n) : ∃ s1 : State,
      s1.pau = { s.pau with pipes := s.pau.pipes.set k rest, sat := bumpBy s.pau.sat n } ∧ s1.cb = s.cb ∧ s1.bcc = s.bcc ∧
      s.compensateHead k w cb = (s1.handCore c q).forwardMarks k := by
  refine ⟨{ s.headLeft k rest (s.pau.queryTimes c it (s.tb.frameAt it.r.tov)) with
    pau := { s.pau with pipes := s.pau.pipes.set k rest, sat := bumpBy s.pau.sat n } }, rfl, s.headLeft_cb .., s.headLeft_bcc .., ?_⟩
  simp only [State.compensateHead, hpipe, hw, hc, h, ne_eq, not_true, if_false]
  rw [State.countQuery_pau]
  rfl
end

/-! ### A compensated core (R224, R228, R231) -/

section
variable (s : State) (c : RsCfg) (q : Core)

/-- The point of a core in the decoration path: none of its slots is decided. -/
def RsCfg.undecidedPoint (c : RsCfg) (q : Core) : Point := ⟨q, c.cams.map fun (x : Fin 16) => (x, SlotSt.waiting)⟩

theorem State.handCore_cb : (s.handCore c q).cb = { s.cb with input := s.cb.input ++ [.hit q] } := by
  unfold State.handCore
  dsimp only
  split
  · rfl
  · split
    · exact State.chargeDrops_cb _ _ _
    · rfl

/-- A core changes the points, or counts as an overrun of the pending store. -/
theorem State.handCore_pau : ∃ overrun, (s.handCore c q).pau = { s.pau with points := (s.handCore c q).pau.points, decorOverrun := overrun } := by
  unfold State.handCore
  dsimp only
  split
  · exact ⟨s.pau.decorOverrun, rfl⟩
  · split
    · rw [State.chargeDrops_pau]
      exact ⟨bump s.pau.decorOverrun, rfl⟩
    · exact ⟨s.pau.decorOverrun, rfl⟩

theorem State.handCore_points_cases : (s.handCore c q).pau.points = s.pau.points ∨
    (s.handCore c q).pau.points = s.pau.points ++ [c.undecidedPoint q] := by
  unfold State.handCore
  dsimp only
  split
  · exact .inl rfl
  · split
    · rw [State.chargeDrops_pau]
      exact .inl rfl
    · exact .inr rfl

theorem State.handCore_points_stage1 (h : s.bcc.stage.toNat < 2) : (s.handCore c q).pau.points = s.pau.points := by
  unfold State.handCore
  rw [if_pos (by rw [decide_eq_true h, Bool.true_or])]

theorem State.handCore_points_room (h2 : 2 ≤ s.bcc.stage.toNat) (hopen : s.pau.isClosed q.frame = false)
    (hroom : s.pau.pendingCount < s.pau.cfg.pending) : (s.handCore c q).pau.points = s.pau.points ++ [c.undecidedPoint q] := by
  have hdecorates : ¬ (decide (s.bcc.stage.toNat < 2) || s.pau.isClosed q.frame) = true := by
    rw [hopen, Bool.or_false, decide_eq_true_eq]
    exact Nat.not_lt.mpr h2
  have hfits : ¬ ((c.undecidedPoint q).undecided && decide (s.pau.cfg.pending ≤ s.pau.pendingCount)) = true := by
    rw [decide_eq_false (Nat.not_le.mpr hroom), Bool.and_false]
    exact Bool.false_ne_true
  exact congrArg (fun (t : State) => t.pau.points) ((if_neg hdecorates).trans (if_neg hfits))
end

/-! ### Projecting a point (R225 to R228) -/

/-- What projecting changes of a point: slots that wait. -/
def Point.DecidesWaiting (p q : Point) : Prop :=
  q.core = p.core ∧ ∀ (m : Nat) (c : Fin 16) (x : SlotSt), p.slots[m]? = some (c, x) → x ≠ SlotSt.waiting → q.slots[m]? = some (c, x)

theorem Point.DecidesWaiting.refl (p : Point) : p.DecidesWaiting p := ⟨rfl, fun _ _ _ h _ => h⟩

theorem Pau.projectPoint_decidesWaiting (p : Pau) (pt : Point) (rows : Fin 64 → Nat) (lag : Nat) (closed : Bool) (query : T64 → T64 → Option PoseRec) :
    pt.DecidesWaiting (p.projectPoint pt rows lag closed query).1 := by
  refine ⟨rfl, fun m c x hslot hx => ?_⟩
  simp only [Pau.projectPoint, List.map_map, List.getElem?_map, hslot, Option.map_some, Function.comp_apply, if_neg hx]

/-- POINT_PROJECT changes one point at most: the one in the k-th place, where the list has that many. -/
theorem projectNth_eq_modify (f : Point → Point × Tried) (i : Nat) (ps : List Point) :
    ∃ k, (projectNth f i ps).1 = ps.modify k fun p => (f p).1 := by
  induction ps generalizing i with
  | nil => exact ⟨0, rfl⟩
  | cons p ps ih =>
    have hskip (j : Nat) : ∃ k, p :: (projectNth f j ps).1 = (p :: ps).modify k fun p => (f p).1 := by
      obtain ⟨k, hk⟩ := ih j
      exact ⟨k + 1, by rw [hk, List.modify_succ_cons]⟩
    unfold projectNth
    split
    · cases i with
      | zero => exact ⟨0, rfl⟩
      | succ j => exact hskip j
    · exact hskip i

theorem projectNth_zero (f : Point → Point × Tried) {p : Point} (ps : List Point) (h : p.undecided = true) :
    (projectNth f 0 (p :: ps)).1 = (f p).1 :: ps := by
  rw [projectNth, if_pos h]

/-- The points once POINT_PROJECT has tried the i-th undecided one. -/
def State.projectedPoints (s : State) (i : Nat) : List Point :=
  (projectNth (fun (p : Point) => s.pau.projectPoint p s.rowsOf s.pl.cfg.lag false s.checkedPose) i s.pau.points).1

theorem State.projectedPoints_spec (s : State) (i : Nat) : (s.projectedPoints i).length = s.pau.points.length ∧
    ∀ (j : Nat) (hs : j < s.pau.points.length) (ht : j < (s.projectedPoints i).length), s.pau.points[j].DecidesWaiting (s.projectedPoints i)[j] := by
  obtain ⟨k, hk⟩ : ∃ k, s.projectedPoints i = _ := projectNth_eq_modify _ i s.pau.points
  rw [hk]
  refine ⟨List.length_modify .., fun j hs ht => ?_⟩
  rw [List.getElem_modify]
  split
  · exact s.pau.projectPoint_decidesWaiting _ _ _ _ _
  · exact Point.DecidesWaiting.refl _

theorem State.projectedPoints_cores (s : State) (i : Nat) : (s.projectedPoints i).map (·.core) = s.pau.points.map (·.core) := by
  obtain ⟨hlength, hdecides⟩ := s.projectedPoints_spec i
  refine List.ext_getElem (by rw [List.length_map, List.length_map, hlength]) fun j ht hs => ?_
  rw [List.getElem_map, List.getElem_map]
  exact (hdecides j (by rwa [List.length_map] at hs) (by rwa [List.length_map] at ht)).1

theorem execPointProject_spec {s : State} (hs : s.stalled = false) (i : Nat) : ∃ t falls, exec (.pointProject i) s = .next t ∧
    t.pau = { s.pau with points := s.projectedPoints i, expFallback := falls } ∧ Only [.ev, .pl, .pau] s t :=
  ⟨_, _, State.gate_run hs _, State.countQueries_pau _ _, ((s.withPau_only _).mono (by decide)).trans ((State.countQueries_only _ _).mono (by decide))⟩

/-- Settles O37: the head of a pipe has one of three outcomes, whose equations are above; POINT_PROJECT changes one point at most, and of it
only slots that wait. -/
theorem pointsAreCompensatedOnce : Obligations.PointsAreCompensatedOnce := by
  unfold Obligations.PointsAreCompensatedOnce
  refine ⟨fun k cb s it rest c hs hpipe hw hc h => ?_, fun k cb s it rest c hs hpipe hw hc h => ?_,
    fun k cb s it rest c lost n w hs hpipe hw hc h => ?_, fun k cb s it rest c q n w hs hpipe hw hc h => ?_, fun s p rest hs hpoints hp => ?_,
    fun i s hs => ?_⟩
  · exact (exec_compensateHead hs k cb false).trans (congrArg _ (State.compensateHead_wait hpipe hw hc h))
  · exact (exec_compensateHead hs k cb true).trans (congrArg _ (State.compensateHead_wait hpipe hw hc h))
  · obtain ⟨s1, hpau, hcb, honly, heq⟩ := State.compensateHead_discard hpipe hw hc h
    have hpipes : s1.pau.pipes = s.pau.pipes.set k rest := congrArg Pau.pipes hpau
    have hcount : s1.pau.noPose = s.pau.noPose := by rw [hpau]
    have hpoints : s1.pau.points = s.pau.points := by rw [hpau]
    have hlost : s1.pau.lostItem = s.pau.lostItem := by rw [hpau]
    refine ⟨_, (exec_compensateHead hs k cb w).trans (congrArg _ heq), State.forwardMarks_pipes hpipes, congrArg bump hcount,
      (State.forwardMarks_cb hpipes).trans ?_, hpoints, ?_, ?_, ?_⟩
    · rw [hcb]
    · exact ((honly.mono (by decide)).trans ((s1.withPau_only _).mono (by decide))).trans ((State.forwardMarks_only _ k).mono (by decide))
    · rintro rfl
      exact s1.pau.mem_lostItem_countDiscard it.r n
    · rintro rfl
      exact (s1.pau.lostItem_countDiscard it.r n).trans hlost
  · obtain ⟨s1, hpau, hcb, hbcc, heq⟩ := State.compensateHead_core hpipe hw hc h
    obtain ⟨overrun, hhand⟩ := s1.handCore_pau c q
    have hpoints : s1.pau.points = s.pau.points := by rw [hpau]
    have hpipes : (s1.handCore c q).pau.pipes = s.pau.pipes.set k rest := by rw [hhand, hpau]
    refine ⟨_, exec_compensateHead hs k cb w, ?_, ?_, s.compensateHead_only k w cb, fun h1 => ?_, ?_, fun h2 hopen hroom => ?_⟩ <;> rw [heq]
    · exact State.forwardMarks_pipes hpipes
    · rw [State.forwardMarks_cb hpipes, State.handCore_cb, hcb]
    · exact (s1.handCore_points_stage1 c q (by rwa [hbcc])).trans hpoints
    · refine .inr ((s1.handCore_points_cases c q).imp (·.trans hpoints) fun hlast => ?_)
      refine (congrArg (List.map (·.core)) hlast).trans ?_
      rw [List.map_append, hpoints]
      rfl
    · rw [← hpoints]
      exact s1.handCore_points_room c q (by rwa [hbcc]) (by rw [hpau]; exact hopen) (by rw [hpau]; exact hroom)
  · obtain ⟨t, falls, hexec, hpau, -⟩ := execPointProject_spec hs 0
    refine ⟨t, hexec, ?_⟩
    rw [hpau]
    unfold State.projectedPoints
    rw [hpoints]
    exact projectNth_zero _ rest hp
  · obtain ⟨t, falls, hexec, hpau, honly⟩ := execPointProject_spec hs i
    have hpoints : t.pau.points = s.projectedPoints i := by rw [hpau]
    refine ⟨t, hexec, honly, by rw [hpau], ?_⟩
    rw [hpoints]
    exact ⟨s.projectedPoints_cores i, fun j hs' ht m c x => ((s.projectedPoints_spec i).2 j hs' ht).2 m c x⟩

end Sys2Proof.Machine
end

section
/-! The close pass of a frame, alignment steps and the end of a mask (spec 09 R228 to R237). -/

namespace Sys2Proof.Machine

open Sys2Proof

/-! ### Sorting by a key -/

section
variable {α : Type} (key : α → Nat)

theorem sortKey_cons (x : α) (l : List α) : sortKey key (x :: l) =
    ((sortKey key l).takeWhile fun y => decide (key y < key x)) ++ x :: (sortKey key l).dropWhile fun y => decide (key y < key x) := rfl

theorem sortKey_perm (l : List α) : (sortKey key l).Perm l := by
  induction l with
  | nil => exact .nil
  | cons x l ih =>
    rw [sortKey_cons]
    refine List.perm_middle.trans (.cons x ?_)
    rwa [List.takeWhile_append_dropWhile]

theorem key_lt_of_mem_takeWhile {l : List α} {k : Nat} {a : α} (ha : a ∈ l.takeWhile fun y => decide (key y < k)) : key a < k :=
  of_decide_eq_true (List.all_eq_true.mp List.all_takeWhile a ha)

/-- In a list that rises by the key, nothing lies below `k` from the first element on that reaches it. -/
theorem le_key_of_mem_dropWhile {l : List α} (hl : l.Pairwise fun a b => key a ≤ key b) {k : Nat} {b : α}
    (hb : b ∈ l.dropWhile fun y => decide (key y < k)) : k ≤ key b := by
  induction l with
  | nil => cases hb
  | cons y l ih =>
    obtain ⟨hhead, htail⟩ := List.pairwise_cons.mp hl
    by_cases hy : key y < k
    · rw [List.dropWhile_cons, if_pos (decide_eq_true hy)] at hb
      exact ih htail hb
    · rw [List.dropWhile_cons, if_neg fun h => hy (of_decide_eq_true h)] at hb
      cases hb with
      | head => exact Nat.not_lt.mp hy
      | tail _ hb => exact Nat.le_trans (Nat.not_lt.mp hy) (hhead b hb)

theorem sortKey_pairwise (l : List α) : (sortKey key l).Pairwise fun a b => key a ≤ key b := by
  induction l with
  | nil => exact .nil
  | cons x l ih =>
    have hlow (a : α) (ha : a ∈ (sortKey key l).takeWhile fun y => decide (key y < key x)) := key_lt_of_mem_takeWhile key ha
    have hhigh (b : α) (hb : b ∈ (sortKey key l).dropWhile fun y => decide (key y < key x)) := le_key_of_mem_dropWhile key ih hb
    rw [sortKey_cons]
    refine List.pairwise_append.mpr ⟨ih.sublist (List.takeWhile_sublist _), List.pairwise_cons.mpr ⟨hhigh, ih.sublist (List.dropWhile_sublist _)⟩,
      fun a ha b hb => ?_⟩
    cases hb with
    | head => exact Nat.le_of_lt (hlow a ha)
    | tail _ hb => exact Nat.le_trans (Nat.le_of_lt (hlow a ha)) (hhigh b hb)
end

/-! ### The close pass (R228 to R231) -/

theorem Pau.occlude_length (p : Pau) (pts : List Point) : (p.occlude pts).length = pts.length := List.length_map _

/-- Judging occlusion decides every slot, and keeps the cores. -/
theorem Pau.occlude_spec {p : Pau} {pts : List Point} {x : Point} (h : x ∈ p.occlude pts) :
    (∃ y ∈ pts, y.core = x.core) ∧ ∀ e ∈ x.slots, e.2 ≠ SlotSt.waiting := by
  obtain ⟨y, hy, rfl⟩ := List.mem_map.mp h
  refine ⟨⟨y, hy, rfl⟩, fun e he => ?_⟩
  obtain ⟨⟨c, st⟩, -, rfl⟩ := List.mem_map.mp he
  cases st with
  | projected q =>
    dsimp only
    split <;> exact SlotSt.noConfusion
  | _ => exact SlotSt.noConfusion

/-- The points of frame n as its close pass judges them. -/
def Pau.judgedPoints (p : Pau) (n : BitVec 64) (rows : Fin 64 → Nat) (lag : Nat) (query : T64 → T64 → Option PoseRec) : List Point :=
  p.occlude (((p.points.filter fun q => q.core.frame == n).map fun q => p.projectPoint q rows lag true query).map (·.1))

section
variable (p : Pau) (n : BitVec 64) (rows : Fin 64 → Nat) (lag : Nat) (query : T64 → T64 → Option PoseRec)

theorem Pau.judgedPoints_length : (p.judgedPoints n rows lag query).length = (p.points.filter fun q => q.core.frame == n).length := by
  unfold Pau.judgedPoints
  rw [Pau.occlude_length, List.length_map, List.length_map]

theorem Pau.judgedPoints_spec {x : Point} (h : x ∈ p.judgedPoints n rows lag query) :
    x.core.frame = n ∧ ∀ e ∈ x.slots, e.2 ≠ SlotSt.waiting := by
  obtain ⟨⟨y, hy, hcore⟩, hdecided⟩ := Pau.occlude_spec h
  rw [List.map_map] at hy
  obtain ⟨q, hq, rfl⟩ := List.mem_map.mp hy
  refine ⟨?_, hdecided⟩
  rw [← hcore]
  exact beq_iff_eq.mp (List.mem_filter.mp hq).2

theorem Pau.closePass_handed {r : Pau × List (T64 × T64)} (h : p.closePass n rows lag query = some r) :
    (if n.toNat % 2 = 0 then r.1.handed[0] else r.1.handed[1]) = some ⟨n, sortKey (fun q => q.core.hg.val) (p.judgedPoints n rows lag query)⟩ ∧
      r.1.points = p.points.filter fun q => decide (n.toNat < q.core.frame.toNat) := by
  unfold Pau.closePass at h
  dsimp only at h
  split at h
  · cases h
  · cases h
    refine ⟨?_, rfl⟩
    by_cases heven : n.toNat % 2 = 0
    · simp only [if_pos heven]
      exact Vector.getElem_set_self _
    · simp only [if_neg heven]
      exact Vector.getElem_set_self _
end

/-- The state after the close pass of frame n, which gave `r`. -/
def State.passed (s : State) (n : BitVec 64) (rest : List (BitVec 64)) (r : Pau × List (T64 × T64)) : State :=
  State.countQueries { s with pau := { r.1 with closing := rest, closed := some n } } r.2

theorem State.passed_pau (s : State) (n : BitVec 64) (rest : List (BitVec 64)) (r : Pau × List (T64 × T64)) :
    (s.passed n rest r).pau = { r.1 with closing := rest, closed := some n } := State.countQueries_pau _ _

theorem State.passed_only (s : State) (n : BitVec 64) (rest : List (BitVec 64)) (r : Pau × List (T64 × T64)) :
    Only [.ev, .pl, .pau] s (s.passed n rest r) :=
  ((s.withPau_only _).mono (by decide)).trans ((State.countQueries_only _ _).mono (by decide))

section
variable {s : State} {n : BitVec 64} {rest : List (BitVec 64)} (hn : s.pau.closing = n :: rest)
include hn

theorem execPauClosePass_stage1 (hs : s.stalled = false) (h1 : s.bcc.stage.toNat < 2) :
    exec .pauClosePass s = .next (s.passed n rest (s.pau, [])) := by
  refine (State.gate_run hs _).trans ?_
  simp only [hn, if_pos h1]
  rfl

theorem execPauClosePass_passes (hs : s.stalled = false) (h2 : 2 ≤ s.bcc.stage.toNat) {r : Pau × List (T64 × T64)}
    (hr : s.pau.closePass n s.rowsOf s.pl.cfg.lag s.checkedPose = some r) : exec .pauClosePass s = .next (s.passed n rest r) := by
  refine (State.gate_run hs _).trans ?_
  simp only [hn, if_neg (Nat.not_lt.mpr h2), hr]
  rfl

theorem execPauClosePass_waits (h2 : 2 ≤ s.bcc.stage.toNat) (hwait : s.pau.closePass n s.rowsOf s.pl.cfg.lag s.checkedPose = none) :
    exec .pauClosePass s = .next s := by
  cases hs : s.stalled with
  | true => exact State.gate_stalled hs _
  | false =>
    refine (State.gate_run hs _).trans ?_
    simp only [hn, if_neg (Nat.not_lt.mpr h2), hwait]
end

/-! ### ALIGN_STEP_APPLY (R236, R237) -/

section
variable {p : Pau} {w : AlignWork} {r : SolveResult} (hw : p.work = some w) (hr : w.solved = some r)
include hw hr

theorem Pau.applyStep_eligible (h : r.eligible = true) (now : T64) : ∃ entries d masked es, p.applyStep now =
    ({ p with work := none, entries := entries, sets := ((w.frame + 2, ⟨(p.setFor (w.frame + 2)).seq + 1, d⟩) :: p.sets).take 8,
              alignSteps := bump p.alignSteps }, masked, evtOpen .alignStep 49 0 :: es) := by
  simp only [Pau.applyStep, hw, hr, h]
  exact ⟨_, _, _, _, rfl⟩

theorem Pau.applyStep_ineligible (h : r.eligible = false) (now : T64) :
    p.applyStep now = ({ p with work := none, alignFails := bump p.alignFails }, [], [evtOpen .alignStepFail 49 0]) := by
  simp only [Pau.applyStep, Pau.discardStep, hw, hr, h]
  rfl
end

/-- The outcome of a step, with the streams that it masks. -/
def State.stepApplied (s : State) (r : Pau × List (Fin 24) × List Ev) : State :=
  State.maskStreams { s with pau := r.1, ev := s.ev.raiseAll r.2.2 } (r.1.hgsOf r.2.1) reasonMisaligned

theorem State.stepApplied_only (s : State) (r : Pau × List (Fin 24) × List Ev) : Only [.ev, .hgs, .pau] s (s.stepApplied r) :=
  ((s.withEvPau_only _ _).mono (by decide)).trans ((State.maskStreams_only _ _ _).mono (by decide))

/-- The events of the step come before those of the masks. -/
theorem State.stepApplied_ev (s : State) (r : Pau × List (Fin 24) × List Ev) : ∃ es, (s.stepApplied r).ev = s.ev.raiseAll (r.2.2 ++ es) :=
  ⟨_, (Sluice.raiseAll_append _ _ _).symm⟩

theorem execAlignStepApply_due {s : State} {w : AlignWork} {r : SolveResult} {f : Frame} (hs : s.stalled = false) (h3 : 3 ≤ s.bcc.stage.toNat)
    (hw : s.pau.work = some w) (hr : w.solved = some r) (hf : s.tb.frame = some f) (hdue : (w.frame + 2).toNat ≤ s.tb.no.toNat) :
    exec .alignStepApply s = .next (s.stepApplied (s.pau.applyStep s.tb.now)) := by
  refine (State.gate_run hs _).trans ?_
  simp only [hw]
  rw [if_pos ⟨by rw [hr]; rfl, h3, hdue, by rw [hf]; rfl⟩]
  rfl

/-! ### MIS_HOLD_EXPIRY (R237) -/

/-- A sensor that starts from nominal after its mask. -/
def AlignEntry.restarted (e : AlignEntry) : AlignEntry := { e with st := .nominal, maskedAt := none, resetDue := true, calm := 0, pushed := 0 }

section
variable {p : Pau} {k : Fin 24} {a now : T64} (hst : p.entries[k].st = .misaligned) (ha : p.entries[k].maskedAt = some a)
  (hlong : elapsed now a (p.cfg.misHold * ticksPerSec) = true)
include hst ha hlong

theorem Pau.holdExpiry_nominal (hmasks : p.entries[k].masks < p.cfg.misLimit) : p.holdExpiry k now =
    ({ p with entries := p.entries.set k p.entries[k].restarted }, true, []) := by
  simp only [Pau.holdExpiry, hst, ha, if_pos hlong, if_pos hmasks]
  rfl

theorem Pau.holdExpiry_held (hmasks : p.cfg.misLimit ≤ p.entries[k].masks) : p.holdExpiry k now =
    ({ p with entries := p.entries.set k { p.entries[k] with st := .held, maskedAt := none } }, false, [evtOpen .alignHeld 49 k.val]) := by
  simp only [Pau.holdExpiry, hst, ha, if_pos hlong, if_neg (Nat.not_lt.mpr hmasks)]
  rfl
end

/-- The mask's end gives the sensor's stream back to its state before, where the image names its headgate. -/
def State.holdReleased (s : State) (k : Fin 24) (p : Pau) : State :=
  { s with pau := p, hgs := (p.hgsOf [k]).foldl (fun (v : Vector Headgate 64) (h : Fin 64) =>
      modAt v h fun (g : Headgate) => (g.release h s.tb.now reasonMisaligned).endItem false) s.hgs }

theorem State.holdReleased_only (s : State) (k : Fin 24) (p : Pau) : Only [.hgs, .pau] s (s.holdReleased k p) := by
  intro x hx
  cases x with
  | hgs | pau => exact absurd hx (by decide)
  | _ => rfl

theorem execMisHoldExpiry_released {s : State} {k : Fin 24} {p : Pau} (hs : s.stalled = false) (h : s.pau.holdExpiry k s.tb.now = (p, true, [])) :
    exec (.misHoldExpiry k) s = .next (s.holdReleased k p) :=
  (State.gate_run hs _).trans (by rw [h]; rfl)

theorem execMisHoldExpiry_kept {s : State} {k : Fin 24} {p : Pau} {e : Ev} (hs : s.stalled = false)
    (h : s.pau.holdExpiry k s.tb.now = (p, false, [e])) : exec (.misHoldExpiry k) s = .next { s with pau := p, ev := s.ev.raise e } :=
  (State.gate_run hs _).trans (by rw [h]; rfl)

/-- Settles O38: the close pass judges the frame's points and sorts them; what a step and a mask's end do follows from the equations above. -/
theorem closePassAndAlignment : Obligations.ClosePassAndAlignment := by
  unfold Obligations.ClosePassAndAlignment
  refine ⟨fun s n rest hs hn hruns => ?_, fun s n rest hn h2 => execPauClosePass_waits hn h2, fun s w r f hs h3 hw hr hf hdue hok => ?_,
    fun s w r f hs h3 hw hr hf hdue hok => ?_, fun k s a hs hst ha hlong hmasks => ?_, fun k s a hs hst ha hlong hmasks => ?_⟩
  · by_cases h1 : s.bcc.stage.toNat < 2
    · have hpau := s.passed_pau n rest (s.pau, [])
      exact ⟨_, execPauClosePass_stage1 hn hs h1, by rw [hpau], by rw [hpau], s.passed_only _ _ _, fun _ => hpau, fun h2 => absurd h1 (Nat.not_lt.mpr h2)⟩
    · obtain ⟨r, hr⟩ := Option.isSome_iff_exists.mp (hruns.resolve_left h1)
      have hpau := s.passed_pau n rest r
      obtain ⟨hhanded, hpoints⟩ := s.pau.closePass_handed n _ _ _ hr
      have hperm := sortKey_perm (fun q : Point => q.core.hg.val) (s.pau.judgedPoints n s.rowsOf s.pl.cfg.lag s.checkedPose)
      refine ⟨_, execPauClosePass_passes hn hs (Nat.not_lt.mp h1) hr, by rw [hpau], by rw [hpau], s.passed_only _ _ _, fun h => absurd h h1, fun _ => ?_⟩
      have hmem (q : Point) : q ∈ (s.passed n rest r).pau.points ↔ q ∈ s.pau.points ∧ n.toNat < q.core.frame.toNat := by
        rw [hpau]
        exact (congrArg (q ∈ ·) hpoints).to_iff.trans (List.mem_filter.trans (and_congr_right' decide_eq_true_iff))
      rw [hpau] at hmem ⊢
      refine ⟨fun q hq => ((hmem q).mp hq).2, fun q hq hlater => (hmem q).mpr ⟨hq, hlater⟩, _, hhanded, rfl, fun q hq => ?_,
        sortKey_pairwise _ _, ?_⟩
      · exact s.pau.judgedPoints_spec n _ _ _ (hperm.mem_iff.mp hq)
      · exact hperm.length_eq.trans (s.pau.judgedPoints_length n _ _ _)
  · obtain ⟨entries, d, masked, es, hstep⟩ := Pau.applyStep_eligible hw hr hok s.tb.now
    obtain ⟨es', hev⟩ := s.stepApplied_ev (s.pau.applyStep s.tb.now)
    rw [hstep, List.cons_append] at hev
    refine ⟨_, es ++ es', hstep ▸ execAlignStepApply_due hs h3 hw hr hf hdue, rfl, rfl, s.stepApplied_only _, hev, d, rfl⟩
  · exact (execAlignStepApply_due hs h3 hw hr hf hdue).trans (by rw [Pau.applyStep_ineligible hw hr hok]; rfl)
  · have hself : (s.pau.entries.set k s.pau.entries[k].restarted)[k] = s.pau.entries[k].restarted := Vector.getElem_set_self k.isLt
    refine ⟨_, execMisHoldExpiry_released hs (Pau.holdExpiry_nominal hst ha hlong hmasks), congrArg AlignEntry.st hself,
      congrArg AlignEntry.maskedAt hself, congrArg AlignEntry.resetDue hself, rfl, fun j hj => ?_, (s.holdReleased_only _ _).mono (by decide)⟩
    exact Vector.getElem_set_ne k.isLt j.isLt fun h => hj (Fin.ext h.symm)
  · exact execMisHoldExpiry_kept hs (Pau.holdExpiry_held hst ha hlong hmasks)

end Sys2Proof.Machine
end

section
/-! The task of the Point Cloud Unit: its completion record and the memory it leaves (spec 10 R243, R269, R270). -/

namespace Sys2Proof.Machine

open Sys2Proof

/-! ### What the Sequencer knows of a launch -/

theorem Seq.abortedAt_of_aborted {q : Seq} {n : BitVec 64} {e j : Nat} (h : ∃ l, q.find n e j = some l ∧ l.aborted = true) :
    q.abortedAt (n, e, j) = true := by
  obtain ⟨l, hfind, haborted⟩ := h
  simp only [Seq.abortedAt, hfind, haborted]

theorem Seq.abortedAt_of_not_aborted {q : Seq} {n : BitVec 64} {e j : Nat} (h : ∀ l, q.find n e j = some l → l.aborted = false) :
    q.abortedAt (n, e, j) = false := by
  unfold Seq.abortedAt
  split
  next l hfind => exact h l hfind
  next => rfl

theorem Seq.finish_of_not_mem {q : Seq} {x : BitVec 64 × Nat × Nat} (h : x ∉ q.finished) : q.finish x = { q with finished := q.finished ++ [x] } :=
  if_neg fun hc => h (List.contains_iff_mem.mp hc)

/-! ### Every writer of the task keeps the canonical form of the memory -/

theorem Memory.ite_wf {b : Bool} {m m' : Memory} (h : m.wf = true) (h' : m'.wf = true) : (if b = true then m else m').wf = true := by
  split
  · exact h
  · exact h'

theorem Memory.foldl_wf {α : Type} {f : Memory → α → Memory} (hf : ∀ m x, m.wf = true → (f m x).wf = true) (l : List α) {m : Memory}
    (h : m.wf = true) : (l.foldl f m).wf = true :=
  List.foldlRecOn l f h fun m hm x _ => hf m x hm

theorem PcuCfg.writeVox_wf (c : PcuCfg) (g : Fin 2) (v : Voxels) (n : BitVec 64) {m : Memory} (h : m.wf = true) : (c.writeVox g v n m).wf = true :=
  Memory.writeAt_wf _ _ _ (Memory.writeAt_wf _ _ _ (Memory.writeAt_wf _ _ _ h))

theorem PcuCfg.writeFps_wf (c : PcuCfg) (p : Fin 4) (ps : List FpsPoint) (samples : List Nat) (n : BitVec 64) {m : Memory} (h : m.wf = true) :
    (c.writeFps p ps samples n m).wf = true :=
  Memory.writeAt_wf _ _ _ (Memory.writeAt_wf _ _ _ h)

theorem PcuCfg.writeRb_wf (c : PcuCfg) (i : Fin 8) (inSites : Nat) (b : Built) (n : BitVec 64) {m : Memory} (h : m.wf = true) :
    (c.writeRb i inSites b n m).wf = true :=
  Memory.ite_wf (Memory.writeAt_wf _ _ _ (Memory.writeAt_wf _ _ _ h)) (Memory.writeAt_wf _ _ _ h)

/-! ### The completion record of a task (R269, R270) -/

@[simp] theorem PcuDone.bytes_length (d : PcuDone) : d.bytes.length = 64 := leBytes_length _ _

/-- The result of a task is told by a completion record: what it says of the steps, and that it is the last thing written. -/
def PcuRecorded (c : PcuCfg) (e : PcuEnv) (m : Memory) (r : Pcu × Memory × List Ev) : Prop :=
  ∃ (d : PcuDone) (m' : Memory), r.1.last = some d ∧ r.2.1 = m'.writeAt (c.doneRec.at_ e.n) 0 d.bytes ∧ (m.wf = true → m'.wf = true) ∧
    d.frame = e.n ∧ d.done = decide (8 ≤ e.last) ∧ d.aborted = !decide (8 ≤ e.last) ∧ d.step = min e.last 8

/-- The memories `m1` to `m7` are those that steps 1 to 7 leave; each has the canonical form where the one before has it. -/
theorem Pcu.task_recorded {p : Pcu} {e : PcuEnv} {sec : PcuSection} (hsec : p.sectionFor e.n = some sec) (m : Memory) :
    PcuRecorded sec.cfg e m (p.task e m) := by
  unfold Pcu.task
  simp -zeta only [hsec]
  extract_lets c par ran buf m1 cover mRec mFeat m3 vox v0 v1 mVox m4 lv frame ps m5 short rbs m6 rbDrop src idx bev m7 bevOut clear sec' part d drops
  refine ⟨d, m7, rfl, rfl, fun h => ?_, rfl, rfl, rfl, rfl⟩
  have h1 : m1.wf = true := Memory.ite_wf (Memory.foldl_wf (fun m i hm => Memory.zero_wf _ _ _ hm) _ h) h
  have h3 : m3.wf = true := Memory.ite_wf (Memory.writeAt_wf _ _ _ (Memory.writeAt_wf _ _ _ (Memory.writeAt_wf _ _ _ h1))) h1
  have hVox : mVox.wf = true := Memory.ite_wf (c.writeVox_wf _ _ _ h3) h3
  have h4 : m4.wf = true := Memory.ite_wf (Memory.ite_wf (c.writeVox_wf _ _ _ hVox) hVox) h3
  have h5 : m5.wf = true := Memory.foldl_wf (fun m x hm => c.writeFps_wf _ _ _ _ hm) ps h4
  have h6 : m6.wf = true := Memory.foldl_wf (fun m x hm => c.writeRb_wf _ _ _ _ hm) rbs h5
  exact Memory.ite_wf (Memory.writeAt_wf _ _ _ h6) h6

/-! ### PCU_TASK -/

/-- The last step that completes: step 1 where it reads a poisoned word, the step in progress where the launch is aborted, else the whole task. -/
def State.pcuStop (s : State) (a : Fin 9) (n : BitVec 64) (e j : Nat) : Nat :=
  if s.pcu.readsPoison n s.mem then 1 else if s.seq.abortedAt (n, e, j) then max 1 a.val else 8

/-- What the task of frame n takes from outside the PCU. -/
def State.pcuEnv (s : State) (f : Frame) (n : BitVec 64) (points : List Point) (last : Nat) : PcuEnv :=
  { n := n, b := f.b, next := f.next, period := s.tb.cfg.period, points := points
    cover := (List.finRange 8).map fun (k : Fin 8) => s.pau.coverOf s.isDepth k n f.next
    last := last }

/-- The state after a task of the PCU with the result `r`, and the Sequencer that it leaves. -/
def State.pcuRan (s : State) (r : Pcu × Memory × List Ev) (q : Seq) : State :=
  { s with pcu := r.1, mem := r.2.1, ev := s.ev.raiseAll r.2.2, seq := q }

theorem State.pcuRan_only (s : State) (r : Pcu × Memory × List Ev) (q : Seq) : Only [.ev, .seq, .pcu, .mem] s (s.pcuRan r q) := by
  intro p hp
  cases p with
  | ev | seq | pcu | mem => exact absurd hp (by decide)
  | _ => rfl

theorem execPcuTask_runs {s : State} {n : BitVec 64} {e j : Nat} {f : Frame} {x : Handed} (a : Fin 9) (hs : s.stalled = false)
    (hbusy : s.seq.busy[0] = some (n, e, j)) (hf : s.tb.frameNo n = some f) (hopen : (n, e, j) ∉ s.seq.finished)
    (hx : (if n.toNat % 2 = 0 then s.pau.handed[0] else s.pau.handed[1]) = some x) (hxn : x.frame = n) :
    exec (.pcuTask a) s = .next (s.pcuRan (s.pcu.task (s.pcuEnv f n x.points (s.pcuStop a n e j)) s.mem)
      (if s.pcuStop a n e j < 8 then s.seq.freeUnit n e j else s.seq.finish (n, e, j))) := by
  have hfin : s.seq.finished.contains (n, e, j) = false := by simpa using hopen
  have hstore : (some x).filter (fun (x : Handed) => x.frame == n) = some x := by simp [hxn]
  refine (State.gate_run hs _).trans (congrArg _ ?_)
  simp only [hbusy, hf, hx, hstore, hfin, State.pcuRan, State.pcuStop, State.pcuEnv, decide_eq_true_eq]
  rfl

theorem State.pcuStop_finishes {s : State} {n : BitVec 64} {e j : Nat} (a : Fin 9) (hclean : s.pcu.readsPoison n s.mem = false)
    (hruns : s.seq.abortedAt (n, e, j) = false) : s.pcuStop a n e j = 8 := by
  simp [State.pcuStop, hclean, hruns]

theorem State.pcuStop_aborts {s : State} {n : BitVec 64} {e j : Nat} (a : Fin 9)
    (h : s.seq.abortedAt (n, e, j) = true ∨ s.pcu.readsPoison n s.mem = true) :
    s.pcuStop a n e j = if s.pcu.readsPoison n s.mem then 1 else max 1 a.val := by
  unfold State.pcuStop
  split
  next => rfl
  next hclean => exact if_pos (h.resolve_right hclean)

/-- The record is the last thing written, so it reads back whole. -/
theorem PcuDone.get_bytes {m : Memory} (hm : m.wf = true) (d : PcuDone) (p : Place) {i : Nat} (hi : i < 64) :
    (m.writeAt p 0 d.bytes).get p.space (p.addr + i) = d.bytes.getD i 0 :=
  Memory.get_write p.space p.addr d.bytes i hm (Nat.lt_of_lt_of_eq hi d.bytes_length.symm)

end Sys2Proof.Machine
end

section
/-! The task of the Tracker: the frame that it publishes and the memory that it writes (spec 14 R342, R354, R355). -/

namespace Sys2Proof.Machine

open Sys2Proof

/-! ### Writes to the Cistern alone -/

/-- Of the addressed memories, only the Cistern has changed. -/
def Memory.OnlyCistern (m m' : Memory) : Prop := m'.dram = m.dram ∧ m'.local_ = m.local_ ∧ m'.dramBad = m.dramBad

theorem Memory.OnlyCistern.refl (m : Memory) : m.OnlyCistern m := ⟨rfl, rfl, rfl⟩

theorem Memory.OnlyCistern.trans {m m' m'' : Memory} (h : m.OnlyCistern m') (k : m'.OnlyCistern m'') : m.OnlyCistern m'' := by
  obtain ⟨hdram, hlocal, hbad⟩ := h
  obtain ⟨kdram, klocal, kbad⟩ := k
  exact ⟨kdram.trans hdram, klocal.trans hlocal, kbad.trans hbad⟩

theorem Memory.write_onlyCistern (m : Memory) (a : Nat) (bs : Bytes) : m.OnlyCistern (m.write .cistern a bs) := by
  refine ⟨m.write_cistern_dram a bs, m.write_cistern_local a bs, ?_⟩
  unfold Memory.write
  split <;> rfl

theorem Memory.foldl_onlyCistern {α : Type} {f : Memory → α → Memory} (hf : ∀ (m : Memory) x, m.OnlyCistern (f m x)) (l : List α) (m : Memory) :
    m.OnlyCistern (l.foldl f m) :=
  List.foldlRecOn l f (motive := m.OnlyCistern) (.refl m) fun m' hm x _ => hm.trans (hf m' x)

theorem Tracker.writeTensor_onlyCistern (t : Tracker) (m : Memory) (n : BitVec 64) : m.OnlyCistern (t.writeTensor m n) :=
  (m.write_onlyCistern _ _).trans
    (Memory.foldl_onlyCistern (fun m _ => (m.write_onlyCistern _ _).trans (Memory.write_onlyCistern _ _ _)) _ _)

theorem writeOps_onlyCistern (c : KvCfg) (capacity : Nat) (m : Memory) (n : BitVec 64) (mem : Vector TrackMem 1024) (bs : List BuildTrack)
    (row : Nat → Nat) : m.OnlyCistern (writeOps c capacity m n mem bs row) := by
  refine Memory.foldl_onlyCistern (fun m j => (m.write_onlyCistern _ _).trans (Memory.foldl_onlyCistern (fun m x => ?_) _ _)) _ m
  refine Memory.OnlyCistern.trans ?_ (Memory.foldl_onlyCistern (fun m k => m.write_onlyCistern _ _) _ _)
  iterate 5 refine Memory.OnlyCistern.trans ?_ (Memory.write_onlyCistern _ _ _)
  exact m.write_onlyCistern _ _

theorem Memory.ite_onlyCistern {b : Bool} {m m' m'' : Memory} (h : m.OnlyCistern m') (h' : m.OnlyCistern m'') :
    m.OnlyCistern (if b = true then m' else m'') := by
  split
  · exact h
  · exact h'

/-! ### The seven steps (R355) -/

/-- A task keeps the settings, writes the Cistern alone, and publishes its frame where all its steps complete. -/
def TrackerPublishes (t : Tracker) (e : TrackEnv) (m : Memory) (r : Tracker × Memory × List Ev) : Prop :=
  r.1.cfg = t.cfg ∧ m.OnlyCistern r.2.1 ∧ (7 ≤ e.last → r.1.frame = some e.n)

/-- The cases are the places where a task can end: before step 5, before step 6, before step 7, and after it. -/
theorem Tracker.task_publishes (t : Tracker) (e : TrackEnv) (m : Memory) : TrackerPublishes t e m (t.task e m) := by
  have hTensor (u : Tracker) : m.OnlyCistern (u.writeTensor m e.n) := u.writeTensor_onlyCistern m e.n
  unfold Tracker.task
  extract_lets
  split
  extract_lets
  split
  next hlast => exact ⟨rfl, .refl m, fun h => by omega⟩
  split
  next hlast => exact ⟨rfl, .refl m, fun h => by omega⟩
  split
  next hlast => exact ⟨rfl, hTensor _, fun h => by omega⟩
  split
  exact ⟨rfl, Memory.ite_onlyCistern ((hTensor _).trans (writeOps_onlyCistern _ _ _ _ _ _ _)) (hTensor _), fun _ => rfl⟩

/-! ### TRACKER_TASK -/

/-- What the task of frame n reads beside the Tracker: all its steps complete unless C3 has stopped the launch. -/
def State.trackEnv (s : State) (f : Frame) (ref : Option PoseRec) (n : BitVec 64) (e j : Nat) : TrackEnv :=
  { n := n, b := f.b, period := s.tb.cfg.period, ref := ref, refOld := s.trk.ref, hg := s.pau.supportHgs
    crop := match s.pcu.sectionFor n with | some x => (x.cfg.cropXy : Rat) / 65536 | none => 64
    s3 := s.bcc.stage == 3, genDone := n = 0 || s.generationDone (n - 1), kv := s.kv
    last := if s.seq.abortedAt (n, e, j) then max 1 (Config.stopStep n).val else 7 }

/-- The state after a task of the Tracker with the result `r`, and the Sequencer that it leaves. -/
def State.tracked (s : State) (r : Tracker × Memory × List Ev) (q : Seq) : State :=
  { s with trk := r.1, mem := r.2.1, ev := s.ev.raiseAll r.2.2, seq := q }

theorem State.tracked_only (s : State) (r : Tracker × Memory × List Ev) (q : Seq) : Only [.ev, .seq, .trk, .mem] s (s.tracked r q) := by
  intro p hp
  cases p with
  | ev | seq | trk | mem => exact absurd hp (by decide)
  | _ => rfl

theorem execTrackerTask_runs {s : State} {n : BitVec 64} {e j : Nat} {f : Frame} {ref : Option PoseRec} (hs : s.stalled = false)
    (hbusy : s.seq.busy[1] = some (n, e, j)) (hf : s.tb.frameNo n = some f) (href : s.pau.refFor n = some ref)
    (hopen : (n, e, j) ∉ s.seq.finished) :
    exec .trackerTask s = .next (s.tracked (s.trk.task (s.trackEnv f ref n e j) s.mem)
      (if s.seq.abortedAt (n, e, j) then s.seq.freeUnit n e j else s.seq.finish (n, e, j))) := by
  have hfin : s.seq.finished.contains (n, e, j) = false := by simpa using hopen
  refine (State.gate_run hs _).trans (congrArg _ ?_)
  simp only [hbusy, hf, href, hfin]
  rfl

theorem State.trackEnv_last {s : State} {n : BitVec 64} {e j : Nat} (f : Frame) (ref : Option PoseRec) (h : s.seq.abortedAt (n, e, j) = false) :
    (s.trackEnv f ref n e j).last = 7 :=
  if_neg (by rw [h]; decide)

/-- Settles O39: each task's own lemma says what its result holds, and its launch is finished or freed as the stop says. That an aborted task
stops with the step in progress is log entry 95. -/
theorem pointCloudAndTrackerTasks : Obligations.PointCloudAndTrackerTasks := by
  unfold Obligations.PointCloudAndTrackerTasks
  refine ⟨fun a s n e j f x sec hs hbusy hf hopen hx hxn hruns hwf _ _ hclean hsec => ?_,
    fun a s n e j f x sec hs hbusy hf hopen hx hxn haborts ha hsec => ?_, fun s n e j f ref hs hbusy hf href hopen => ?_⟩
  · have hstop := State.pcuStop_finishes a hclean (Seq.abortedAt_of_not_aborted hruns)
    have hexec := execPcuTask_runs a hs hbusy hf hopen hx hxn
    rw [hstop, if_neg (by decide), Seq.finish_of_not_mem hopen] at hexec
    obtain ⟨d, m, hlast, hmem, hm, hframe, hdone, haborted, hstep⟩ := Pcu.task_recorded (e := s.pcuEnv f n x.points 8) hsec s.mem
    refine ⟨_, d, hexec, s.pcuRan_only _ _, List.mem_concat_self, rfl, hlast, hframe, hdone, haborted, hstep, fun i hi => ?_⟩
    exact (congrArg (fun m : Memory => m.get _ _) hmem).trans (d.get_bytes (hm hwf) _ hi)
  · have hstop := State.pcuStop_aborts a (haborts.imp_left Seq.abortedAt_of_aborted)
    have hshort : s.pcuStop a n e j < 8 := by rw [hstop]; split <;> omega
    have hexec := execPcuTask_runs a hs hbusy hf hopen hx hxn
    rw [if_pos hshort] at hexec
    obtain ⟨d, m, hlast, -, -, hframe, hdone, haborted, hstep⟩ :=
      Pcu.task_recorded (e := s.pcuEnv f n x.points (s.pcuStop a n e j)) hsec s.mem
    have hnot : decide (8 ≤ s.pcuStop a n e j) = false := decide_eq_false (Nat.not_le.mpr hshort)
    refine ⟨_, d, hexec, s.pcuRan_only _ _, rfl, hlast, haborted.trans (congrArg not hnot), hdone.trans hnot, hframe, ?_⟩
    exact hstep.trans ((Nat.min_eq_left (Nat.le_of_lt hshort)).trans hstop)
  · obtain ⟨hcfg, ⟨hdram, hlocal, hbad⟩, hframe⟩ := s.trk.task_publishes (s.trackEnv f ref n e j) s.mem
    refine ⟨_, execTrackerTask_runs hs hbusy hf href hopen, s.tracked_only _ _, fun hruns => ?_, fun haborts => ?_, hcfg, hdram, hlocal, hbad⟩
    · have hruns := Seq.abortedAt_of_not_aborted hruns
      exact ⟨(if_neg (by rw [hruns]; decide)).trans (Seq.finish_of_not_mem hopen), hframe (Nat.le_of_eq (State.trackEnv_last f ref hruns).symm)⟩
    · exact if_pos (Seq.abortedAt_of_aborted haborts)

end Sys2Proof.Machine
end
